-- ==== Sys2Proof/Word.lean ====
section
/-! DEFINITION. The word types of the device (00 Notation): bytes, 32-bit words, 64-bit doublewords. -/

namespace Sys2Proof

/-- One byte. -/
abbrev Byte := BitVec 8

/-- A word is 32 bits (00 Notation). -/
abbrev Word := BitVec 32

/-- A doubleword is 64 bits (00 Notation). -/
abbrev DWord := BitVec 64

end Sys2Proof
end

