-- ==== Sys2Proof/Syntax.lean ====
section
/-! DEFINITION. The commands of the block: one constructor for each row of `spec/opcode_table.json`, with the
operands the model gives it (the table gives none; log 1), and the types those operands have. -/

namespace Sys2Proof

/-- A page index, 0x000 to 0x3FF (R41). -/
abbrev Page := Fin 1024

/-- A network port, MAC0 to MAC3 (R72). -/
abbrev Port := Fin 4

/-- A link: MAC0 to MAC3 as 0 to 3, and PLK as 4 (R103). -/
abbrev Link := Fin 5

/-- A tile, TILE00 to TILE47 (R232). -/
abbrev TileIx := Fin 48

/-- An ingress or egress context (R164). -/
abbrev CtxIx := Fin 512

/-- A queue (R365). -/
abbrev QueueIx := Fin 1024

/-- A memory bank, B0 to B7 (R388). -/
abbrev Bank := Fin 8

/-- A sequencer context (R412). -/
abbrev SeqCtx := Fin 8

/-- The crossbar masters M0 to M7 of Table 14.4. -/
inductive Master where
  /-- M0, the host interface. -/
  | hif
  /-- M1, the event sequencer. -/
  | seq
  /-- M2, the queue manager's DMA. -/
  | qmgDma
  /-- M3, the measurement block. -/
  | mea
  /-- M4, the streams block. -/
  | strg
  /-- M5, the lattice load port. -/
  | lat
  /-- M6, the debug block. -/
  | dbg
  /-- M7, the fault collector. -/
  | flt
  deriving DecidableEq, Repr

/-- AES3 preambles (R312). -/
inductive Preamble where
  | x
  | y
  | z
  deriving DecidableEq, Repr

/-- The PLLs whose lock R517 watches. -/
inductive Pll where
  | ts
  | fab
  | lat
  | serdes
  deriving DecidableEq, Repr

/-- The life-cycle states of Table 20.7. -/
inductive LifeCycle where
  | blank
  | provisioned
  | deployed
  | rma
  | scrapped
  deriving DecidableEq, Repr

/-- A point in local-clock time: the FRC count and the 2^-16 ns units past that count
(one count lasts 81,920 units, R108). -/
structure Instant where
  /-- The count of the free-running counter. -/
  frc  : BitVec 64
  /-- Units of 2^-16 ns since that count. -/
  frac : BitVec 17
  deriving DecidableEq, Repr

/-- What the receive path of a link reports with a frame (R79 to R81, R91). -/
structure RxInfo where
  /-- An invalid block or code group was seen within the frame. -/
  pcsErr   : Bool
  /-- A fragment with an invalid start delimiter. -/
  smdErr   : Bool
  /-- The fragments do not assemble to one frame. -/
  asmErr   : Bool
  /-- The fragments the frame arrived in. -/
  frags    : Nat
  /-- What was received: 0 a frame, 1 a verify frame, 2 a respond frame of the preemption protocol (R89). -/
  mpkt     : Fin 3
  /-- When the destination address passed the receive point (R116). -/
  crossing : Instant
  /-- Bit errors that the PRBS31 checker saw, while it stands in place of traffic (R106). -/
  bitErrs  : Nat
  deriving DecidableEq, Repr

/-- A fault of a link, and the frames on their way that it cuts off (R77). -/
structure LinkCut where
  /-- The link. -/
  l  : Link
  /-- When the frame in transmission began, where there is one. -/
  tx : Option Instant
  /-- A frame is in reception. -/
  rx : Bool
  deriving DecidableEq, Repr

/-- A memory error that a task's reads of its tile's local memory meet: the byte's offset, and whether it is
uncorrectable (R233). -/
structure TileErr where
  ofs    : BitVec 18
  uncorr : Bool
  deriving DecidableEq, Repr

/-- The overcurrent pin of a drive channel, filtered: the table's row tells of its fall, and the model has it tell of its
rise too (R336; log 29). -/
structure OcPin where
  ch  : Fin 16
  /-- DCn_OC_N has been low for OC_FILT cycles; or it has risen. -/
  low : Bool
  deriving DecidableEq, Repr

/-- A word that the scrubber of a bank reads, and how many of its bits are in error (R395). -/
structure ScrubRead where
  bank : Bank
  bits : Fin 3
  deriving DecidableEq, Repr

/-- How a run of a task went: the cycles it took, and the memory error it met, if any. -/
structure TaskRun where
  cycles : Nat
  ecc    : Option TileErr
  deriving DecidableEq, Repr

/-- An edge of a pulse generator (R129). -/
structure PulseAt where
  /-- The generator. -/
  n   : Fin 8
  /-- The CLK_MOD cycle of the tick in which the edge falls. -/
  cyc : BitVec 14
  deriving DecidableEq, Repr

/-- One bit clock of a TDM or a sense port: the levels of data and frame sync at the rising and at the falling edge of the
bit clock (R298, R346). -/
structure SerialBit where
  dinRise : Bool
  dinFall : Bool
  fsRise  : Bool
  fsFall  : Bool
  deriving DecidableEq, Repr

/-- The wires of a TDM or a sense port over one frame (R297, R346). -/
structure SerialFrame where
  /-- The bit clock before the frame start. -/
  before : SerialBit
  /-- The bit clocks from the frame start to the last bit of the frame. -/
  bits   : List SerialBit
  deriving DecidableEq, Repr

/-- The start of a frame that a TDM port sends. -/
structure TdmStart where
  /-- The port. -/
  n   : Fin 16
  /-- The CLK_MOD cycle of the tick. -/
  cyc : BitVec 14
  deriving DecidableEq, Repr

/-- The start of a frame that an AES3 transmitter sends. -/
structure AesStart where
  /-- The transmitter. -/
  n   : Fin 4
  /-- The CLK_MOD cycle of the tick. -/
  cyc : BitVec 14
  deriving DecidableEq, Repr

/-- One crossbar transaction on a bank or on the register bridge (R402). -/
structure Txn where
  /-- The master. -/
  m       : Master
  /-- The byte address. -/
  addr    : Word
  /-- The word written, or none for a read. -/
  wr      : Option Word
  /-- The byte-enables. -/
  be      : BitVec 4
  /-- It is marked locked (R407). -/
  locked  : Bool
  /-- It conflicts with an access of port A to the same macro (R389). -/
  conflict : Bool
  /-- It writes the word that port A writes in the same cycle (R391). -/
  collide : Option Word
  /-- Bits of the word found in error: 0, 1, or 2 for two or more (R393, R394). -/
  badBits : Fin 3
  deriving DecidableEq, Repr

/-- A QSPI frame as the host sends it (R434). -/
structure HostFrame where
  /-- The byte address. -/
  addr : Word
  /-- Words minus one. -/
  len  : Byte
  /-- The write data. -/
  data : List Word
  /-- The CRC-16 received. -/
  crc  : BitVec 16
  /-- The command's transactions are not complete at its reply point (R438). -/
  late : Bool
  /-- The width in which the host sends it: quad, or single-lane (R433, R442). -/
  quad : Bool := false
  deriving DecidableEq, Repr

/-- The core supplies (R515). -/
inductive Supply where
  | vcore | vsram | vsd | vsdh | vioa | viob | vioc | viod
  deriving DecidableEq, Repr

/-- How the stalled operation of an L0 cell goes on after its restart (R12, R456). -/
inductive CellReport where
  /-- It does not complete yet. -/
  | waits
  /-- It completes. -/
  | completes
  /-- It completes with a word of a dual-clock FIFO that has a parity error: the FIFO's number within the block. -/
  | parity (fifo : Byte)
  deriving DecidableEq, Repr

/-- The commands of the block, one constructor for each row of `spec/opcode_table.json`, in its order.
The operands are what an access carries or what the surroundings of the device supply with an event (log 1). -/
inductive Instr where
  /-- TICK_EVENT (R27, R31, R126, R157) -/
  | tickEvent (frac : BitVec 17)
  /-- LOCAL_TICK_BOUNDARY (R4, R32, R33, R37, …) -/
  | localTickBoundary (p : Page)
  /-- STALL_WATCHDOG_EXPIRY (R12) -/
  | stallWatchdogExpiry (p : Page) (u : Fin 16) (rep : CellReport)
  /-- UNIT_RETRY_LIMIT (R12) -/
  | unitRetryLimit (p : Page) (u : Fin 16) (ctx : Word)
  /-- BLOCK_RESET (R14, R15, R16, R65, …) -/
  | blockReset (p : Page)
  /-- BLOCK_RESET_DONE (R15) -/
  | blockResetDone (p : Page)
  /-- SUBSYSTEM_WATCHDOG_EXPIRY (R17, R18, R100, R473) -/
  | subsystemWatchdogExpiry (n : Fin 16)
  /-- LIVENESS_TOKEN (R19) -/
  | livenessToken
  /-- DEVICE_WATCHDOG_EXPIRY (R19, R474, R475, R522) -/
  | deviceWatchdogExpiry
  /-- REFCLK_LOSS (R28, R333) -/
  | refclkLoss
  /-- REGISTER_WRITE (R33, R45, R46, R55, …) -/
  | registerWrite (m : Master) (addr : Word) (v : Word)
  /-- REGISTER_READ_CLEAR (R59, R99, R197, R362) -/
  | registerReadClear (m : Master) (addr : Word)
  /-- DEFAULT_TARGET_ACCESS (R40, R42, R43, R44, …) -/
  | defaultTargetAccess (m : Master) (addr : Word) (be : BitVec 4) (wr : Option Word)
  /-- DRAIN (R51) -/
  | drain (m : Master) (p : Page)
  /-- SRST (R14) -/
  | srst (m : Master) (p : Page)
  /-- BLOCK_ENABLE (R50, R51, R75, R76, …) -/
  | blockEnable (m : Master) (p : Page) (en : Bool)
  /-- FAULT_FLAG_CLEAR (R54) -/
  | faultFlagClear (m : Master) (p : Page) (mask : Word)
  /-- FAULT_FORCE (R52, R53, R454) -/
  | faultForce (m : Master) (p : Page) (mask : Word)
  /-- PG_TMO_EXPIRY (R56, R57, R106, R197, …) -/
  | pgTmoExpiry (p : Page)
  /-- COMMIT_REQUEST (R58, R62, R63, R64, …) -/
  | commitRequest (m : Master) (p : Page) (atTick : Bool)
  /-- COMMIT_CANCEL (R63) -/
  | commitCancel (m : Master) (p : Page)
  /-- LOCK_GAINED (R75, R103) -/
  | lockGained (l : Link)
  /-- LOCK_LOST (R75, R76, R77, R103, …) -/
  | lockLost (l : Link) (tx : Option Instant) (rx : Bool)
  /-- HOLDUP_EXPIRY (R75, R76, R89, R103, …) -/
  | holdupExpiry (l : Link)
  /-- REMOTE_FAULT_TIMEOUT (R75, R76) -/
  | remoteFaultTimeout (x : LinkCut)
  /-- LOCAL_FAULT (R75, R76) -/
  | localFault (x : LinkCut)
  /-- AN_COMPLETE (R75) -/
  | anComplete (q : Port)
  /-- FRAME_RECEIVE (R77, R79, R80, R81, …) -/
  | frameReceive (l : Link) (info : RxInfo) (bytes : List Byte)
  /-- PAUSE_TIMER_EXPIRY (R97) -/
  | pauseTimerExpiry (q : Port)
  /-- PAUSE_REPEAT (R98) -/
  | pauseRepeat (q : Port)
  /-- FRAME_TRANSMIT (R77, R82, R88, R90, …) -/
  | frameTransmit (l : Link) (inst : Instant) (deferred : Bool) (cuts : List Nat)
  /-- LAUNCH_TIME_REACHED (R93) -/
  | launchTimeReached (q : Port) (express : Bool)
  /-- VERIFY_FRAME_SEND (R89) -/
  | verifyFrameSend (q : Port)
  /-- VERIFY_TIMEOUT (R89) -/
  | verifyTimeout (q : Port)
  /-- RECOVERY_WINDOW_CLOSE (R100) -/
  | recoveryWindowClose (l : Link)
  /-- COUNTER_CLEAR (R99) -/
  | counterClear (m : Master) (l : Link)
  /-- RATE_WRITE (R111) -/
  | rateWrite (m : Master) (v : Word)
  /-- STEP_REQUEST (R112) -/
  | stepRequest (m : Master) (v : Word)
  /-- NOW_READ (R114) -/
  | nowRead (m : Master)
  /-- FRC_READ (R114) -/
  | frcRead (m : Master)
  /-- TICK_TIME_READ (R126) -/
  | tickTimeRead (m : Master)
  /-- PPSIN_READ (R127) -/
  | ppsinRead (m : Master)
  /-- TXTS_POP (R124) -/
  | txtsPop (m : Master)
  /-- PPS_IN_EDGE (R127) -/
  | ppsInEdge (frac : BitVec 17)
  /-- GEN_ARM (R130, R131, R132) -/
  | genArm (m : Master) (n : Fin 8) (cfg : BitVec 3)
  /-- GEN_DISARM (R130) -/
  | genDisarm (m : Master) (n : Fin 8) (cfg : BitVec 3)
  /-- PULSE_START (R129) -/
  | pulseStart (x : PulseAt)
  /-- PULSE_END (R129, R130) -/
  | pulseEnd (x : PulseAt)
  /-- MARKER (R136, R138, R147, R150, …) -/
  | marker (n : Fin 8) (ph : Int)
  /-- MARKER_TIMEOUT (R136, R138, R141, R143, …) -/
  | markerTimeout (n : Fin 8)
  /-- REFS_MEASUREMENT (R137, R138, R139, R140, …) -/
  | refsMeasurement (ofs : List Int) (freq : Int)
  /-- CANDIDATE_PRIO_WRITE (R138) -/
  | candidatePrioWrite (m : Master) (n : Fin 8) (prio : BitVec 4)
  /-- PTP_VALID (R136, R138, R141, R143) -/
  | ptpValid (m : Master) (valid : Bool)
  /-- PTP_KEEPALIVE (R136) -/
  | ptpKeepalive (m : Master)
  /-- PTP_TIMEOUT (R136, R138, R141, R143, …) -/
  | ptpTimeout
  /-- DPLL_LOCK (R145, R146) -/
  | dpllLock
  /-- DPLL_UNLOCK (R146) -/
  | dpllUnlock
  /-- PHSTEP_REQUEST (R152) -/
  | phstepRequest (m : Master) (v : Word)
  /-- REALIGN_OUTPUTS (R153) -/
  | realignOutputs (m : Master)
  /-- NUMBER_LOAD (R158) -/
  | numberLoad (m : Master)
  /-- TICK_OFFSET_WRITE (R159) -/
  | tickOffsetWrite (m : Master) (v : Word)
  /-- TICK_READ (R161) -/
  | tickRead (m : Master)
  /-- HEADER_COMPLETE (R171, R172, R176, R177, …) -/
  | headerComplete (q : Port) (bytes : List Byte)
  /-- CHANNEL_HANDOFF (R167, R174, R198, R216, …) -/
  | channelHandoff (q : Port) (bytes : List Byte)
  /-- PREDICTION_DEADLINE (R198, R200, R216, R221, …) -/
  | predictionDeadline (c : CtxIx)
  /-- COMMIT_DEADLINE (R171, R175, R179, R180, …) -/
  | commitDeadline (c : CtxIx)
  /-- CONTEXT_ENABLE (R181, R188, R195, R196) -/
  | contextEnable (m : Master) (egress : Bool) (c : CtxIx) (v : Word)
  /-- CONTEXT_KIND_WRITE (R195) -/
  | contextKindWrite (m : Master) (egress : Bool) (c : CtxIx) (v : Word)
  /-- SEGMENT_SEND (R163, R166, R167, R169, …) -/
  | segmentSend (c : CtxIx) (seg : Fin 4)
  /-- SPECULATIVE_SEGMENT_START (R190, R191, R227) -/
  | speculativeSegmentStart (c : CtxIx) (seg : Fin 4)
  /-- SEGMENT_RESEND (R191) -/
  | segmentResend (c : CtxIx) (seg : Fin 4)
  /-- CORRECTION_SEND (R192, R228) -/
  | correctionSend (c : CtxIx)
  /-- AES67_PACKET_SEND (R193, R194, R421, R493) -/
  | aes67PacketSend (c : CtxIx)
  /-- RERUN_START (R217, R218, R239, R266) -/
  | rerunStart
  /-- RERUN_DONE (R218) -/
  | rerunDone
  /-- SAF_HOLD_EXPIRY (R223) -/
  | safHoldExpiry (c : CtxIx)
  /-- SAF_END (R223) -/
  | safEnd (m : Master) (c : CtxIx)
  /-- CONE_TABLE_READY (R215, R247) -/
  | coneTableReady
  /-- TASK_START (R237, R238, R253, R263, …) -/
  | taskStart (t : TileIx)
  /-- TASK_FINISH (R199, R208, R209, R210, …) -/
  | taskFinish (t : TileIx) (r : TaskRun)
  /-- RING_DELIVERY (R235, R236) -/
  | ringDelivery (t : TileIx)
  /-- IMAGE_CHECK (R23, R35, R245, R246, …) -/
  | imageCheck (m : Master)
  /-- IMAGE_CHECK_DONE (R215, R245, R246, R247) -/
  | imageCheckDone
  /-- IMAGE_BASE_WRITE (R245) -/
  | imageBaseWrite (m : Master) (v : Word)
  /-- PRELOAD_DONE (R247) -/
  | preloadDone
  /-- TILE_BIST_START (R258) -/
  | tileBistStart (m : Master) (t : TileIx) (mode : BitVec 2)
  /-- TILE_BIST_DONE (R258, R486, R499) -/
  | tileBistDone (t : TileIx) (fail : Bool)
  /-- TDM_FRAME_RECEIVE (R297, R300, R301, R304, …) -/
  | tdmFrameReceive (n : Fin 16) (wire : SerialFrame)
  /-- MISPLACED_FRAME_START (R300, R305, R307) -/
  | misplacedFrameStart (n : Fin 16)
  /-- TDM_CLOCK_LOSS (R300, R305, R307) -/
  | tdmClockLoss (n : Fin 16)
  /-- TDM_FRAME_TRANSMIT (R297, R299, R301, R306, …) -/
  | tdmFrameTransmit (x : TdmStart)
  /-- AES3_SUBFRAME (R305, R311, R312, R313, …) -/
  | aes3Subframe (n : Fin 4) (pre : Preamble) (bits : BitVec 28) (biphase : Bool)
  /-- AES3_LOCK (R307, R311, R468) -/
  | aes3Lock (n : Fin 4) (hz : BitVec 18)
  /-- AES3_LOCK_LOSS (R305, R307, R311) -/
  | aes3LockLoss (n : Fin 4)
  /-- AES3_FRAME_TRANSMIT (R306, R309, R316, R317) -/
  | aes3FrameTransmit (x : AesStart)
  /-- ASRC_ENABLE (R319, R320) -/
  | asrcEnable (m : Master) (ch : Fin 64) (v : Word)
  /-- ASRC_SETTLED (R320) -/
  | asrcSettled (ch : Fin 64) (ratio : BitVec 24)
  /-- ASRC_SOURCE_LOSS (R320) -/
  | asrcSourceLoss (ch : Fin 64)
  /-- CARRIER_PERIOD (R327, R328, R329, R330, …) -/
  | carrierPeriod (ch : Fin 16) (k : Fin 24)
  /-- OVERCURRENT_TRIP (R333, R336, R342, R360, …) -/
  | overcurrentTrip (oc : OcPin)
  /-- BOOST_HOLD_EXPIRY (R342) -/
  | boostHoldExpiry (g : Fin 4)
  /-- RETRY_EXPIRY (R333, R336) -/
  | retryExpiry (ch : Fin 16)
  /-- PRECHARGE_DONE (R333) -/
  | prechargeDone (ch : Fin 16)
  /-- TRIP_COUNT_CLEAR (R336) -/
  | tripCountClear (ch : Fin 16)
  /-- UNLATCH (R333) -/
  | unlatch (m : Master) (ch : Fin 16)
  /-- SAFE_PIN_ASSERT (R333, R341, R508) -/
  | safePinAssert
  /-- SAFE_PIN_RELEASE (R333, R341) -/
  | safePinRelease
  /-- DC_WINDOW (R333, R339) -/
  | dcWindow (ch : Fin 16)
  /-- BOOST_PERIOD (R343) -/
  | boostPeriod (g : Fin 4) (k : Fin 24)
  /-- BOOST_ILIM (R343) -/
  | boostIlim (g : Fin 4)
  /-- BOOST_OVP_PIN (R343, R508) -/
  | boostOvpPin (g : Fin 4) (low : Bool)
  /-- SENSE_TIMEOUT (R343) -/
  | senseTimeout (g : Fin 4)
  /-- THERMAL_CLEAR (R343, R468) -/
  | thermalClear (g : Fin 4)
  /-- SENSE_FRAME (R337, R343, R346, R349, …) -/
  | senseFrame (g : Fin 4) (wire : SerialFrame)
  /-- SENSE_CLOCK_LOSS (R349, R360) -/
  | senseClockLoss (g : Fin 4)
  /-- SENSE_COUNT_CHECK (R349) -/
  | senseCountCheck (g : Fin 4)
  /-- EXPOSURE_SECOND (R352, R353) -/
  | exposureSecond (e : Fin 8)
  /-- CAPTURE_GO (R354) -/
  | captureGo (m : Master) (v : Word)
  /-- CAPTURE_STOP (R354, R355) -/
  | captureStop (m : Master)
  /-- SWEEP_GO (R357, R364) -/
  | sweepGo (m : Master) (mask : BitVec 16)
  /-- SWEEP_STEP_END (R357, R358, R359, R360) -/
  | sweepStepEnd
  /-- SWEEP_ABORT (R360) -/
  | sweepAbort (m : Master) (mask : BitVec 16)
  /-- PILOT_WINDOW (R358, R361) -/
  | pilotWindow (ch : Fin 16)
  /-- PILOT_CAPTURE (R361) -/
  | pilotCapture (m : Master)
  /-- QUEUE_PUSH (R82, R98, R366, R368, …) -/
  | queuePush (m : Master) (last : Bool) (w : Word)
  /-- PUSH_ABORT (R374, R376, R382) -/
  | pushAbort (m : Master)
  /-- ITEM_TIMEOUT (R374, R376, R382) -/
  | itemTimeout (m : Master)
  /-- QUEUE_POP (R98, R372, R377, R378, …) -/
  | queuePop (m : Master)
  /-- STALL_TIMEOUT (R378) -/
  | stallTimeout (m : Master)
  /-- HELD_ITEM_TIMEOUT (R379) -/
  | heldItemTimeout (q : QueueIx)
  /-- QUEUE_ENABLE (R370, R371) -/
  | queueEnable (m : Master) (q : QueueIx) (v : Word)
  /-- FLUSH_REQUEST (R382) -/
  | flushRequest (m : Master) (q : QueueIx)
  /-- LINK_ECC_ERROR (R386) -/
  | linkEccError (q : Option QueueIx) (uncorr : Bool) (lost : Nat)
  /-- TRANSACTION_RESPONSE (R38, R389, R390, R391, …) -/
  | transactionResponse (x : Txn)
  /-- ECC_WRITE_BACK (R393) -/
  | eccWriteBack (b : Bank)
  /-- SCRUB_STEP (R395) -/
  | scrubStep (x : ScrubRead)
  /-- BIST_WINDOW_PHASE (R396, R398) -/
  | bistWindowPhase (b : Bank) (bad : Option (Fin 256))
  /-- BANK_INIT_DONE (R392) -/
  | bankInitDone (b : Bank)
  /-- SEAL (R400) -/
  | seal (m : Master)
  /-- WIPE (R401) -/
  | wipe (m : Master)
  /-- WIPE_DONE (R401) -/
  | wipeDone
  /-- TRANSACTION_TIMEOUT (R406) -/
  | transactionTimeout (m : Master)
  /-- LOCK_BREAK (R407) -/
  | lockBreak (m : Master) (tgt : Fin 16)
  /-- NOP (R414) -/
  | nop (c : SeqCtx)
  /-- WR (R413, R414, R417) -/
  | wr (c : SeqCtx)
  /-- RMW (R413, R414, R417) -/
  | rmw (c : SeqCtx)
  /-- WAIT_TICK (R414, R420, R428) -/
  | waitTick (c : SeqCtx)
  /-- WAIT_AT (R414, R422, R428) -/
  | waitAt (c : SeqCtx)
  /-- WAIT_EVT (R414, R424, R428) -/
  | waitEvt (c : SeqCtx)
  /-- IF_EQ (R413, R414, R418) -/
  | ifEq (c : SeqCtx)
  /-- JMP (R414, R419) -/
  | jmp (c : SeqCtx)
  /-- CALL (R414, R419) -/
  | call (c : SeqCtx)
  /-- RET (R414, R419) -/
  | ret (c : SeqCtx)
  /-- SIGNAL (R385, R414, R426) -/
  | signal (c : SeqCtx)
  /-- COMMIT (R414, R425, R428) -/
  | commit (c : SeqCtx)
  /-- END (R414, R428) -/
  | endList (c : SeqCtx)
  /-- ACTION_REPLY (R416, R423) -/
  | actionReply (c : SeqCtx)
  /-- WAIT_TICK_RELEASE (R420, R423) -/
  | waitTickRelease (c : SeqCtx)
  /-- WAIT_AT_RELEASE (R422, R423) -/
  | waitAtRelease (c : SeqCtx)
  /-- WAIT_EVT_TIMEOUT (R424) -/
  | waitEvtTimeout (c : SeqCtx)
  /-- CONTEXT_START (R427, R428) -/
  | contextStart (m : Master) (c : SeqCtx)
  /-- CONTEXT_STOP (R428) -/
  | contextStop (m : Master) (c : SeqCtx)
  /-- CONTEXT_WATCHDOG (R428, R429) -/
  | contextWatchdog (c : SeqCtx)
  /-- READ (R68, R434, R436, R437, …) -/
  | read (f : HostFrame)
  /-- WRITE (R67, R68, R434, R436, …) -/
  | write (f : HostFrame)
  /-- STATUS_POLL (R434, R436, R437, R439, …) -/
  | statusPoll (f : HostFrame)
  /-- BURST_READ (R434, R436, R437, R438, …) -/
  | burstRead (f : HostFrame)
  /-- BURST_WRITE (R67, R434, R436, R437, …) -/
  | burstWrite (f : HostFrame)
  /-- UNKNOWN_COMMAND (R437) -/
  | unknownCommand (cmd : Byte) (f : HostFrame)
  /-- FRAME_ABORT (R437, R442) -/
  | frameAbort
  /-- FRAME_TIMEOUT (R437, R442) -/
  | frameTimeout
  /-- DEFERRED_COMPLETE (R438) -/
  | deferredComplete
  /-- HOLD_TIMEOUT (R439) -/
  | holdTimeout
  /-- ATTN_CLEAR (R445) -/
  | attnClear (m : Master) (sub : Bool) (mask : Word)
  /-- NETWORK_REQUEST (R448, R449, R450, R451, …) -/
  | networkRequest (q : Port) (src : BitVec 48) (header : List Byte) (payload : List Byte) (tail : List Byte)
  /-- NETWORK_REQUEST_RUN (R443, R451, R452) -/
  | networkRequestRun
  /-- FAULT_MESSAGE_ACCEPT (R17, R333, R335, R341, …) -/
  | faultMessageAccept
  /-- CEASE (R465, R467) -/
  | cease
  /-- SHADOW_END (R470, R472) -/
  | shadowEnd
  /-- RECORD_POP (R465, R466) -/
  | recordPop (m : Master)
  /-- CLEAR_ALL (R465, R466) -/
  | clearAll (m : Master)
  /-- FIRST_CLR (R464) -/
  | firstClr (m : Master)
  /-- OUT_RELEASE (R309, R335, R458) -/
  | outRelease (m : Master)
  /-- OUT_SET (R458) -/
  | outSet (m : Master)
  /-- DRV_RELEASE (R333, R459) -/
  | drvRelease (m : Master) (mask : BitVec 16)
  /-- DEVICE_RESET_ASSERT (R474) -/
  | deviceResetAssert
  /-- HEARTBEAT_SEND (R104, R483) -/
  | heartbeatSend
  /-- HEARTBEAT_RECEIVE (R468, R481, R484, R486, …) -/
  | heartbeatReceive (bytes : List Byte)
  /-- HEARTBEAT_MISS (R487, R501) -/
  | heartbeatMiss
  /-- HEALTH_SEND (R485) -/
  | healthSend
  /-- HEALTH_RECEIVE (R485, R500) -/
  | healthReceive (bytes : List Byte)
  /-- SEQUENCE_MAP_SEND (R500) -/
  | sequenceMapSend
  /-- LISTEN_EXPIRY (R481, R486) -/
  | listenExpiry
  /-- PROMOTE (R489, R502) -/
  | promote (m : Master)
  /-- HANDOVER (R486, R490, R502) -/
  | handover (m : Master)
  /-- REJOIN (R486) -/
  | rejoin (m : Master)
  /-- RELEASING_END (R486, R490) -/
  | releasingEnd
  /-- VERDICT_DONE (R486, R498, R501) -/
  | verdictDone
  /-- VERDICT_TIMEOUT (R486, R498) -/
  | verdictTimeout
  /-- VAUX_APPLY (R515, R517) -/
  | vauxApply
  /-- SUPPLY_OUT_OF_RANGE (R492, R515, R529, R547) -/
  | supplyOutOfRange (rail : Supply)
  /-- RESET_ASSERT (R492, R516, R529, R562) -/
  | resetAssert
  /-- START_UP (R481, R516, R517, R518, …) -/
  | startUp (mode : BitVec 3) (rolePref : Bool) (fuses : Option LifeCycle)
  /-- PLL_LOCK (R392, R400, R476, R519, …) -/
  | pllLock
  /-- DEVICE_READY (R519, R522) -/
  | deviceReady (bistFail : BitVec 48)
  /-- DEV_RUN (R100, R519, R521) -/
  | devRun (m : Master)
  /-- SWRST (R538) -/
  | swrst (m : Master) (key : BitVec 16)
  /-- FREEZE_PIN (R523, R524) -/
  | freezePin
  /-- FREEZE_REQUEST (R523, R524) -/
  | freezeRequest (m : Master)
  /-- FREEZE_STOP (R36, R477, R524, R525, …) -/
  | freezeStop
  /-- THAW (R477, R528, R529, R540) -/
  | thaw (m : Master) (pinLow : Bool)
  /-- SNAP_DATA_READ (R203, R527) -/
  | snapDataRead (m : Master)
  /-- DBG_ACCESS (R532, R540) -/
  | dbgAccess (op : BitVec 4) (addr : Word) (data : Word)
  /-- EXTEST (R531) -/
  | extest
  /-- SAMPLE_PRELOAD (R530) -/
  | samplePreload
  /-- IDCODE (R530) -/
  | idcode
  /-- BYPASS (R530) -/
  | bypass
  /-- TAP_RESET (R530) -/
  | tapReset
  /-- LC_ARM (R535) -/
  | lcArm (m : Master) (v : Word)
  /-- LC_ARM_LAPSE (R535) -/
  | lcArmLapse
  /-- LC_GO (R401, R535) -/
  | lcGo (m : Master)
  /-- LC_DONE (R535, R536) -/
  | lcDone
  /-- TAMPER_ASSERT (R401, R529, R537) -/
  | tamperAssert (pin : Fin 2)
  /-- TAMPER_RELEASE (R468, R537) -/
  | tamperRelease
  /-- PLL_LOCK_LOSS (R28, R517) -/
  | pllLockLoss (pll : Pll)
  /-- VAUX_REMOVE (R514, R547) -/
  | vauxRemove
  /-- SEAL_DONE (R400) -/
  | sealDone
  /-- SENSE_MISPLACED_FRAME_START (R349) -/
  | senseMisplacedFrameStart (g : Fin 4)
  /-- LOCAL_FAULT_CLEAR (R75) -/
  | localFaultClear (l : Link)
  /-- REMOTE_FAULT_RECEIVED (R75) -/
  | remoteFaultReceived (l : Link)
  /-- AN_RESTART (R75) -/
  | anRestart (q : Port)
  deriving DecidableEq, Repr

end Sys2Proof
end

