-- ==== Sys2Proof/WellFormed.lean ====
section
/-! DEFINITION. Well-formed commands: the operands that an access or an event of the device can carry. -/

namespace Sys2Proof

/-- The masters from which the register window accepts requests (R42). -/
def Master.reachesWindow : Master → Bool
  | .hif => true
  | .seq => true
  | .dbg => true
  | .flt => true
  | _ => false

/-- A host frame carries LEN + 1 words of write data (R434). -/
def HostFrame.fullData (f : HostFrame) : Bool := f.data.length == f.len.toNat + 1

/-- Command is well formed: the master of a register access can reach the register window (R42); a frame carries the
data its length announces (R434); a sense frame carries 384 bit clocks after a delay of at most one (R346) and a TDM frame at most 1,024 bit clocks after an offset of at most 31 (R297); a
measurement names eight candidates (R137); a network request
carries the 32-byte header, at most 1,024 bytes of payload and the 16-byte tail (R448, R449). -/
def Instr.wellFormed : Instr → Bool
  | .registerWrite m _ _ => m.reachesWindow
  | .registerReadClear m _ => m.reachesWindow
  | .drain m _ => m.reachesWindow
  | .srst m _ => m.reachesWindow
  | .blockEnable m _ _ => m.reachesWindow
  | .faultFlagClear m _ _ => m.reachesWindow
  | .faultForce m _ _ => m.reachesWindow
  | .commitRequest m _ _ => m.reachesWindow
  | .commitCancel m _ => m.reachesWindow
  | .counterClear m _ => m.reachesWindow
  | .write f => f.fullData
  | .burstWrite f => f.fullData
  | .senseFrame _ w => w.bits.length == 384 || w.bits.length == 385
  | .tdmFrameReceive _ w => w.bits.length ≤ 1055
  | .refsMeasurement ofs _ => ofs.length == 8
  | .networkRequest _ _ header payload tail => header.length == 32 && payload.length ≤ 1024 && tail.length == 16
  | _ => true

end Sys2Proof
end

