-- ==== Sys2Proof/Decode.lean ====
section
/-! DEFINITION. Decoding by the opcode table. The table's rows give no bits (their "fields" are empty), since the
commands are accesses and events and no words; so no word spells a command. -/

namespace Sys2Proof

/-- The command that a word spells by the bits of `spec/opcode_table.json`: none, for no row gives bits. -/
def decodeTableWord (_nbits _w : Nat) : Option Instr := none

end Sys2Proof
end

