-- ==== Sys2Proof/Config.lean ====
section
/-! DEFINITION. What the spec leaves open and the model leaves free: constants with no body, of which no proof can see
the value. -/

namespace Sys2Proof

/-- The free values: the value the model draws at a count of `State.freeCtr` where the spec states a result and not its
value, or calls a value undefined (log 3). Nothing in the model constrains it. -/
opaque Config.freeValue : Nat → BitVec 64

end Sys2Proof
end

