-- ==== Sys2Proof/Machine/Bits.lean ====
section
/-! DEFINITION. Bit fields, two's complement and saturation: the helpers every block uses (00 Notation). -/

namespace Sys2Proof.Machine

/-- Bits hi down to lo of a word, as a number. -/
def getBits (w : Word) (hi lo : Nat) : Nat := (w.toNat >>> lo) % 2 ^ (hi + 1 - lo)

/-- The word with ones in bits hi down to lo. -/
def bitMask (hi lo : Nat) : Word := BitVec.ofNat 32 ((2 ^ (hi + 1 - lo) - 1) <<< lo)

/-- The word with bits hi down to lo replaced by the low bits of v. -/
def setBits (w : Word) (hi lo v : Nat) : Word :=
  (w &&& ~~~ bitMask hi lo) ||| (BitVec.ofNat 32 (v <<< lo) &&& bitMask hi lo)

/-- Bit n of a number is 1. -/
def natBit (v n : Nat) : Bool := v.testBit n

/-- A word of a number. -/
abbrev w32 (n : Nat) : Word := BitVec.ofNat 32 n

/-- The number with bit n clear. -/
def withoutBit (v n : Nat) : Nat := if v.testBit n then v - 2 ^ n else v

/-- The low n bits of an integer, as a number in two's complement. -/
def toBits (n : Nat) (i : Int) : Nat := (i % (2 ^ n : Nat)).toNat

/-- The integer that the low n bits of a number stand for in two's complement. -/
def ofBits (n v : Nat) : Int :=
  let u := v % 2 ^ n
  if 2 * u < 2 ^ n then (u : Int) else (u : Int) - (2 ^ n : Nat)

/-- An integer held to the range of an n-bit two's-complement number. -/
def satInt (n : Nat) (i : Int) : Int :=
  max (-((2 ^ (n - 1) : Nat) : Int)) (min i (((2 ^ (n - 1) : Nat) : Int) - 1))

/-- A count plus an amount, saturating at the largest number of its width (R99, R59). -/
def satAdd (width v n : Nat) : Nat := min (2 ^ width - 1) (v + n)

/-- Division by a positive number, rounding toward minus infinity. -/
def floorDiv (a : Int) (b : Nat) : Int := a / (b : Int)

/-- The bytes of a word, lowest address first (00 Notation: little-endian). -/
def bytesLE (w : Word) : List Byte :=
  [w.extractLsb' 0 8, w.extractLsb' 8 8, w.extractLsb' 16 8, w.extractLsb' 24 8]

/-- The number a list of bytes spells, most significant first (00 Notation: network order). -/
def natBE : List Byte → Nat := List.foldl (fun a b => a * 256 + b.toNat) 0

/-- A number as n bytes, most significant first. -/
def bytesBE : Nat → Nat → List Byte
  | 0, _ => []
  | n + 1, v => BitVec.ofNat 8 (v / 256 ^ n) :: bytesBE n v

/-- A word from four bytes, most significant first. -/
def wordBE (a b c d : Byte) : Word := a ++ b ++ c ++ d

/-- The element of a list at an index, or a default. -/
def nth {α : Type} (d : α) (l : List α) (n : Nat) : α := (l[n]?).getD d

/-- A list with the element at an index replaced. -/
def putAt {α : Type} : List α → Nat → α → List α
  | [], _, _ => []
  | _ :: xs, 0, v => v :: xs
  | x :: xs, n + 1, v => x :: putAt xs n v

/-- The bits that are 1 among the low n bits of a number, lowest first. -/
def bitList (n v : Nat) : List Nat := (List.range n).filter (fun i => v.testBit i)

/-- How many of the low n bits of a number are 1. -/
def popCount (n v : Nat) : Nat := (bitList n v).length

end Sys2Proof.Machine
end

