-- ==== Sys2Proof/Machine/Fields.lean ====
section
/-! DEFINITION. The register fields of the spec's register tables by name: offset in the page and bit range.
A field of an array stands for its first register; `Fld.at` gives the others. -/

namespace Sys2Proof.Machine

/-- A field: the offset of its register in the page and its highest and lowest bit. -/
structure Fld where
  /-- Register offset. -/
  ofs : Nat
  /-- Highest bit. -/
  hi  : Nat
  /-- Lowest bit. -/
  lo  : Nat
  deriving DecidableEq, Repr

/-- The same field n registers of `stride` bytes further on. -/
def Fld.at (f : Fld) (stride n : Nat) : Fld := ⟨f.ofs + stride * n, f.hi, f.lo⟩

/-- One bit of a register. -/
abbrev Fld.bit (ofs n : Nat) : Fld := ⟨ofs, n, n⟩

namespace F

-- The common header (Tables 2.3 to 2.10).
def pgType : Fld := ⟨0x000, 31, 16⟩
def pgIndex : Fld := ⟨0x000, 15, 6⟩
def pgLevel : Fld := ⟨0x000, 5, 3⟩
def pgCompat : Fld := ⟨0x004, 23, 16⟩
def pgBlockRev : Fld := ⟨0x004, 15, 0⟩
def ctrlDrain : Fld := ⟨0x008, 2, 2⟩
def ctrlSrst : Fld := ⟨0x008, 1, 1⟩
def ctrlEn : Fld := ⟨0x008, 0, 0⟩
def statResetCount : Fld := ⟨0x00C, 15, 8⟩
def statCause : Fld := ⟨0x00C, 7, 4⟩
def statResetting : Fld := ⟨0x00C, 3, 3⟩
def statWedged : Fld := ⟨0x00C, 2, 2⟩
def statIdle : Fld := ⟨0x00C, 1, 1⟩
def statRun : Fld := ⟨0x00C, 0, 0⟩
def flt : Fld := ⟨0x010, 31, 0⟩
def fltEn : Fld := ⟨0x014, 31, 0⟩
def fltForce : Fld := ⟨0x018, 31, 0⟩
def tmoAction : Fld := ⟨0x01C, 25, 24⟩
def tmoUnit : Fld := ⟨0x01C, 23, 20⟩
def tmoValue : Fld := ⟨0x01C, 19, 0⟩
def evt : Fld := ⟨0x020, 31, 0⟩
def evtEn : Fld := ⟨0x024, 31, 0⟩
def cmtFailed : Fld := ⟨0x028, 3, 3⟩
def cmtPending : Fld := ⟨0x028, 2, 2⟩
def cmtAtTick : Fld := ⟨0x028, 1, 1⟩
def cmtGo : Fld := ⟨0x028, 0, 0⟩
def cmtTickLo : Fld := ⟨0x02C, 31, 0⟩
def cmtTickHi : Fld := ⟨0x030, 15, 0⟩
def scratch : Fld := ⟨0x034, 31, 0⟩

-- MAC (Table 3.6).
def macPhyRxPol : Fld := ⟨0x040, 6, 6⟩
def macPhyTxPol : Fld := ⟨0x040, 5, 5⟩
def macPhyAnEn : Fld := ⟨0x040, 4, 4⟩
def macPhyFec : Fld := ⟨0x040, 3, 2⟩
def macPhyMode : Fld := ⟨0x040, 1, 0⟩
def macMaxlenMaxlen : Fld := ⟨0x044, 13, 0⟩
def macAddrLoAddr : Fld := ⟨0x048, 31, 0⟩
def macAddrHiAddr : Fld := ⟨0x04C, 15, 0⟩
def macRxfMcastHashEn : Fld := ⟨0x050, 3, 3⟩
def macRxfPromisc : Fld := ⟨0x050, 2, 2⟩
def macRxfMcastAll : Fld := ⟨0x050, 1, 1⟩
def macRxfBcast : Fld := ⟨0x050, 0, 0⟩
def macMhashLoBits : Fld := ⟨0x054, 31, 0⟩
def macMhashHiBits : Fld := ⟨0x058, 31, 0⟩
def macVlanTagEn : Fld := ⟨0x05C, 31, 31⟩
def macVlanVid : Fld := ⟨0x05C, 27, 16⟩
def macVlanPcpPre : Fld := ⟨0x05C, 6, 4⟩
def macVlanPcpExp : Fld := ⟨0x05C, 2, 0⟩
def macPreVerifyLimit : Fld := ⟨0x060, 19, 16⟩
def macPreVerifyTime : Fld := ⟨0x060, 15, 8⟩
def macPreVerifyDis : Fld := ⟨0x060, 1, 1⟩
def macPrePreEn : Fld := ⟨0x060, 0, 0⟩
def macPreStatActive : Fld := ⟨0x064, 2, 2⟩
def macPreStatState : Fld := ⟨0x064, 1, 0⟩
def macPauseTxQuanta : Fld := ⟨0x068, 31, 16⟩
def macPauseTxEn : Fld := ⟨0x068, 1, 1⟩
def macPauseRxEn : Fld := ⟨0x068, 0, 0⟩
def macPauseThrXon : Fld := ⟨0x06C, 31, 16⟩
def macPauseThrXoff : Fld := ⟨0x06C, 15, 0⟩
def macPauseStatRxRemain : Fld := ⟨0x070, 31, 16⟩
def macPauseStatTxXoff : Fld := ⟨0x070, 1, 1⟩
def macPauseStatRxPaused : Fld := ⟨0x070, 0, 0⟩
def macTxqPreEn : Fld := ⟨0x074, 31, 31⟩
def macTxqPreQ : Fld := ⟨0x074, 25, 16⟩
def macTxqExpEn : Fld := ⟨0x074, 15, 15⟩
def macTxqExpQ : Fld := ⟨0x074, 9, 0⟩
def macRxqHostEn : Fld := ⟨0x078, 15, 15⟩
def macRxqHostQ : Fld := ⟨0x078, 9, 0⟩
def macFwdFwdOther : Fld := ⟨0x07C, 5, 5⟩
def macFwdFwdPtp : Fld := ⟨0x07C, 4, 4⟩
def macFwdFwdMask : Fld := ⟨0x07C, 3, 0⟩
def macLtLateLimit : Fld := ⟨0x080, 15, 0⟩
def macStormThresh : Fld := ⟨0x084, 15, 0⟩
def macStatsModeMode : Fld := ⟨0x088, 16, 16⟩
def macStatsModeRecovWin : Fld := ⟨0x088, 15, 8⟩
def macStatsModeOverride : Fld := ⟨0x088, 1, 0⟩
def macCntClrClear : Fld := ⟨0x08C, 0, 0⟩
def macLinkAnDone : Fld := ⟨0x090, 4, 4⟩
def macLinkRemoteFault : Fld := ⟨0x090, 3, 3⟩
def macLinkLocalFault : Fld := ⟨0x090, 2, 2⟩
def macLinkState : Fld := ⟨0x090, 1, 0⟩
def macLinkCfgHoldup : Fld := ⟨0x094, 7, 0⟩
def macTestPrbsErrors : Fld := ⟨0x098, 31, 16⟩
def macTestPrbsEn : Fld := ⟨0x098, 2, 2⟩
def macTestLoopback : Fld := ⟨0x098, 1, 0⟩
def macCntHalfLoBits : Fld := ⟨0x0A0, 31, 0⟩
def macCntHalfHiBits : Fld := ⟨0x0A4, 15, 0⟩
def macCntCount : Fld := ⟨0x100, 31, 0⟩
def macSnapCount : Fld := ⟨0x200, 31, 0⟩
def macFltFrameSize : Fld := ⟨0x010, 10, 10⟩
def macFltFcsStorm : Fld := ⟨0x010, 9, 9⟩
def macFltLinkDown : Fld := ⟨0x010, 8, 8⟩
def macEvtPreVerifyDone : Fld := ⟨0x020, 12, 12⟩
def macEvtModeChange : Fld := ⟨0x020, 11, 11⟩
def macEvtCntHalf : Fld := ⟨0x020, 10, 10⟩
def macEvtLinkDown : Fld := ⟨0x020, 9, 9⟩
def macEvtLinkUp : Fld := ⟨0x020, 8, 8⟩

-- PLK (Table 3.7).
def plkPhyRxPol : Fld := ⟨0x040, 6, 6⟩
def plkPhyTxPol : Fld := ⟨0x040, 5, 5⟩
def plkPhyFec : Fld := ⟨0x040, 3, 2⟩
def plkStatsModeMode : Fld := ⟨0x088, 16, 16⟩
def plkStatsModeRecovWin : Fld := ⟨0x088, 15, 8⟩
def plkStatsModeOverride : Fld := ⟨0x088, 1, 0⟩
def plkCntClrClear : Fld := ⟨0x08C, 0, 0⟩
def plkLink : Fld := ⟨0x090, 3, 0⟩
def plkLinkCfgHoldup : Fld := ⟨0x094, 7, 0⟩
def plkTestPrbsErrors : Fld := ⟨0x098, 31, 16⟩
def plkTestPrbsEn : Fld := ⟨0x098, 2, 2⟩
def plkTestLoopback : Fld := ⟨0x098, 1, 0⟩
def plkCntHalfBits : Fld := ⟨0x0A0, 7, 0⟩
def plkCntCount : Fld := ⟨0x100, 31, 0⟩
def plkSnapCount : Fld := ⟨0x200, 31, 0⟩

-- TSU (Table 4.4).
def tsuFrcLoCount : Fld := ⟨0x040, 31, 0⟩
def tsuFrcHiCount : Fld := ⟨0x044, 31, 0⟩
def tsuNowNsNs : Fld := ⟨0x048, 29, 0⟩
def tsuNowFracFrac : Fld := ⟨0x04C, 15, 0⟩
def tsuNowSecLoSec : Fld := ⟨0x050, 31, 0⟩
def tsuNowSecHiSec : Fld := ⟨0x054, 31, 0⟩
def tsuRateLoRate : Fld := ⟨0x058, 31, 0⟩
def tsuRateHiRate : Fld := ⟨0x05C, 7, 0⟩
def tsuStepSecSec : Fld := ⟨0x060, 31, 0⟩
def tsuStepNsNs : Fld := ⟨0x064, 29, 0⟩
def tsuStepCtrlGo : Fld := ⟨0x068, 31, 31⟩
def tsuStepCtrlFrac : Fld := ⟨0x068, 15, 0⟩
def tsuTcEn : Fld := ⟨0x06C, 0, 0⟩
def tsuRxlatLat : Fld := ⟨0x070, 31, 0⟩
def tsuTxlatLat : Fld := ⟨0x080, 31, 0⟩
def tsuTxtsIdValid : Fld := ⟨0x090, 31, 31⟩
def tsuTxtsIdErr : Fld := ⟨0x090, 30, 30⟩
def tsuTxtsIdNonPtp : Fld := ⟨0x090, 29, 29⟩
def tsuTxtsIdPort : Fld := ⟨0x090, 25, 24⟩
def tsuTxtsIdMsgType : Fld := ⟨0x090, 19, 16⟩
def tsuTxtsIdSeqId : Fld := ⟨0x090, 15, 0⟩
def tsuTxtsNsNs : Fld := ⟨0x094, 29, 0⟩
def tsuTxtsFracFrac : Fld := ⟨0x098, 15, 0⟩
def tsuTxtsSecLoSec : Fld := ⟨0x09C, 31, 0⟩
def tsuTxtsSecHiSec : Fld := ⟨0x0A0, 31, 0⟩
def tsuTxtsCtrlPop : Fld := ⟨0x0A4, 0, 0⟩
def tsuTxtsStatLevel : Fld := ⟨0x0A8, 20, 16⟩
def tsuTxtsStatDropped : Fld := ⟨0x0A8, 15, 0⟩
def tsuTickNumLoTick : Fld := ⟨0x0B0, 31, 0⟩
def tsuTickNumHiTick : Fld := ⟨0x0B4, 15, 0⟩
def tsuTickNsNs : Fld := ⟨0x0B8, 29, 0⟩
def tsuTickFracFrac : Fld := ⟨0x0BC, 15, 0⟩
def tsuTickSecLoSec : Fld := ⟨0x0C0, 31, 0⟩
def tsuTickSecHiSec : Fld := ⟨0x0C4, 31, 0⟩
def tsuPpsinNsNs : Fld := ⟨0x0C8, 29, 0⟩
def tsuPpsinFracFrac : Fld := ⟨0x0CC, 15, 0⟩
def tsuPpsinSecLoSec : Fld := ⟨0x0D0, 31, 0⟩
def tsuPpsinSecHiSec : Fld := ⟨0x0D4, 31, 0⟩
def tsuPpsinCntCount : Fld := ⟨0x0D8, 31, 0⟩
def tsuCntNotsCount : Fld := ⟨0x0E0, 31, 0⟩
def tsuCntTcCount : Fld := ⟨0x0E4, 31, 0⟩
def tsuEvtStepErr : Fld := ⟨0x020, 12, 12⟩
def tsuEvtStepDone : Fld := ⟨0x020, 11, 11⟩
def tsuEvtPpsin : Fld := ⟨0x020, 10, 10⟩
def tsuEvtTxtsDrop : Fld := ⟨0x020, 9, 9⟩
def tsuEvtTxtsAvail : Fld := ⟨0x020, 8, 8⟩

-- TPG (Table 4.5).
def tpgGenCtrlLevel : Fld := ⟨0x040, 9, 9⟩
def tpgGenCtrlActive : Fld := ⟨0x040, 8, 8⟩
def tpgGenCtrlPol : Fld := ⟨0x040, 3, 3⟩
def tpgGenCtrlBase : Fld := ⟨0x040, 2, 2⟩
def tpgGenCtrlPeriodic : Fld := ⟨0x040, 1, 1⟩
def tpgGenCtrlArm : Fld := ⟨0x040, 0, 0⟩
def tpgGenStart0 : Fld := ⟨0x044, 29, 0⟩
def tpgGenStart1 : Fld := ⟨0x048, 31, 0⟩
def tpgGenStart2 : Fld := ⟨0x04C, 31, 0⟩
def tpgGenPeriodPeriod : Fld := ⟨0x050, 31, 0⟩
def tpgGenPeriodFracFrac : Fld := ⟨0x054, 15, 0⟩
def tpgGenWidthWidth : Fld := ⟨0x058, 23, 0⟩
def tpgGenCountCount : Fld := ⟨0x05C, 31, 0⟩
def tpgPpsSelSrc : Fld := ⟨0x140, 3, 0⟩
def tpgEvSelLoSrc : Fld := ⟨0x144, 31, 0⟩
def tpgEvSelHiSrc : Fld := ⟨0x148, 31, 0⟩
def tpgEvtGenSkip : Fld := ⟨0x020, 23, 16⟩
def tpgEvtGenDone : Fld := ⟨0x020, 15, 8⟩

-- REFS (Table 5.4).
def refsCtrlRevertive : Fld := ⟨0x040, 0, 0⟩
def refsWtrSec : Fld := ⟨0x044, 11, 0⟩
def refsQualSec : Fld := ⟨0x048, 7, 0⟩
def refsWinHard : Fld := ⟨0x04C, 31, 16⟩
def refsWinSoft : Fld := ⟨0x04C, 15, 0⟩
def refsDriftMax : Fld := ⟨0x050, 15, 0⟩
def refsRefclkOfsPpb : Fld := ⟨0x054, 31, 0⟩
def refsDpllBw : Fld := ⟨0x058, 25, 16⟩
def refsDpllSlew : Fld := ⟨0x058, 7, 0⟩
def refsLockNs : Fld := ⟨0x05C, 15, 0⟩
def refsPtpTmo : Fld := ⟨0x060, 15, 8⟩
def refsPtpKeepalive : Fld := ⟨0x060, 1, 1⟩
def refsPtpValid : Fld := ⟨0x060, 0, 0⟩
def refsSrcTdmSel : Fld := ⟨0x064, 3, 0⟩
def refsPhstepLoStep : Fld := ⟨0x068, 31, 0⟩
def refsPhstepHiStep : Fld := ⟨0x06C, 7, 0⟩
def refsStatStepPending : Fld := ⟨0x070, 9, 9⟩
def refsStatSwitching : Fld := ⟨0x070, 8, 8⟩
def refsStatDpll : Fld := ⟨0x070, 6, 4⟩
def refsStatSel : Fld := ⟨0x070, 3, 0⟩
def refsPherrErr : Fld := ⟨0x074, 31, 0⟩
def refsFreqPpb : Fld := ⟨0x078, 31, 0⟩
def refsPeerPpb : Fld := ⟨0x07C, 31, 0⟩
def refsLastStepStep : Fld := ⟨0x080, 31, 0⟩
def refsHoldTimeSec : Fld := ⟨0x084, 31, 16⟩
def refsCandCfgPrio : Fld := ⟨0x100, 3, 0⟩
def refsCandStatWtrLeft : Fld := ⟨0x104, 31, 16⟩
def refsCandStatCause : Fld := ⟨0x104, 11, 8⟩
def refsCandStatEligible : Fld := ⟨0x104, 3, 3⟩
def refsCandStatState : Fld := ⟨0x104, 2, 0⟩
def refsCandOfsPpb : Fld := ⟨0x108, 31, 0⟩
def refsCandRatePpbS : Fld := ⟨0x10C, 31, 0⟩
def refsCandPhPh : Fld := ⟨0x110, 31, 0⟩
def refsFltRefDrift : Fld := ⟨0x010, 10, 10⟩
def refsFltHoldover : Fld := ⟨0x010, 9, 9⟩
def refsFltRefDisqual : Fld := ⟨0x010, 8, 8⟩
def refsEvtStepDone : Fld := ⟨0x020, 14, 14⟩
def refsEvtQualified : Fld := ⟨0x020, 13, 13⟩
def refsEvtLocked : Fld := ⟨0x020, 12, 12⟩
def refsEvtDrift : Fld := ⟨0x020, 11, 11⟩
def refsEvtDisqual : Fld := ⟨0x020, 10, 10⟩
def refsEvtHoldover : Fld := ⟨0x020, 9, 9⟩
def refsEvtSelChange : Fld := ⟨0x020, 8, 8⟩

-- MCG (Table 5.5).
def mcgTickLoTick : Fld := ⟨0x040, 31, 0⟩
def mcgTickHiTick : Fld := ⟨0x044, 15, 0⟩
def mcgTickOffsetLoOfs : Fld := ⟨0x048, 31, 0⟩
def mcgTickOffsetHiOfs : Fld := ⟨0x04C, 7, 0⟩
def mcgRealignNumber : Fld := ⟨0x050, 1, 1⟩
def mcgRealignOutputs : Fld := ⟨0x050, 0, 0⟩
def mcgOutOfsOfs : Fld := ⟨0x054, 31, 0⟩
def mcgPtpNerrValid : Fld := ⟨0x058, 16, 16⟩
def mcgPtpNerrErr : Fld := ⟨0x058, 15, 0⟩
def mcgFltSyncSlip : Fld := ⟨0x010, 8, 8⟩
def mcgEvtNumSlip : Fld := ⟨0x020, 10, 10⟩
def mcgEvtAutoRealign : Fld := ⟨0x020, 9, 9⟩
def mcgEvtRealignDone : Fld := ⟨0x020, 8, 8⟩

-- WCK (Table 5.6).
def wckInCfgEdge : Fld := ⟨0x040, 4, 4⟩
def wckInCfgNom : Fld := ⟨0x040, 1, 0⟩
def wckInStatActive : Fld := ⟨0x044, 0, 0⟩
def wckOutCfgPhase : Fld := ⟨0x048, 31, 16⟩
def wckOutCfgPol : Fld := ⟨0x048, 3, 3⟩
def wckOutCfgRate : Fld := ⟨0x048, 2, 1⟩
def wckOutCfgEn : Fld := ⟨0x048, 0, 0⟩
def wckMclkCfgInv : Fld := ⟨0x04C, 4, 4⟩
def wckMclkCfgDiv : Fld := ⟨0x04C, 3, 1⟩
def wckMclkCfgEn : Fld := ⟨0x04C, 0, 0⟩

-- ING0 (Table 6.7).
def ing0W0AshIn : Fld := ⟨0x000, 30, 30⟩
def ing0W0Kind : Fld := ⟨0x000, 29, 28⟩
def ing0W0PortMask : Fld := ⟨0x000, 27, 24⟩
def ing0W0SrcNode : Fld := ⟨0x000, 21, 12⟩
def ing0W0SrcStream : Fld := ⟨0x000, 11, 0⟩
def ing0W1Domain : Fld := ⟨0x004, 31, 30⟩
def ing0W1Fmt : Fld := ⟨0x004, 29, 29⟩
def ing0W1Channels : Fld := ⟨0x004, 22, 16⟩
def ing0W1DueOfs : Fld := ⟨0x004, 12, 10⟩
def ing0W1StripBase : Fld := ⟨0x004, 9, 0⟩
def ing0W2En : Fld := ⟨0x008, 31, 31⟩
def ing0W2Pdl : Fld := ⟨0x008, 23, 16⟩
def ing0W2Cdl : Fld := ⟨0x008, 15, 8⟩
def ing0W3Conceal : Fld := ⟨0x00C, 31, 30⟩
def ing0W3ClaimMode : Fld := ⟨0x00C, 29, 29⟩
def ing0W3Shadow : Fld := ⟨0x00C, 28, 28⟩
def ing0W3Group : Fld := ⟨0x00C, 21, 16⟩
def ing0W4LastSeq : Fld := ⟨0x010, 31, 16⟩
def ing0W4Saf : Fld := ⟨0x010, 3, 3⟩
def ing0W4State : Fld := ⟨0x010, 2, 0⟩
def ing0W5Late : Fld := ⟨0x014, 31, 16⟩
def ing0W5Missed : Fld := ⟨0x014, 15, 0⟩
def ing0W6WinA : Fld := ⟨0x018, 31, 16⟩
def ing0W6WinB : Fld := ⟨0x018, 15, 0⟩
def ing0W7Soot : Fld := ⟨0x01C, 31, 16⟩
def ing0W7Malformed : Fld := ⟨0x01C, 15, 0⟩

-- ING1 (Table 6.8).
def ing1W0Kind : Fld := ⟨0x000, 29, 28⟩
def ing1W0PortMask : Fld := ⟨0x000, 27, 24⟩
def ing1W0JbTicks : Fld := ⟨0x000, 23, 16⟩
def ing1W0UdpPort : Fld := ⟨0x000, 15, 0⟩
def ing1W1DstIp : Fld := ⟨0x004, 31, 0⟩
def ing1W2En : Fld := ⟨0x008, 31, 31⟩
def ing1W3Rate : Fld := ⟨0x00C, 31, 30⟩
def ing1W3L24 : Fld := ⟨0x00C, 29, 29⟩
def ing1W3Ptime : Fld := ⟨0x00C, 28, 27⟩
def ing1W3Chanm1 : Fld := ⟨0x00C, 26, 24⟩
def ing1W3Group : Fld := ⟨0x00C, 21, 16⟩
def ing1W3StripBase : Fld := ⟨0x00C, 9, 0⟩
def ing1W4RtpOfs : Fld := ⟨0x010, 31, 0⟩
def ing1W5LastSeq : Fld := ⟨0x014, 31, 16⟩
def ing1W5JbFill : Fld := ⟨0x014, 15, 0⟩
def ing1W6Late : Fld := ⟨0x018, 31, 16⟩
def ing1W6Underrun : Fld := ⟨0x018, 15, 0⟩
def ing1W7Dup : Fld := ⟨0x01C, 31, 16⟩
def ing1W7Malformed : Fld := ⟨0x01C, 15, 0⟩

-- EGR0 (Table 6.9).
def egr0W0SpecOut : Fld := ⟨0x000, 30, 30⟩
def egr0W0Kind : Fld := ⟨0x000, 29, 28⟩
def egr0W0PortMask : Fld := ⟨0x000, 27, 24⟩
def egr0W0PeerAsh : Fld := ⟨0x000, 23, 23⟩
def egr0W0StripBase : Fld := ⟨0x000, 21, 12⟩
def egr0W0StreamId : Fld := ⟨0x000, 11, 0⟩
def egr0W1DstMacLo : Fld := ⟨0x004, 31, 0⟩
def egr0W2Domain : Fld := ⟨0x008, 31, 30⟩
def egr0W2Fmt : Fld := ⟨0x008, 29, 29⟩
def egr0W2Segsm1 : Fld := ⟨0x008, 27, 26⟩
def egr0W2Channels : Fld := ⟨0x008, 22, 16⟩
def egr0W2DstMacHi : Fld := ⟨0x008, 15, 0⟩
def egr0W3En : Fld := ⟨0x00C, 31, 31⟩
def egr0W4NextSeq : Fld := ⟨0x010, 15, 0⟩
def egr0W5TxMedia : Fld := ⟨0x014, 31, 0⟩
def egr0W6Retracted : Fld := ⟨0x018, 31, 16⟩
def egr0W6Corrections : Fld := ⟨0x018, 15, 0⟩
def egr0W7Stomped : Fld := ⟨0x01C, 31, 16⟩

-- EGR1 (Table 6.10).
def egr1W0Ct : Fld := ⟨0x000, 31, 31⟩
def egr1W0Kind : Fld := ⟨0x000, 29, 28⟩
def egr1W0PortMask : Fld := ⟨0x000, 27, 24⟩
def egr1W0UdpDst : Fld := ⟨0x000, 15, 0⟩
def egr1W1DstIp : Fld := ⟨0x004, 31, 0⟩
def egr1W2Rate : Fld := ⟨0x008, 31, 30⟩
def egr1W2L24 : Fld := ⟨0x008, 29, 29⟩
def egr1W2Ptime : Fld := ⟨0x008, 28, 27⟩
def egr1W2Chanm1 : Fld := ⟨0x008, 26, 24⟩
def egr1W2Dscp : Fld := ⟨0x008, 23, 18⟩
def egr1W2Pt : Fld := ⟨0x008, 16, 10⟩
def egr1W2StripBase : Fld := ⟨0x008, 9, 0⟩
def egr1W3En : Fld := ⟨0x00C, 31, 31⟩
def egr1W4RtpOfs : Fld := ⟨0x010, 31, 0⟩
def egr1W5Ssrc : Fld := ⟨0x014, 31, 0⟩
def egr1W6Ttl : Fld := ⟨0x018, 31, 24⟩
def egr1W6DstMacHi : Fld := ⟨0x018, 15, 0⟩
def egr1W7DstMacLo : Fld := ⟨0x01C, 31, 0⟩

-- STRG (Table 6.11).
def strgCfgEtype : Fld := ⟨0x040, 31, 16⟩
def strgCfgAshAccept : Fld := ⟨0x040, 0, 0⟩
def strgNodeNodeId : Fld := ⟨0x044, 9, 0⟩
def strgIpAddr : Fld := ⟨0x048, 31, 0⟩
def strgLockstepLoGrp : Fld := ⟨0x04C, 31, 1⟩
def strgLockstepHiGrp : Fld := ⟨0x050, 31, 0⟩
def strgLateThresh : Fld := ⟨0x054, 15, 0⟩
def strgCntUnmatchedCount : Fld := ⟨0x058, 31, 0⟩
def strgCntMalformedCount : Fld := ⟨0x05C, 31, 0⟩
def strgCntPoolDropCount : Fld := ⟨0x060, 31, 0⟩
def strgActIngAes67 : Fld := ⟨0x064, 24, 16⟩
def strgActIngTotal : Fld := ⟨0x064, 9, 0⟩
def strgActEgrAes67 : Fld := ⟨0x068, 24, 16⟩
def strgActEgrTotal : Fld := ⟨0x068, 9, 0⟩
def strgFltStreamLate : Fld := ⟨0x010, 8, 8⟩
def strgEvtCtxFaded : Fld := ⟨0x020, 9, 9⟩
def strgEvtCtxStart : Fld := ⟨0x020, 8, 8⟩

-- SPX (Table 7.4).
def spxCfgHold : Fld := ⟨0x040, 31, 16⟩
def spxCfgPredEn : Fld := ⟨0x040, 2, 2⟩
def spxCfgCutEn : Fld := ⟨0x040, 1, 1⟩
def spxReserveCycles : Fld := ⟨0x044, 13, 0⟩
def spxStatConeBusy : Fld := ⟨0x048, 16, 16⟩
def spxStatHeld : Fld := ⟨0x048, 9, 0⟩
def spxLedgerMinTile : Fld := ⟨0x04C, 29, 24⟩
def spxLedgerMinCycles : Fld := ⟨0x04C, 13, 0⟩
def spxLastAbortTick : Fld := ⟨0x050, 31, 16⟩
def spxLastAbortCtx : Fld := ⟨0x050, 8, 0⟩
def spxCntAdmitCount : Fld := ⟨0x060, 31, 0⟩
def spxCntPredCount : Fld := ⟨0x064, 31, 0⟩
def spxCntSootCount : Fld := ⟨0x068, 31, 0⟩
def spxCntRerunCount : Fld := ⟨0x06C, 31, 0⟩
def spxCntRefusedCount : Fld := ⟨0x070, 31, 0⟩
def spxCntConcealCount : Fld := ⟨0x074, 31, 0⟩
def spxCntRetractCount : Fld := ⟨0x078, 31, 0⟩
def spxCntAbortCount : Fld := ⟨0x07C, 31, 0⟩
def spxSafMap : Fld := ⟨0x080, 31, 0⟩
def spxSafEndGo : Fld := ⟨0x0C0, 31, 31⟩
def spxSafEndCtx : Fld := ⟨0x0C0, 8, 0⟩
def spxFltRetractMiss : Fld := ⟨0x010, 9, 9⟩
def spxFltStreamAbort : Fld := ⟨0x010, 8, 8⟩
def spxEvtConeReady : Fld := ⟨0x020, 10, 10⟩
def spxEvtSafExit : Fld := ⟨0x020, 9, 9⟩
def spxEvtSafEnter : Fld := ⟨0x020, 8, 8⟩

-- LATG (Table 8.7).
def latgImgBaseOfs : Fld := ⟨0x040, 22, 0⟩
def latgCheckGo : Fld := ⟨0x044, 31, 31⟩
def latgCheckBusy : Fld := ⟨0x044, 30, 30⟩
def latgCheckValid : Fld := ⟨0x044, 29, 29⟩
def latgCheckResult : Fld := ⟨0x044, 27, 24⟩
def latgCheckTile : Fld := ⟨0x044, 21, 16⟩
def latgCheckTask : Fld := ⟨0x044, 9, 0⟩
def latgActBaseOfs : Fld := ⟨0x048, 22, 0⟩
def latgActIdId : Fld := ⟨0x04C, 31, 0⟩
def latgStgIdId : Fld := ⟨0x050, 31, 0⟩
def latgStageConeReady : Fld := ⟨0x054, 2, 2⟩
def latgStagePreloadDone : Fld := ⟨0x054, 1, 1⟩
def latgStageReady : Fld := ⟨0x054, 0, 0⟩
def latgTickCycCycles : Fld := ⟨0x058, 15, 0⟩
def latgTickCycMinCycles : Fld := ⟨0x05C, 15, 0⟩
def latgPlanMaxTile : Fld := ⟨0x060, 29, 24⟩
def latgPlanMaxCycles : Fld := ⟨0x060, 15, 0⟩
def latgOutDomIndigo : Fld := ⟨0x064, 24, 16⟩
def latgOutDomOchre : Fld := ⟨0x064, 8, 0⟩
def latgRingMaxFlits : Fld := ⟨0x068, 15, 0⟩
def latgCntOverrunCount : Fld := ⟨0x06C, 31, 0⟩
def latgCntSwapCount : Fld := ⟨0x070, 31, 0⟩
def latgEvtOverrun : Fld := ⟨0x020, 9, 9⟩
def latgEvtCheckDone : Fld := ⟨0x020, 8, 8⟩

-- TILE (Table 8.8).
def tileCycLastCycles : Fld := ⟨0x040, 15, 0⟩
def tileCycMaxCycles : Fld := ⟨0x044, 15, 0⟩
def tileRerunCount : Fld := ⟨0x048, 31, 16⟩
def tileRerunCycles : Fld := ⟨0x048, 15, 0⟩
def tileTasksListed : Fld := ⟨0x04C, 26, 16⟩
def tileTasksDone : Fld := ⟨0x04C, 10, 0⟩
def tileOverbudgetCount : Fld := ⟨0x050, 31, 0⟩
def tileMemBytes : Fld := ⟨0x054, 17, 0⟩
def tileEccUncorr : Fld := ⟨0x058, 31, 16⟩
def tileEccCorr : Fld := ⟨0x058, 15, 0⟩
def tileBistFail : Fld := ⟨0x05C, 31, 31⟩
def tileBistBusy : Fld := ⟨0x05C, 30, 30⟩
def tileBistPasses : Fld := ⟨0x05C, 23, 8⟩
def tileBistMode : Fld := ⟨0x05C, 1, 0⟩
def tileFltEccUncorr : Fld := ⟨0x010, 10, 10⟩
def tileFltEccCorr : Fld := ⟨0x010, 9, 9⟩
def tileFltOverrun : Fld := ⟨0x010, 8, 8⟩
def tileEvtBistFail : Fld := ⟨0x020, 9, 9⟩
def tileEvtBistDone : Fld := ⟨0x020, 8, 8⟩

-- TDM (Table 10.5).
def tdmCfgGroup : Fld := ⟨0x040, 31, 26⟩
def tdmCfgAsrc : Fld := ⟨0x040, 25, 25⟩
def tdmCfgTxIdle : Fld := ⟨0x040, 24, 24⟩
def tdmCfgFsMode : Fld := ⟨0x040, 23, 23⟩
def tdmCfgFsPol : Fld := ⟨0x040, 22, 22⟩
def tdmCfgBclkPol : Fld := ⟨0x040, 21, 21⟩
def tdmCfgOffset : Fld := ⟨0x040, 20, 16⟩
def tdmCfgSlots : Fld := ⟨0x040, 12, 8⟩
def tdmCfgWidth : Fld := ⟨0x040, 7, 6⟩
def tdmCfgRate : Fld := ⟨0x040, 5, 4⟩
def tdmCfgFrameLen : Fld := ⟨0x040, 3, 1⟩
def tdmCfgMaster : Fld := ⟨0x040, 0, 0⟩
def tdmRxRxEn : Fld := ⟨0x044, 31, 31⟩
def tdmRxSlack : Fld := ⟨0x044, 19, 16⟩
def tdmRxRxBase : Fld := ⟨0x044, 9, 0⟩
def tdmRxMaskSlots : Fld := ⟨0x048, 31, 0⟩
def tdmTxTxEn : Fld := ⟨0x04C, 31, 31⟩
def tdmTxSlack : Fld := ⟨0x04C, 19, 16⟩
def tdmTxTxBase : Fld := ⟨0x04C, 9, 0⟩
def tdmTxMaskSlots : Fld := ⟨0x050, 31, 0⟩
def tdmStatTxFill : Fld := ⟨0x054, 29, 24⟩
def tdmStatRxFill : Fld := ⟨0x054, 21, 16⟩
def tdmStatAutoDis : Fld := ⟨0x054, 9, 9⟩
def tdmStatBclkPresent : Fld := ⟨0x054, 8, 8⟩
def tdmStatTxState : Fld := ⟨0x054, 6, 4⟩
def tdmStatRxState : Fld := ⟨0x054, 2, 0⟩
def tdmMeasHz : Fld := ⟨0x058, 17, 0⟩
def tdmCntUnderRx : Fld := ⟨0x060, 31, 16⟩
def tdmCntUnderTx : Fld := ⟨0x060, 15, 0⟩
def tdmCntOverRx : Fld := ⟨0x064, 31, 16⟩
def tdmCntOverTx : Fld := ⟨0x064, 15, 0⟩
def tdmCntClkSlip : Fld := ⟨0x068, 31, 16⟩
def tdmCntClkLoss : Fld := ⟨0x068, 15, 0⟩
def tdmFltSyncSlip : Fld := ⟨0x010, 11, 11⟩
def tdmFltClkLoss : Fld := ⟨0x010, 10, 10⟩
def tdmFltOverrun : Fld := ⟨0x010, 9, 9⟩
def tdmFltUnderrun : Fld := ⟨0x010, 8, 8⟩
def tdmEvtAutoDis : Fld := ⟨0x020, 12, 12⟩
def tdmEvtTxFill : Fld := ⟨0x020, 11, 11⟩
def tdmEvtTxRun : Fld := ⟨0x020, 10, 10⟩
def tdmEvtRxFade : Fld := ⟨0x020, 9, 9⟩
def tdmEvtRxRun : Fld := ⟨0x020, 8, 8⟩

-- AESI (Table 10.6).
def aesiCfgGroup : Fld := ⟨0x040, 29, 24⟩
def aesiCfgBEn : Fld := ⟨0x040, 20, 20⟩
def aesiCfgAEn : Fld := ⟨0x040, 19, 19⟩
def aesiCfgCsCrcChk : Fld := ⟨0x040, 18, 18⟩
def aesiCfgVBad : Fld := ⟨0x040, 17, 17⟩
def aesiCfgMode : Fld := ⟨0x040, 16, 16⟩
def aesiCfgSlack : Fld := ⟨0x040, 15, 12⟩
def aesiCfgStripBase : Fld := ⟨0x040, 9, 0⟩
def aesiStatNom : Fld := ⟨0x044, 25, 24⟩
def aesiStatAutoDis : Fld := ⟨0x044, 22, 22⟩
def aesiStatFill : Fld := ⟨0x044, 21, 16⟩
def aesiStatCsSeq : Fld := ⟨0x044, 15, 8⟩
def aesiStatDarsGrade : Fld := ⟨0x044, 7, 6⟩
def aesiStatCsOkB : Fld := ⟨0x044, 5, 5⟩
def aesiStatCsOkA : Fld := ⟨0x044, 4, 4⟩
def aesiStatState : Fld := ⟨0x044, 3, 1⟩
def aesiStatLock : Fld := ⟨0x044, 0, 0⟩
def aesiRateHz : Fld := ⟨0x048, 17, 0⟩
def aesiCsA : Fld := ⟨0x050, 31, 0⟩
def aesiCsB : Fld := ⟨0x068, 31, 0⟩
def aesiUA : Fld := ⟨0x080, 31, 0⟩
def aesiUB : Fld := ⟨0x098, 31, 0⟩
def aesiCntErrParity : Fld := ⟨0x0B0, 31, 16⟩
def aesiCntErrBiphase : Fld := ⟨0x0B0, 15, 0⟩
def aesiCntCsCrcc : Fld := ⟨0x0B4, 31, 16⟩
def aesiCntCsBlockSlip : Fld := ⟨0x0B4, 15, 0⟩
def aesiCntFifoUnderrun : Fld := ⟨0x0B8, 31, 16⟩
def aesiCntFifoOverrun : Fld := ⟨0x0B8, 15, 0⟩
def aesiCntLockVFrames : Fld := ⟨0x0BC, 31, 16⟩
def aesiCntLockLoss : Fld := ⟨0x0BC, 15, 0⟩
def aesiFltClkLoss : Fld := ⟨0x010, 10, 10⟩
def aesiFltOverrun : Fld := ⟨0x010, 9, 9⟩
def aesiFltUnderrun : Fld := ⟨0x010, 8, 8⟩
def aesiEvtRxFade : Fld := ⟨0x020, 12, 12⟩
def aesiEvtRxRun : Fld := ⟨0x020, 11, 11⟩
def aesiEvtCsChange : Fld := ⟨0x020, 10, 10⟩
def aesiEvtUnlock : Fld := ⟨0x020, 9, 9⟩
def aesiEvtLock : Fld := ⟨0x020, 8, 8⟩

-- AESO (Table 10.7).
def aesoCfgSlack : Fld := ⟨0x040, 15, 12⟩
def aesoCfgUEn : Fld := ⟨0x040, 8, 8⟩
def aesoCfgVAuto : Fld := ⟨0x040, 7, 7⟩
def aesoCfgCrccGen : Fld := ⟨0x040, 6, 6⟩
def aesoCfgFollow : Fld := ⟨0x040, 5, 4⟩
def aesoCfgRate : Fld := ⟨0x040, 3, 2⟩
def aesoCfgRateSrc : Fld := ⟨0x040, 1, 0⟩
def aesoSrcBEn : Fld := ⟨0x044, 31, 31⟩
def aesoSrcAEn : Fld := ⟨0x044, 30, 30⟩
def aesoSrcBStrip : Fld := ⟨0x044, 25, 16⟩
def aesoSrcAStrip : Fld := ⟨0x044, 9, 0⟩
def aesoNcoHz : Fld := ⟨0x048, 17, 0⟩
def aesoCs : Fld := ⟨0x050, 31, 0⟩
def aesoU : Fld := ⟨0x068, 31, 0⟩
def aesoStatAutoDis : Fld := ⟨0x080, 14, 14⟩
def aesoStatFill : Fld := ⟨0x080, 13, 8⟩
def aesoStatState : Fld := ⟨0x080, 2, 0⟩
def aesoRateHz : Fld := ⟨0x084, 17, 0⟩
def aesoCntFifoUnderrun : Fld := ⟨0x088, 31, 16⟩
def aesoCntFifoOverrun : Fld := ⟨0x088, 15, 0⟩
def aesoFltOverrun : Fld := ⟨0x010, 9, 9⟩
def aesoFltUnderrun : Fld := ⟨0x010, 8, 8⟩
def aesoEvtCsSent : Fld := ⟨0x020, 10, 10⟩
def aesoEvtTxFill : Fld := ⟨0x020, 9, 9⟩
def aesoEvtTxRun : Fld := ⟨0x020, 8, 8⟩

-- ASRC (Table 10.8).
def asrcStatLocked : Fld := ⟨0x040, 14, 8⟩
def asrcStatEnabled : Fld := ⟨0x040, 6, 0⟩
def asrcChCfgDir : Fld := ⟨0x100, 30, 30⟩
def asrcChCfgKind : Fld := ⟨0x100, 29, 28⟩
def asrcChCfgPort : Fld := ⟨0x100, 27, 24⟩
def asrcChCfgSlot : Fld := ⟨0x100, 20, 16⟩
def asrcChCfgDomain : Fld := ⟨0x100, 15, 14⟩
def asrcChCfgStrip : Fld := ⟨0x100, 9, 0⟩
def asrcChEnEn : Fld := ⟨0x104, 31, 31⟩
def asrcChStatState : Fld := ⟨0x108, 30, 28⟩
def asrcChStatRatio : Fld := ⟨0x108, 23, 0⟩
def asrcEvtUnlock : Fld := ⟨0x020, 9, 9⟩
def asrcEvtLock : Fld := ⟨0x020, 8, 8⟩

-- DRV (Table 11.4).
def drvCfgPrechg : Fld := ⟨0x040, 31, 28⟩
def drvCfgOcFilt : Fld := ⟨0x040, 27, 24⟩
def drvCfgDt : Fld := ⟨0x040, 21, 16⟩
def drvCfgCarrier : Fld := ⟨0x040, 13, 12⟩
def drvCfgStrip : Fld := ⟨0x040, 9, 0⟩
def drvModFfEn : Fld := ⟨0x044, 16, 16⟩
def drvModModMax : Fld := ⟨0x044, 15, 0⟩
def drvFfRailNom : Fld := ⟨0x048, 31, 16⟩
def drvFfFsV : Fld := ⟨0x048, 15, 0⟩
def drvShortZRatio : Fld := ⟨0x04C, 31, 16⟩
def drvShortIShort : Fld := ⟨0x04C, 15, 0⟩
def drvProtShortLatch : Fld := ⟨0x050, 18, 18⟩
def drvProtShortEn : Fld := ⟨0x050, 17, 17⟩
def drvProtDcEn : Fld := ⟨0x050, 16, 16⟩
def drvProtDcMax : Fld := ⟨0x050, 15, 0⟩
def drvRetryClr : Fld := ⟨0x054, 31, 24⟩
def drvRetryRetries : Fld := ⟨0x054, 19, 16⟩
def drvRetryMs : Fld := ⟨0x054, 15, 0⟩
def drvCtrlUnlatch : Fld := ⟨0x058, 0, 0⟩
def drvStatTrips : Fld := ⟨0x060, 20, 16⟩
def drvStatSafeOut : Fld := ⟨0x060, 15, 15⟩
def drvStatFfFallback : Fld := ⟨0x060, 14, 14⟩
def drvStatSafePin : Fld := ⟨0x060, 13, 13⟩
def drvStatOcPin : Fld := ⟨0x060, 12, 12⟩
def drvStatCause : Fld := ⟨0x060, 7, 4⟩
def drvStatState : Fld := ⟨0x060, 2, 0⟩
def drvTimerMs : Fld := ⟨0x064, 15, 0⟩
def drvModLastM : Fld := ⟨0x068, 31, 0⟩
def drvRailCode : Fld := ⟨0x06C, 15, 0⟩
def drvCntOcCount : Fld := ⟨0x070, 31, 0⟩
def drvCntClipMod : Fld := ⟨0x074, 31, 16⟩
def drvCntClipWidth : Fld := ⟨0x074, 15, 0⟩
def drvCntUnderCount : Fld := ⟨0x078, 31, 0⟩
def drvFltUnderrun : Fld := ⟨0x010, 11, 11⟩
def drvFltDcOffset : Fld := ⟨0x010, 10, 10⟩
def drvFltShort : Fld := ⟨0x010, 9, 9⟩
def drvFltOcp : Fld := ⟨0x010, 8, 8⟩
def drvEvtRetry : Fld := ⟨0x020, 11, 11⟩
def drvEvtRun : Fld := ⟨0x020, 10, 10⟩
def drvEvtLatched : Fld := ⟨0x020, 9, 9⟩
def drvEvtTrip : Fld := ⟨0x020, 8, 8⟩

-- BST (Table 11.5).
def bstCfgMask : Fld := ⟨0x040, 27, 24⟩
def bstCfgLa : Fld := ⟨0x040, 20, 16⟩
def bstCfgDmax : Fld := ⟨0x040, 15, 8⟩
def bstCfgFreq : Fld := ⟨0x040, 1, 0⟩
def bstTgtDecay : Fld := ⟨0x044, 31, 16⟩
def bstTgtHead : Fld := ⟨0x044, 15, 0⟩
def bstLimRailMax : Fld := ⟨0x048, 31, 16⟩
def bstLimRailMin : Fld := ⟨0x048, 15, 0⟩
def bstOvHold : Fld := ⟨0x04C, 23, 16⟩
def bstOvRailOv : Fld := ⟨0x04C, 15, 0⟩
def bstLoopKi : Fld := ⟨0x050, 31, 16⟩
def bstLoopKp : Fld := ⟨0x050, 15, 0⟩
def bstThermTTrip : Fld := ⟨0x054, 31, 16⟩
def bstThermTWarn : Fld := ⟨0x054, 15, 0⟩
def bstStatTg : Fld := ⟨0x060, 31, 16⟩
def bstStatState : Fld := ⟨0x060, 2, 0⟩
def bstRailDuty : Fld := ⟨0x064, 31, 16⟩
def bstRailCode : Fld := ⟨0x064, 15, 0⟩
def bstCntIlim : Fld := ⟨0x068, 31, 16⟩
def bstCntLate : Fld := ⟨0x068, 15, 0⟩
def bstCntOvpCount : Fld := ⟨0x06C, 15, 0⟩
def bstFltThermal : Fld := ⟨0x010, 9, 9⟩
def bstFltRailOv : Fld := ⟨0x010, 8, 8⟩
def bstEvtThermWarn : Fld := ⟨0x020, 11, 11⟩
def bstEvtHold : Fld := ⟨0x020, 10, 10⟩
def bstEvtOvpExit : Fld := ⟨0x020, 9, 9⟩
def bstEvtOvpEnter : Fld := ⟨0x020, 8, 8⟩

-- SNS (Table 12.5).
def snsCfgFsDly : Fld := ⟨0x040, 2, 2⟩
def snsCfgBclkPol : Fld := ⟨0x040, 1, 1⟩
def snsStatBclkPresent : Fld := ⟨0x044, 8, 8⟩
def snsStatState : Fld := ⟨0x044, 1, 0⟩
def snsScaleVlUv : Fld := ⟨0x048, 31, 0⟩
def snsScaleIlUa : Fld := ⟨0x04C, 31, 0⟩
def snsScaleVrUv : Fld := ⟨0x050, 31, 0⟩
def snsScaleIrUa : Fld := ⟨0x054, 31, 0⟩
def snsScaleTMc : Fld := ⟨0x058, 15, 0⟩
def snsTempOfsMc : Fld := ⟨0x05C, 31, 0⟩
def snsSlot : Fld := ⟨0x060, 31, 0⟩
def snsFramesCount : Fld := ⟨0x090, 31, 0⟩
def snsCntSlip : Fld := ⟨0x094, 31, 16⟩
def snsCntLoss : Fld := ⟨0x094, 15, 0⟩
def snsFltSyncSlip : Fld := ⟨0x010, 9, 9⟩
def snsFltClkLoss : Fld := ⟨0x010, 8, 8⟩
def snsEvtLost : Fld := ⟨0x020, 9, 9⟩
def snsEvtRun : Fld := ⟨0x020, 8, 8⟩

-- MEA (Table 12.6).
def meaCapCtrlGo : Fld := ⟨0x040, 31, 31⟩
def meaCapCtrlStop : Fld := ⟨0x040, 30, 30⟩
def meaCapCtrlAtTick : Fld := ⟨0x040, 3, 3⟩
def meaCapCtrlTrigFault : Fld := ⟨0x040, 2, 2⟩
def meaCapCtrlMode : Fld := ⟨0x040, 1, 0⟩
def meaCapLenTicks : Fld := ⟨0x044, 15, 0⟩
def meaCapPostTicks : Fld := ⟨0x048, 15, 0⟩
def meaCapTickLoTick : Fld := ⟨0x04C, 31, 0⟩
def meaCapTickHiTick : Fld := ⟨0x050, 15, 0⟩
def meaCapStatRbytes : Fld := ⟨0x054, 26, 16⟩
def meaCapStatWrapped : Fld := ⟨0x054, 3, 3⟩
def meaCapStatTriggered : Fld := ⟨0x054, 2, 2⟩
def meaCapStatDone : Fld := ⟨0x054, 1, 1⟩
def meaCapStatBusy : Fld := ⟨0x054, 0, 0⟩
def meaCapFirstLoTick : Fld := ⟨0x058, 31, 0⟩
def meaCapFirstHiTick : Fld := ⟨0x05C, 15, 0⟩
def meaCapWptrHeld : Fld := ⟨0x060, 31, 16⟩
def meaCapWptrNext : Fld := ⟨0x060, 15, 0⟩
def meaCntGapCount : Fld := ⟨0x064, 31, 0⟩
def meaExpEnEn : Fld := ⟨0x068, 7, 0⟩
def meaTapEn : Fld := ⟨0x080, 31, 31⟩
def meaTapKind : Fld := ⟨0x080, 30, 30⟩
def meaTapStrip : Fld := ⟨0x080, 9, 0⟩
def meaExpCfgKind : Fld := ⟨0x100, 30, 30⟩
def meaExpCfgStrip : Fld := ⟨0x100, 25, 16⟩
def meaExpCfgWeight : Fld := ⟨0x100, 13, 12⟩
def meaExpCfgWin : Fld := ⟨0x100, 11, 0⟩
def meaExpCoefOfs : Fld := ⟨0x104, 22, 0⟩
def meaExpLimitL : Fld := ⟨0x108, 31, 0⟩
def meaExpMsMs : Fld := ⟨0x10C, 31, 0⟩
def meaExpLL : Fld := ⟨0x110, 31, 0⟩
def meaExpSecS : Fld := ⟨0x114, 31, 0⟩
def meaExpLastE : Fld := ⟨0x118, 31, 0⟩
def meaExpGapCount : Fld := ⟨0x11C, 31, 0⟩
def meaEvtExpLimit : Fld := ⟨0x020, 23, 16⟩
def meaEvtExpSecond : Fld := ⟨0x020, 10, 10⟩
def meaEvtCapTrig : Fld := ⟨0x020, 9, 9⟩
def meaEvtCapDone : Fld := ⟨0x020, 8, 8⟩

-- DIAG (Table 12.7).
def diagCtrlGo : Fld := ⟨0x040, 31, 31⟩
def diagCtrlAbort : Fld := ⟨0x040, 30, 30⟩
def diagCtrlChMask : Fld := ⟨0x040, 15, 0⟩
def diagStepSettle : Fld := ⟨0x044, 31, 16⟩
def diagStepMeas : Fld := ⟨0x044, 15, 0⟩
def diagLevelDcD : Fld := ⟨0x048, 31, 0⟩
def diagLevelAcD : Fld := ⟨0x04C, 31, 0⟩
def diagTonesDcEn : Fld := ⟨0x050, 16, 16⟩
def diagTonesHfIdx : Fld := ⟨0x050, 10, 8⟩
def diagTonesLfIdx : Fld := ⟨0x050, 6, 4⟩
def diagTonesNt : Fld := ⟨0x050, 3, 0⟩
def diagFreq : Fld := ⟨0x054, 31, 0⟩
def diagZlimShortMohm : Fld := ⟨0x064, 31, 0⟩
def diagZlimOpenMohm : Fld := ⟨0x068, 31, 0⟩
def diagRatioIMin : Fld := ⟨0x06C, 31, 16⟩
def diagRatioHfRatio : Fld := ⟨0x06C, 15, 0⟩
def diagPilotEnMask : Fld := ⟨0x070, 15, 0⟩
def diagPilotFreqTol : Fld := ⟨0x074, 23, 16⟩
def diagPilotFreqHz : Fld := ⟨0x074, 15, 0⟩
def diagPilotAmpD : Fld := ⟨0x078, 31, 0⟩
def diagPilotWinCapture : Fld := ⟨0x07C, 31, 31⟩
def diagPilotWinTicks : Fld := ⟨0x07C, 15, 0⟩
def diagStatBusy : Fld := ⟨0x080, 31, 31⟩
def diagStatStep : Fld := ⟨0x080, 27, 24⟩
def diagStatLeft : Fld := ⟨0x080, 20, 0⟩
def diagChResSeq : Fld := ⟨0x200, 31, 24⟩
def diagChResPilotClass : Fld := ⟨0x200, 14, 12⟩
def diagChResResult : Fld := ⟨0x200, 7, 4⟩
def diagChResClass : Fld := ⟨0x200, 2, 0⟩
def diagChRdcMohm : Fld := ⟨0x204, 31, 0⟩
def diagChZ : Fld := ⟨0x208, 31, 0⟩
def diagChPh : Fld := ⟨0x228, 31, 0⟩
def diagChPilotZMohm : Fld := ⟨0x238, 31, 0⟩
def diagChPilotRefMohm : Fld := ⟨0x23C, 31, 0⟩
def diagFltOpen : Fld := ⟨0x010, 8, 8⟩
def diagEvtPilotChange : Fld := ⟨0x020, 10, 10⟩
def diagEvtSweepStart : Fld := ⟨0x020, 9, 9⟩
def diagEvtSweepDone : Fld := ⟨0x020, 8, 8⟩

-- QDESC (Table 13.1).
def qdescW0En : Fld := ⟨0x000, 31, 31⟩
def qdescW0Flush : Fld := ⟨0x000, 30, 30⟩
def qdescW0FlushPend : Fld := ⟨0x000, 29, 29⟩
def qdescW0Held : Fld := ⟨0x000, 28, 28⟩
def qdescW0High : Fld := ⟨0x000, 27, 27⟩
def qdescW0Broken : Fld := ⟨0x000, 26, 26⟩
def qdescW0Bind : Fld := ⟨0x000, 25, 24⟩
def qdescW1EmptyMode : Fld := ⟨0x004, 31, 31⟩
def qdescW1Limit : Fld := ⟨0x004, 15, 0⟩
def qdescW2ThrEn : Fld := ⟨0x008, 31, 31⟩
def qdescW2StallTmo : Fld := ⟨0x008, 30, 16⟩
def qdescW2Thresh : Fld := ⟨0x008, 15, 0⟩
def qdescW3Cells : Fld := ⟨0x00C, 31, 16⟩
def qdescW3Items : Fld := ⟨0x00C, 15, 0⟩

-- QMG (Table 13.4).
def qmgPoolFreeCells : Fld := ⟨0x040, 16, 0⟩
def qmgPoolMinCells : Fld := ⟨0x044, 16, 0⟩
def qmgRsvInternal : Fld := ⟨0x048, 16, 0⟩
def qmgIntUsedCells : Fld := ⟨0x04C, 16, 0⟩
def qmgItemTmoUs : Fld := ⟨0x050, 15, 0⟩
def qmgLostCells : Fld := ⟨0x054, 16, 0⟩
def qmgPushQQueue : Fld := ⟨0x060, 9, 0⟩
def qmgPushAbortGo : Fld := ⟨0x064, 0, 0⟩
def qmgPushStatOpen : Fld := ⟨0x068, 31, 31⟩
def qmgPushStatResult : Fld := ⟨0x068, 27, 24⟩
def qmgPushStatQueue : Fld := ⟨0x068, 21, 12⟩
def qmgPushStatWords : Fld := ⟨0x068, 11, 0⟩
def qmgPopQQueue : Fld := ⟨0x070, 9, 0⟩
def qmgLastRefuseQueue : Fld := ⟨0x074, 25, 16⟩
def qmgLastRefuseCause : Fld := ⟨0x074, 3, 0⟩
def qmgCntRefusedCount : Fld := ⟨0x080, 31, 0⟩
def qmgCntAbandonCount : Fld := ⟨0x084, 31, 0⟩
def qmgCntFlushedCount : Fld := ⟨0x088, 31, 0⟩
def qmgCntTimeoutCount : Fld := ⟨0x08C, 31, 0⟩
def qmgThrMap : Fld := ⟨0x100, 31, 0⟩
def qmgPopWindow : Fld := ⟨0x200, 31, 0⟩
def qmgPushWindow : Fld := ⟨0x400, 31, 0⟩
def qmgFltEccUncorr : Fld := ⟨0x010, 9, 9⟩
def qmgFltEccCorr : Fld := ⟨0x010, 8, 8⟩
def qmgEvtRefused : Fld := ⟨0x020, 10, 10⟩
def qmgEvtFlushDone : Fld := ⟨0x020, 9, 9⟩
def qmgEvtThresh : Fld := ⟨0x020, 8, 8⟩

-- MEM (Table 14.6).
def memCfgScrubEn : Fld := ⟨0x040, 31, 31⟩
def memCfgScrubRate : Fld := ⟨0x040, 23, 16⟩
def memCfgBistMode : Fld := ⟨0x040, 1, 0⟩
def memStatInitDone : Fld := ⟨0x044, 31, 31⟩
def memStatBistBusy : Fld := ⟨0x044, 30, 30⟩
def memStatBistPhase : Fld := ⟨0x044, 29, 28⟩
def memStatBistFail : Fld := ⟨0x044, 27, 27⟩
def memStatBistPasses : Fld := ⟨0x044, 15, 0⟩
def memBistWinOfs : Fld := ⟨0x048, 25, 0⟩
def memScrubPassCount : Fld := ⟨0x04C, 31, 0⟩
def memEccUncorr : Fld := ⟨0x050, 31, 16⟩
def memEccCorr : Fld := ⟨0x050, 15, 0⟩
def memLastErrAddr : Fld := ⟨0x054, 31, 0⟩
def memCollCount : Fld := ⟨0x058, 31, 0⟩
def memConflictBWins : Fld := ⟨0x05C, 31, 16⟩
def memConflictBStalls : Fld := ⟨0x05C, 15, 0⟩
def memBistFailAddrAddr : Fld := ⟨0x060, 31, 0⟩
def memFltBistFail : Fld := ⟨0x010, 10, 10⟩
def memFltEccUncorr : Fld := ⟨0x010, 9, 9⟩
def memFltEccCorr : Fld := ⟨0x010, 8, 8⟩
def memEvtBistPass : Fld := ⟨0x020, 9, 9⟩
def memEvtScrubPass : Fld := ⟨0x020, 8, 8⟩

-- SEC (Table 14.7).
def secStatWiping : Fld := ⟨0x040, 31, 31⟩
def secStatSealOk : Fld := ⟨0x040, 30, 30⟩
def secStatKeysUsable : Fld := ⟨0x040, 29, 29⟩
def secStatSealBusy : Fld := ⟨0x040, 28, 28⟩
def secStatLastWipeCause : Fld := ⟨0x040, 27, 24⟩
def secCtrlSeal : Fld := ⟨0x044, 1, 1⟩
def secCtrlWipe : Fld := ⟨0x044, 0, 0⟩
def secSealCrc : Fld := ⟨0x048, 31, 0⟩
def secWipesCount : Fld := ⟨0x04C, 15, 0⟩
def secEvtSealBad : Fld := ⟨0x020, 10, 10⟩
def secEvtSealDone : Fld := ⟨0x020, 9, 9⟩
def secEvtWipeDone : Fld := ⟨0x020, 8, 8⟩

-- XBR (Table 14.8).
def xbrSliceTgt : Fld := ⟨0x040, 24, 16⟩
def xbrSliceMst : Fld := ⟨0x040, 7, 0⟩
def xbrTmoUnits : Fld := ⟨0x044, 15, 0⟩
def xbrLockMaxTxn : Fld := ⟨0x048, 20, 16⟩
def xbrLockMaxCyc : Fld := ⟨0x048, 8, 0⟩
def xbrAgeCycles : Fld := ⟨0x04C, 7, 0⟩
def xbrLastErrAddr : Fld := ⟨0x050, 31, 0⟩
def xbrLastInfoMaster : Fld := ⟨0x054, 26, 24⟩
def xbrLastInfoTarget : Fld := ⟨0x054, 19, 16⟩
def xbrLastInfoKind : Fld := ⟨0x054, 7, 0⟩
def xbrCntDecodeCount : Fld := ⟨0x058, 31, 0⟩
def xbrCntTmoCount : Fld := ⟨0x05C, 31, 0⟩
def xbrCntLockbrkCount : Fld := ⟨0x060, 31, 0⟩
def xbrCntAbortCount : Fld := ⟨0x064, 31, 0⟩
def xbrBusyLocked : Fld := ⟨0x068, 24, 16⟩
def xbrBusyOutstanding : Fld := ⟨0x068, 7, 0⟩
def xbrFltXactTmo : Fld := ⟨0x010, 11, 11⟩
def xbrFltBurstAbort : Fld := ⟨0x010, 10, 10⟩
def xbrFltLockBreak : Fld := ⟨0x010, 9, 9⟩
def xbrFltDecodeErr : Fld := ⟨0x010, 8, 8⟩

-- SEQ (Table 15.5).
def seqStatBusy : Fld := ⟨0x040, 31, 24⟩
def seqStatHeld : Fld := ⟨0x040, 9, 0⟩
def seqCtxCfgTrigKind : Fld := ⟨0x100, 29, 28⟩
def seqCtxCfgPrio : Fld := ⟨0x100, 26, 24⟩
def seqCtxCfgTrigPage : Fld := ⟨0x100, 21, 12⟩
def seqCtxCfgTrigBit : Fld := ⟨0x100, 4, 0⟩
def seqCtxCtrlEn : Fld := ⟨0x104, 31, 31⟩
def seqCtxCtrlStart : Fld := ⟨0x104, 1, 1⟩
def seqCtxCtrlStop : Fld := ⟨0x104, 0, 0⟩
def seqCtxEntryPc : Fld := ⟨0x108, 17, 0⟩
def seqCtxWdogTicks : Fld := ⟨0x10C, 15, 0⟩
def seqCtxStatPc : Fld := ⟨0x110, 31, 14⟩
def seqCtxStatCause : Fld := ⟨0x110, 11, 8⟩
def seqCtxStatPending : Fld := ⟨0x110, 7, 7⟩
def seqCtxStatDepth : Fld := ⟨0x110, 6, 4⟩
def seqCtxStatCond : Fld := ⟨0x110, 3, 3⟩
def seqCtxStatState : Fld := ⟨0x110, 2, 0⟩
def seqCtxReplyCode : Fld := ⟨0x114, 3, 0⟩
def seqCtxCntRuns : Fld := ⟨0x118, 31, 16⟩
def seqCtxCntDropped : Fld := ⟨0x118, 15, 0⟩
def seqCtxCnt2Late : Fld := ⟨0x11C, 31, 16⟩
def seqCtxCnt2Slip : Fld := ⟨0x11C, 15, 0⟩
def seqFltWatchdog : Fld := ⟨0x010, 8, 8⟩
def seqEvtSigRefused : Fld := ⟨0x020, 25, 25⟩
def seqEvtLate : Fld := ⟨0x020, 24, 24⟩
def seqEvtCtxError : Fld := ⟨0x020, 23, 16⟩
def seqEvtCtxDone : Fld := ⟨0x020, 15, 8⟩

-- HIF (Table 16.7).
def hifCfgFallback : Fld := ⟨0x040, 1, 1⟩
def hifCfgQuad : Fld := ⟨0x040, 0, 0⟩
def hifTmoHold : Fld := ⟨0x044, 31, 16⟩
def hifTmoFrame : Fld := ⟨0x044, 15, 0⟩
def hifStatDeferred : Fld := ⟨0x048, 31, 31⟩
def hifStatDone : Fld := ⟨0x048, 30, 30⟩
def hifStatQuad : Fld := ⟨0x048, 29, 29⟩
def hifStatLastReply : Fld := ⟨0x048, 27, 24⟩
def hifStatCmd : Fld := ⟨0x048, 7, 0⟩
def hifAttnFlt : Fld := ⟨0x04C, 11, 11⟩
def hifAttnBits : Fld := ⟨0x04C, 10, 4⟩
def hifAttnEnEn : Fld := ⟨0x050, 11, 4⟩
def hifAttnDetail : Fld := ⟨0x054, 31, 0⟩
def hifAttnSubSubsys : Fld := ⟨0x058, 15, 1⟩
def hifNetNetEn : Fld := ⟨0x05C, 31, 31⟩
def hifNetKeySlot : Fld := ⟨0x05C, 9, 0⟩
def hifNetCtrLoL : Fld := ⟨0x060, 31, 0⟩
def hifNetCtrHiL : Fld := ⟨0x064, 31, 0⟩
def hifCntCrcCount : Fld := ⟨0x070, 31, 0⟩
def hifCntFrameCount : Fld := ⟨0x074, 31, 0⟩
def hifCntDeferDeferred : Fld := ⟨0x078, 31, 16⟩
def hifCntDeferDiscarded : Fld := ⟨0x078, 15, 0⟩
def hifCntNetAccepted : Fld := ⟨0x07C, 31, 16⟩
def hifCntNetDropped : Fld := ⟨0x07C, 15, 0⟩
def hifCntAuthAuthFail : Fld := ⟨0x080, 31, 16⟩
def hifCntAuthReplay : Fld := ⟨0x080, 15, 0⟩
def hifEvtAuthFail : Fld := ⟨0x020, 10, 10⟩
def hifEvtDiscard : Fld := ⟨0x020, 9, 9⟩
def hifEvtFallback : Fld := ⟨0x020, 8, 8⟩

-- FLT (Table 17.7).
def fltShadowTicks : Fld := ⟨0x040, 7, 0⟩
def fltEscLimit : Fld := ⟨0x044, 11, 8⟩
def fltEscWindow : Fld := ⟨0x044, 7, 0⟩
def fltCfgCoalesce : Fld := ⟨0x048, 0, 0⟩
def fltLevelFirstValid : Fld := ⟨0x050, 31, 31⟩
def fltLevelOverflow : Fld := ⟨0x050, 30, 30⟩
def fltLevelRetained : Fld := ⟨0x050, 29, 29⟩
def fltLevelShadowed : Fld := ⟨0x050, 25, 16⟩
def fltLevelCount : Fld := ⟨0x050, 8, 0⟩
def fltCtrlFirstClr : Fld := ⟨0x054, 2, 2⟩
def fltCtrlClearAll : Fld := ⟨0x054, 1, 1⟩
def fltCtrlPop : Fld := ⟨0x054, 0, 0⟩
def fltHead : Fld := ⟨0x060, 31, 0⟩
def fltFirst : Fld := ⟨0x070, 31, 0⟩
def fltRecIdxIdx : Fld := ⟨0x080, 7, 0⟩
def fltRec : Fld := ⟨0x084, 31, 0⟩
def fltRetain : Fld := ⟨0x0A0, 31, 0⟩
def fltSafeCtrlOutRelease : Fld := ⟨0x0B0, 17, 17⟩
def fltSafeCtrlOutSet : Fld := ⟨0x0B0, 16, 16⟩
def fltSafeCtrlDrvRelease : Fld := ⟨0x0B0, 15, 0⟩
def fltSafeStatOut : Fld := ⟨0x0B4, 31, 31⟩
def fltSafeStatDrv : Fld := ⟨0x0B4, 15, 0⟩
def fltCntRecCount : Fld := ⟨0x0C0, 31, 0⟩
def fltCntCoalCount : Fld := ⟨0x0C4, 31, 0⟩
def fltCntLostCount : Fld := ⟨0x0C8, 31, 0⟩
def fltCntSlateCount : Fld := ⟨0x0CC, 31, 0⟩
def fltCntReactCount : Fld := ⟨0x0D0, 31, 0⟩
def fltPromoteEn : Fld := ⟨0x100, 31, 31⟩
def fltPromoteReaction : Fld := ⟨0x100, 30, 28⟩
def fltPromoteSource : Fld := ⟨0x100, 25, 16⟩
def fltPromoteKind : Fld := ⟨0x100, 7, 0⟩
def fltDepEn : Fld := ⟨0x140, 31, 31⟩
def fltDepSource : Fld := ⟨0x140, 29, 20⟩
def fltDepFirst : Fld := ⟨0x140, 19, 10⟩
def fltDepLast : Fld := ⟨0x140, 9, 0⟩
def fltEvtShadowEnd : Fld := ⟨0x020, 11, 11⟩
def fltEvtReaction : Fld := ⟨0x020, 10, 10⟩
def fltEvtOverflow : Fld := ⟨0x020, 9, 9⟩
def fltEvtRecord : Fld := ⟨0x020, 8, 8⟩

-- RED (Table 18.6).
def redCfgWitnessEn : Fld := ⟨0x040, 31, 31⟩
def redCfgSelftest : Fld := ⟨0x040, 30, 30⟩
def redCfgMode : Fld := ⟨0x040, 29, 29⟩
def redClaimGen : Fld := ⟨0x044, 31, 16⟩
def redClaimPrio : Fld := ⟨0x044, 15, 8⟩
def redClaimTag : Fld := ⟨0x044, 7, 0⟩
def redPeerClaimClaim : Fld := ⟨0x048, 31, 0⟩
def redStatState : Fld := ⟨0x04C, 31, 29⟩
def redStatPeerState : Fld := ⟨0x04C, 27, 25⟩
def redStatPeerOk : Fld := ⟨0x04C, 24, 24⟩
def redStatWitness : Fld := ⟨0x04C, 23, 23⟩
def redStatOutsel : Fld := ⟨0x04C, 22, 22⟩
def redStatVerdict : Fld := ⟨0x04C, 21, 19⟩
def redStatPeerVerdict : Fld := ⟨0x04C, 18, 16⟩
def redStatMissed : Fld := ⟨0x04C, 15, 8⟩
def redTimerListen : Fld := ⟨0x050, 31, 16⟩
def redTimerVerdictTmo : Fld := ⟨0x050, 15, 0⟩
def redConfigIdId : Fld := ⟨0x054, 31, 0⟩
def redCtrlRejoin : Fld := ⟨0x058, 2, 2⟩
def redCtrlPromote : Fld := ⟨0x058, 1, 1⟩
def redCtrlHandover : Fld := ⟨0x058, 0, 0⟩
def redHealthEn : Fld := ⟨0x05C, 31, 31⟩
def redHealthPorts : Fld := ⟨0x05C, 27, 24⟩
def redHealthDstMacHi : Fld := ⟨0x05C, 15, 0⟩
def redHealthMacLoMac : Fld := ⟨0x060, 31, 0⟩
def redDigOwnCrc : Fld := ⟨0x064, 31, 0⟩
def redDigPeerCrc : Fld := ⟨0x068, 31, 0⟩
def redDigTickTick : Fld := ⟨0x06C, 31, 0⟩
def redMisTickTick : Fld := ⟨0x070, 31, 0⟩
def redCntHbRx : Fld := ⟨0x080, 31, 16⟩
def redCntHbMissed : Fld := ⟨0x080, 15, 0⟩
def redCntCmpCount : Fld := ⟨0x084, 31, 0⟩
def redCntMisMismatch : Fld := ⟨0x088, 31, 16⟩
def redCntMisUnresolved : Fld := ⟨0x088, 15, 0⟩
def redCntRolePromotions : Fld := ⟨0x08C, 31, 16⟩
def redCntRoleSeqFix : Fld := ⟨0x08C, 15, 0⟩
def redCntSuspConfig : Fld := ⟨0x090, 31, 16⟩
def redCntSuspForeign : Fld := ⟨0x090, 15, 0⟩
def redPeerHealth : Fld := ⟨0x0C0, 31, 0⟩
def redDigMaskMap : Fld := ⟨0x100, 31, 0⟩
def redFltDigestMismatch : Fld := ⟨0x010, 10, 10⟩
def redFltClaimConflict : Fld := ⟨0x010, 9, 9⟩
def redFltPeerLink : Fld := ⟨0x010, 8, 8⟩
def redEvtVerdict : Fld := ⟨0x020, 12, 12⟩
def redEvtMismatch : Fld := ⟨0x020, 11, 11⟩
def redEvtPeerBack : Fld := ⟨0x020, 10, 10⟩
def redEvtPeerLost : Fld := ⟨0x020, 9, 9⟩
def redEvtRole : Fld := ⟨0x020, 8, 8⟩

-- DEV (Table 20.8).
def devStateState : Fld := ⟨0x040, 2, 0⟩
def devRunRun : Fld := ⟨0x044, 0, 0⟩
def devCtrlKey : Fld := ⟨0x048, 31, 16⟩
def devCtrlSwrst : Fld := ⟨0x048, 0, 0⟩
def devStrapModeBad : Fld := ⟨0x04C, 4, 4⟩
def devStrapRolePref : Fld := ⟨0x04C, 3, 3⟩
def devStrapMode : Fld := ⟨0x04C, 2, 0⟩
def devResetCauseCount : Fld := ⟨0x050, 31, 16⟩
def devResetCauseCause : Fld := ⟨0x050, 3, 0⟩
def devBistLoFail : Fld := ⟨0x054, 31, 0⟩
def devBistHiFail : Fld := ⟨0x058, 15, 0⟩
def devWdogMs : Fld := ⟨0x05C, 9, 0⟩
def devWdogLiveSubsys : Fld := ⟨0x060, 15, 1⟩
def devLcVauxLow : Fld := ⟨0x064, 9, 9⟩
def devLcBusy : Fld := ⟨0x064, 8, 8⟩
def devLcState : Fld := ⟨0x064, 2, 0⟩
def devLcArmKey : Fld := ⟨0x068, 31, 16⟩
def devLcArmTarget : Fld := ⟨0x068, 2, 0⟩
def devLcCtrlGo : Fld := ⟨0x06C, 0, 0⟩
def devTamperSeen : Fld := ⟨0x070, 9, 8⟩
def devTamperPin : Fld := ⟨0x070, 1, 0⟩
def devCntSafeCount : Fld := ⟨0x074, 31, 0⟩
def devUptimeSec : Fld := ⟨0x078, 31, 0⟩
def devFltLifecycle : Fld := ⟨0x010, 11, 11⟩
def devFltTamper : Fld := ⟨0x010, 10, 10⟩
def devFltClkLoss : Fld := ⟨0x010, 9, 9⟩
def devFltTimeoutL3 : Fld := ⟨0x010, 8, 8⟩
def devEvtLcDone : Fld := ⟨0x020, 11, 11⟩
def devEvtTamper : Fld := ⟨0x020, 10, 10⟩
def devEvtRun : Fld := ⟨0x020, 9, 9⟩
def devEvtReady : Fld := ⟨0x020, 8, 8⟩

-- CLK (Table 20.9).
def clkStatSdPllLock : Fld := ⟨0x040, 5, 5⟩
def clkStatLatLock : Fld := ⟨0x040, 4, 4⟩
def clkStatFabLock : Fld := ⟨0x040, 3, 3⟩
def clkStatTsLock : Fld := ⟨0x040, 2, 2⟩
def clkStatHkInternal : Fld := ⟨0x040, 1, 1⟩
def clkStatRefclkOk : Fld := ⟨0x040, 0, 0⟩
def clkFrzPin : Fld := ⟨0x044, 8, 8⟩
def clkFrzReq : Fld := ⟨0x044, 0, 0⟩

-- DBG (Table 20.10).
def dbgCfgJtagEn : Fld := ⟨0x040, 0, 0⟩
def dbgStatMaster : Fld := ⟨0x044, 7, 5⟩
def dbgStatThawBlocked : Fld := ⟨0x044, 4, 4⟩
def dbgStatSrc : Fld := ⟨0x044, 2, 1⟩
def dbgStatFrozen : Fld := ⟨0x044, 0, 0⟩
def dbgThawGo : Fld := ⟨0x048, 0, 0⟩
def dbgFrzTickLoTick : Fld := ⟨0x04C, 31, 0⟩
def dbgFrzTickHiTick : Fld := ⟨0x050, 15, 0⟩
def dbgFrzFrcLoCount : Fld := ⟨0x054, 31, 0⟩
def dbgFrzFrcHiCount : Fld := ⟨0x058, 31, 0⟩
def dbgFrzUsUs : Fld := ⟨0x05C, 31, 0⟩
def dbgSnapSelObj : Fld := ⟨0x060, 31, 28⟩
def dbgSnapSelIndex : Fld := ⟨0x060, 25, 16⟩
def dbgSnapSelSub : Fld := ⟨0x060, 7, 0⟩
def dbgSnapOfsOfs : Fld := ⟨0x064, 17, 0⟩
def dbgSnapDataData : Fld := ⟨0x068, 31, 0⟩
def dbgIdcodeId : Fld := ⟨0x06C, 31, 0⟩

end F

end Sys2Proof.Machine
end

