-- ==== Sys2Proof/Machine/RegTab.lean ====
section
/-! DEFINITION. The register maps: for every kind of page, its registers with their reset values, the access of their
bits (Table 0.4) and their class (00 Notation). Table 2.2, Tables 2.3 to 2.10 and the register table of each chapter. -/

namespace Sys2Proof.Machine

/-- The kinds of pages of Table 2.2. -/
inductive PageKind where
  | dev | clk | hif | xbr | mem | sec | flt | seq | red | qmg | qdesc | mac | plk | tsu | tpg | refs | mcg
  | strg | ing | egr | spx | latg | tile | tdm | aesi | aeso | asrc | wck | drv | bst | sns | mea | diag | dbg
  | reserved
  deriving DecidableEq, Repr

/-- The classes of a register (R59); `none` for the ports and selectors that carry no class (R372, R478, R540). -/
inductive RegClass where
  | live | staged | frozen | none
  deriving DecidableEq, Repr

/-- A register, or an array of them: registers at base + stride × i for i below count. -/
structure RegDesc where
  /-- First offset. -/
  base   : Nat
  /-- Distance of two registers of the array. -/
  stride : Nat
  /-- Registers in the array. -/
  count  : Nat
  /-- Reset value. -/
  rst    : Word
  /-- Bits with access RW. -/
  rw     : Word
  /-- Bits with access W1C. -/
  w1c    : Word
  /-- Bits with access W1S. -/
  w1s    : Word
  /-- Bits with access RC. -/
  rc     : Word
  /-- Bits with access WO. -/
  wo     : Word
  /-- Bits that are RC in Service and RO in Survey (R99). -/
  rcs    : Word
  /-- The class its writable fields share (R47). -/
  cls    : RegClass
  deriving DecidableEq, Repr

/-- The offset is that of a register of the array. -/
def RegDesc.covers (d : RegDesc) (ofs : Nat) : Bool :=
  d.base ≤ ofs && (ofs - d.base) % d.stride == 0 && (ofs - d.base) / d.stride < d.count

/-- Registers of MAC. -/
def regsMac : List RegDesc := [
  ⟨0x040, 4, 1, 0x10, 0x7F, 0x0, 0x0, 0x0, 0x0, 0x0, .frozen⟩,
  ⟨0x044, 4, 1, 0x800, 0x3FFF, 0x0, 0x0, 0x0, 0x0, 0x0, .frozen⟩,
  ⟨0x048, 4, 1, 0x0, 0xFFFFFFFF, 0x0, 0x0, 0x0, 0x0, 0x0, .frozen⟩,
  ⟨0x04C, 4, 1, 0x0, 0xFFFF, 0x0, 0x0, 0x0, 0x0, 0x0, .frozen⟩,
  ⟨0x050, 4, 1, 0x1, 0xF, 0x0, 0x0, 0x0, 0x0, 0x0, .live⟩,
  ⟨0x054, 4, 1, 0x0, 0xFFFFFFFF, 0x0, 0x0, 0x0, 0x0, 0x0, .live⟩,
  ⟨0x058, 4, 1, 0x0, 0xFFFFFFFF, 0x0, 0x0, 0x0, 0x0, 0x0, .live⟩,
  ⟨0x05C, 4, 1, 0x26, 0x8FFF0077, 0x0, 0x0, 0x0, 0x0, 0x0, .live⟩,
  ⟨0x060, 4, 1, 0x30A00, 0xFFF03, 0x0, 0x0, 0x0, 0x0, 0x0, .frozen⟩,
  ⟨0x064, 4, 1, 0x0, 0x0, 0x0, 0x0, 0x0, 0x0, 0x0, .live⟩,
  ⟨0x068, 4, 1, 0xFFFF0001, 0xFFFF0003, 0x0, 0x0, 0x0, 0x0, 0x0, .live⟩,
  ⟨0x06C, 4, 1, 0xC000E000, 0xFFFFFFFF, 0x0, 0x0, 0x0, 0x0, 0x0, .live⟩,
  ⟨0x070, 4, 1, 0x0, 0x0, 0x0, 0x0, 0x0, 0x0, 0x0, .live⟩,
  ⟨0x074, 4, 1, 0x0, 0x83FF83FF, 0x0, 0x0, 0x0, 0x0, 0x0, .frozen⟩,
  ⟨0x078, 4, 1, 0x0, 0x83FF, 0x0, 0x0, 0x0, 0x0, 0x0, .frozen⟩,
  ⟨0x07C, 4, 1, 0x0, 0x3F, 0x0, 0x0, 0x0, 0x0, 0x0, .live⟩,
  ⟨0x080, 4, 1, 0x3E8, 0xFFFF, 0x0, 0x0, 0x0, 0x0, 0x0, .live⟩,
  ⟨0x084, 4, 1, 0x18, 0xFFFF, 0x0, 0x0, 0x0, 0x0, 0x0, .live⟩,
  ⟨0x088, 4, 1, 0x10A00, 0xFF03, 0x0, 0x0, 0x0, 0x0, 0x0, .live⟩,
  ⟨0x08C, 4, 1, 0x0, 0x0, 0x0, 0x0, 0x0, 0x1, 0x0, .live⟩,
  ⟨0x090, 4, 1, 0x0, 0x0, 0x0, 0x0, 0x0, 0x0, 0x0, .live⟩,
  ⟨0x094, 4, 1, 0xA, 0xFF, 0x0, 0x0, 0x0, 0x0, 0x0, .live⟩,
  ⟨0x098, 4, 1, 0x0, 0x7, 0x0, 0x0, 0x0, 0x0, 0x0, .frozen⟩,
  ⟨0x0A0, 4, 1, 0x0, 0x0, 0xFFFFFFFF, 0x0, 0x0, 0x0, 0x0, .live⟩,
  ⟨0x0A4, 4, 1, 0x0, 0x0, 0xFFFF, 0x0, 0x0, 0x0, 0x0, .live⟩,
  ⟨0x100, 4, 48, 0x0, 0x0, 0x0, 0x0, 0x0, 0x0, 0xFFFFFFFF, .live⟩,
  ⟨0x200, 4, 48, 0x0, 0x0, 0x0, 0x0, 0x0, 0x0, 0x0, .live⟩]

/-- Registers of PLK. -/
def regsPlk : List RegDesc := [
  ⟨0x040, 4, 1, 0x0, 0x6C, 0x0, 0x0, 0x0, 0x0, 0x0, .frozen⟩,
  ⟨0x088, 4, 1, 0x10A00, 0xFF03, 0x0, 0x0, 0x0, 0x0, 0x0, .live⟩,
  ⟨0x08C, 4, 1, 0x0, 0x0, 0x0, 0x0, 0x0, 0x1, 0x0, .live⟩,
  ⟨0x090, 4, 1, 0x0, 0x0, 0x0, 0x0, 0x0, 0x0, 0x0, .live⟩,
  ⟨0x094, 4, 1, 0xA, 0xFF, 0x0, 0x0, 0x0, 0x0, 0x0, .live⟩,
  ⟨0x098, 4, 1, 0x0, 0x7, 0x0, 0x0, 0x0, 0x0, 0x0, .frozen⟩,
  ⟨0x0A0, 4, 1, 0x0, 0x0, 0xFF, 0x0, 0x0, 0x0, 0x0, .live⟩,
  ⟨0x100, 4, 8, 0x0, 0x0, 0x0, 0x0, 0x0, 0x0, 0xFFFFFFFF, .live⟩,
  ⟨0x200, 4, 8, 0x0, 0x0, 0x0, 0x0, 0x0, 0x0, 0x0, .live⟩]

/-- Registers of TSU. -/
def regsTsuPart0 : List RegDesc := [
  ⟨0x040, 4, 1, 0x0, 0x0, 0x0, 0x0, 0x0, 0x0, 0x0, .live⟩,
  ⟨0x044, 4, 1, 0x0, 0x0, 0x0, 0x0, 0x0, 0x0, 0x0, .live⟩,
  ⟨0x048, 4, 1, 0x0, 0x0, 0x0, 0x0, 0x0, 0x0, 0x0, .live⟩,
  ⟨0x04C, 4, 1, 0x0, 0x0, 0x0, 0x0, 0x0, 0x0, 0x0, .live⟩,
  ⟨0x050, 4, 1, 0x0, 0x0, 0x0, 0x0, 0x0, 0x0, 0x0, .live⟩,
  ⟨0x054, 4, 1, 0x0, 0x0, 0x0, 0x0, 0x0, 0x0, 0x0, .live⟩,
  ⟨0x058, 4, 1, 0x0, 0xFFFFFFFF, 0x0, 0x0, 0x0, 0x0, 0x0, .live⟩,
  ⟨0x05C, 4, 1, 0x0, 0xFF, 0x0, 0x0, 0x0, 0x0, 0x0, .live⟩,
  ⟨0x060, 4, 1, 0x0, 0xFFFFFFFF, 0x0, 0x0, 0x0, 0x0, 0x0, .live⟩,
  ⟨0x064, 4, 1, 0x0, 0x3FFFFFFF, 0x0, 0x0, 0x0, 0x0, 0x0, .live⟩,
  ⟨0x068, 4, 1, 0x0, 0x8000FFFF, 0x0, 0x0, 0x0, 0x0, 0x0, .live⟩,
  ⟨0x06C, 4, 1, 0x0, 0x1, 0x0, 0x0, 0x0, 0x0, 0x0, .live⟩,
  ⟨0x070, 4, 4, 0x0, 0xFFFFFFFF, 0x0, 0x0, 0x0, 0x0, 0x0, .live⟩,
  ⟨0x080, 4, 4, 0x0, 0xFFFFFFFF, 0x0, 0x0, 0x0, 0x0, 0x0, .live⟩,
  ⟨0x090, 4, 1, 0x0, 0x0, 0x0, 0x0, 0x0, 0x0, 0x0, .live⟩,
  ⟨0x094, 4, 1, 0x0, 0x0, 0x0, 0x0, 0x0, 0x0, 0x0, .live⟩,
  ⟨0x098, 4, 1, 0x0, 0x0, 0x0, 0x0, 0x0, 0x0, 0x0, .live⟩,
  ⟨0x09C, 4, 1, 0x0, 0x0, 0x0, 0x0, 0x0, 0x0, 0x0, .live⟩,
  ⟨0x0A0, 4, 1, 0x0, 0x0, 0x0, 0x0, 0x0, 0x0, 0x0, .live⟩,
  ⟨0x0A4, 4, 1, 0x0, 0x0, 0x0, 0x0, 0x0, 0x1, 0x0, .live⟩,
  ⟨0x0A8, 4, 1, 0x0, 0x0, 0x0, 0x0, 0xFFFF, 0x0, 0x0, .live⟩,
  ⟨0x0B0, 4, 1, 0x0, 0x0, 0x0, 0x0, 0x0, 0x0, 0x0, .live⟩,
  ⟨0x0B4, 4, 1, 0x0, 0x0, 0x0, 0x0, 0x0, 0x0, 0x0, .live⟩,
  ⟨0x0B8, 4, 1, 0x0, 0x0, 0x0, 0x0, 0x0, 0x0, 0x0, .live⟩,
  ⟨0x0BC, 4, 1, 0x0, 0x0, 0x0, 0x0, 0x0, 0x0, 0x0, .live⟩,
  ⟨0x0C0, 4, 1, 0x0, 0x0, 0x0, 0x0, 0x0, 0x0, 0x0, .live⟩,
  ⟨0x0C4, 4, 1, 0x0, 0x0, 0x0, 0x0, 0x0, 0x0, 0x0, .live⟩,
  ⟨0x0C8, 4, 1, 0x0, 0x0, 0x0, 0x0, 0x0, 0x0, 0x0, .live⟩,
  ⟨0x0CC, 4, 1, 0x0, 0x0, 0x0, 0x0, 0x0, 0x0, 0x0, .live⟩,
  ⟨0x0D0, 4, 1, 0x0, 0x0, 0x0, 0x0, 0x0, 0x0, 0x0, .live⟩]

/-- Registers of TSU. -/
def regsTsuPart1 : List RegDesc := [
  ⟨0x0D4, 4, 1, 0x0, 0x0, 0x0, 0x0, 0x0, 0x0, 0x0, .live⟩,
  ⟨0x0D8, 4, 1, 0x0, 0x0, 0x0, 0x0, 0x0, 0x0, 0x0, .live⟩,
  ⟨0x0E0, 4, 1, 0x0, 0x0, 0x0, 0x0, 0xFFFFFFFF, 0x0, 0x0, .live⟩,
  ⟨0x0E4, 4, 1, 0x0, 0x0, 0x0, 0x0, 0xFFFFFFFF, 0x0, 0x0, .live⟩]

/-- Registers of TSU. -/
def regsTsu : List RegDesc := regsTsuPart0 ++ regsTsuPart1

/-- Registers of TPG. -/
def regsTpg : List RegDesc := [
  ⟨0x040, 32, 8, 0x0, 0xF, 0x0, 0x0, 0x0, 0x0, 0x0, .live⟩,
  ⟨0x044, 32, 8, 0x0, 0x3FFFFFFF, 0x0, 0x0, 0x0, 0x0, 0x0, .live⟩,
  ⟨0x048, 32, 8, 0x0, 0xFFFFFFFF, 0x0, 0x0, 0x0, 0x0, 0x0, .live⟩,
  ⟨0x04C, 32, 8, 0x0, 0xFFFFFFFF, 0x0, 0x0, 0x0, 0x0, 0x0, .live⟩,
  ⟨0x050, 32, 8, 0x0, 0xFFFFFFFF, 0x0, 0x0, 0x0, 0x0, 0x0, .live⟩,
  ⟨0x054, 32, 8, 0x0, 0xFFFF, 0x0, 0x0, 0x0, 0x0, 0x0, .live⟩,
  ⟨0x058, 32, 8, 0x0, 0xFFFFFF, 0x0, 0x0, 0x0, 0x0, 0x0, .live⟩,
  ⟨0x05C, 32, 8, 0x0, 0xFFFFFFFF, 0x0, 0x0, 0x0, 0x0, 0x0, .live⟩,
  ⟨0x140, 4, 1, 0x1, 0xF, 0x0, 0x0, 0x0, 0x0, 0x0, .live⟩,
  ⟨0x144, 4, 1, 0x0, 0xFFFFFFFF, 0x0, 0x0, 0x0, 0x0, 0x0, .live⟩,
  ⟨0x148, 4, 1, 0x0, 0xFFFFFFFF, 0x0, 0x0, 0x0, 0x0, 0x0, .live⟩]

/-- Registers of REFS. -/
def regsRefs : List RegDesc := [
  ⟨0x040, 4, 1, 0x1, 0x1, 0x0, 0x0, 0x0, 0x0, 0x0, .live⟩,
  ⟨0x044, 4, 1, 0xA, 0xFFF, 0x0, 0x0, 0x0, 0x0, 0x0, .live⟩,
  ⟨0x048, 4, 1, 0x2, 0xFF, 0x0, 0x0, 0x0, 0x0, 0x0, .live⟩,
  ⟨0x04C, 4, 1, 0x1F40032, 0xFFFFFFFF, 0x0, 0x0, 0x0, 0x0, 0x0, .live⟩,
  ⟨0x050, 4, 1, 0x64, 0xFFFF, 0x0, 0x0, 0x0, 0x0, 0x0, .live⟩,
  ⟨0x054, 4, 1, 0x0, 0xFFFFFFFF, 0x0, 0x0, 0x0, 0x0, 0x0, .live⟩,
  ⟨0x058, 4, 1, 0xA000A, 0x3FF00FF, 0x0, 0x0, 0x0, 0x0, 0x0, .live⟩,
  ⟨0x05C, 4, 1, 0x64, 0xFFFF, 0x0, 0x0, 0x0, 0x0, 0x0, .live⟩,
  ⟨0x060, 4, 1, 0x400, 0xFF01, 0x0, 0x2, 0x0, 0x0, 0x0, .live⟩,
  ⟨0x064, 4, 1, 0x0, 0xF, 0x0, 0x0, 0x0, 0x0, 0x0, .live⟩,
  ⟨0x068, 4, 1, 0x0, 0xFFFFFFFF, 0x0, 0x0, 0x0, 0x0, 0x0, .live⟩,
  ⟨0x06C, 4, 1, 0x0, 0xFF, 0x0, 0x0, 0x0, 0x0, 0x0, .live⟩,
  ⟨0x070, 4, 1, 0xF, 0x0, 0x0, 0x0, 0x0, 0x0, 0x0, .live⟩,
  ⟨0x074, 4, 1, 0x0, 0x0, 0x0, 0x0, 0x0, 0x0, 0x0, .live⟩,
  ⟨0x078, 4, 1, 0x0, 0x0, 0x0, 0x0, 0x0, 0x0, 0x0, .live⟩,
  ⟨0x07C, 4, 1, 0x0, 0x0, 0x0, 0x0, 0x0, 0x0, 0x0, .live⟩,
  ⟨0x080, 4, 1, 0x0, 0x0, 0x0, 0x0, 0x0, 0x0, 0x0, .live⟩,
  ⟨0x084, 4, 1, 0x0, 0x0, 0x0, 0x0, 0x0, 0x0, 0x0, .live⟩,
  ⟨0x100, 32, 8, 0x0, 0xF, 0x0, 0x0, 0x0, 0x0, 0x0, .live⟩,
  ⟨0x104, 32, 8, 0x0, 0x0, 0x0, 0x0, 0x0, 0x0, 0x0, .live⟩,
  ⟨0x108, 32, 8, 0x0, 0x0, 0x0, 0x0, 0x0, 0x0, 0x0, .live⟩,
  ⟨0x10C, 32, 8, 0x0, 0x0, 0x0, 0x0, 0x0, 0x0, 0x0, .live⟩,
  ⟨0x110, 32, 8, 0x0, 0x0, 0x0, 0x0, 0x0, 0x0, 0x0, .live⟩]

/-- Registers of MCG. -/
def regsMcg : List RegDesc := [
  ⟨0x040, 4, 1, 0x0, 0x0, 0x0, 0x0, 0x0, 0x0, 0x0, .live⟩,
  ⟨0x044, 4, 1, 0x0, 0x0, 0x0, 0x0, 0x0, 0x0, 0x0, .live⟩,
  ⟨0x048, 4, 1, 0x0, 0xFFFFFFFF, 0x0, 0x0, 0x0, 0x0, 0x0, .live⟩,
  ⟨0x04C, 4, 1, 0x0, 0xFF, 0x0, 0x0, 0x0, 0x0, 0x0, .live⟩,
  ⟨0x050, 4, 1, 0x0, 0x0, 0x0, 0x3, 0x0, 0x0, 0x0, .live⟩,
  ⟨0x054, 4, 1, 0x0, 0x0, 0x0, 0x0, 0x0, 0x0, 0x0, .live⟩,
  ⟨0x058, 4, 1, 0x0, 0x0, 0x0, 0x0, 0x0, 0x0, 0x0, .live⟩]

/-- Registers of WCK. -/
def regsWck : List RegDesc := [
  ⟨0x040, 4, 1, 0x0, 0x13, 0x0, 0x0, 0x0, 0x0, 0x0, .live⟩,
  ⟨0x044, 4, 1, 0x0, 0x0, 0x0, 0x0, 0x0, 0x0, 0x0, .live⟩,
  ⟨0x048, 4, 1, 0x0, 0xFFFF000F, 0x0, 0x0, 0x0, 0x0, 0x0, .live⟩,
  ⟨0x04C, 4, 4, 0x4, 0x1F, 0x0, 0x0, 0x0, 0x0, 0x0, .live⟩]

/-- Registers of ING0. -/
def regsIng0 : List RegDesc := [
  ⟨0x000, 4, 1, 0x0, 0x7F3FFFFF, 0x0, 0x0, 0x0, 0x0, 0x0, .frozen⟩,
  ⟨0x004, 4, 1, 0x40000400, 0xE07F1FFF, 0x0, 0x0, 0x0, 0x0, 0x0, .frozen⟩,
  ⟨0x008, 4, 1, 0x40C000, 0x80FFFF00, 0x0, 0x0, 0x0, 0x0, 0x0, .live⟩,
  ⟨0x00C, 4, 1, 0x0, 0xF03F0000, 0x0, 0x0, 0x0, 0x0, 0x0, .frozen⟩,
  ⟨0x010, 4, 1, 0x0, 0x0, 0x0, 0x0, 0x0, 0x0, 0x0, .live⟩,
  ⟨0x014, 4, 1, 0x0, 0x0, 0x0, 0x0, 0x0, 0x0, 0x0, .live⟩,
  ⟨0x018, 4, 1, 0x0, 0x0, 0x0, 0x0, 0x0, 0x0, 0x0, .live⟩,
  ⟨0x01C, 4, 1, 0x0, 0x0, 0x0, 0x0, 0x0, 0x0, 0x0, .live⟩]

/-- Registers of ING1. -/
def regsIng1 : List RegDesc := [
  ⟨0x000, 4, 1, 0x0, 0x3FFFFFFF, 0x0, 0x0, 0x0, 0x0, 0x0, .frozen⟩,
  ⟨0x004, 4, 1, 0x0, 0xFFFFFFFF, 0x0, 0x0, 0x0, 0x0, 0x0, .frozen⟩,
  ⟨0x008, 4, 1, 0x0, 0x80000000, 0x0, 0x0, 0x0, 0x0, 0x0, .live⟩,
  ⟨0x00C, 4, 1, 0x0, 0xFF3F03FF, 0x0, 0x0, 0x0, 0x0, 0x0, .frozen⟩,
  ⟨0x010, 4, 1, 0x0, 0xFFFFFFFF, 0x0, 0x0, 0x0, 0x0, 0x0, .frozen⟩,
  ⟨0x014, 4, 1, 0x0, 0x0, 0x0, 0x0, 0x0, 0x0, 0x0, .live⟩,
  ⟨0x018, 4, 1, 0x0, 0x0, 0x0, 0x0, 0x0, 0x0, 0x0, .live⟩,
  ⟨0x01C, 4, 1, 0x0, 0x0, 0x0, 0x0, 0x0, 0x0, 0x0, .live⟩]

/-- Registers of EGR0. -/
def regsEgr0 : List RegDesc := [
  ⟨0x000, 4, 1, 0x0, 0x7FBFFFFF, 0x0, 0x0, 0x0, 0x0, 0x0, .frozen⟩,
  ⟨0x004, 4, 1, 0x0, 0xFFFFFFFF, 0x0, 0x0, 0x0, 0x0, 0x0, .frozen⟩,
  ⟨0x008, 4, 1, 0x40000000, 0xEC7FFFFF, 0x0, 0x0, 0x0, 0x0, 0x0, .frozen⟩,
  ⟨0x00C, 4, 1, 0x0, 0x80000000, 0x0, 0x0, 0x0, 0x0, 0x0, .live⟩,
  ⟨0x010, 4, 1, 0x0, 0x0, 0x0, 0x0, 0x0, 0x0, 0x0, .live⟩,
  ⟨0x014, 4, 1, 0x0, 0x0, 0x0, 0x0, 0x0, 0x0, 0x0, .live⟩,
  ⟨0x018, 4, 1, 0x0, 0x0, 0x0, 0x0, 0x0, 0x0, 0x0, .live⟩,
  ⟨0x01C, 4, 1, 0x0, 0x0, 0x0, 0x0, 0x0, 0x0, 0x0, .live⟩]

/-- Registers of EGR1. -/
def regsEgr1 : List RegDesc := [
  ⟨0x000, 4, 1, 0x0, 0xBF00FFFF, 0x0, 0x0, 0x0, 0x0, 0x0, .frozen⟩,
  ⟨0x004, 4, 1, 0x0, 0xFFFFFFFF, 0x0, 0x0, 0x0, 0x0, 0x0, .frozen⟩,
  ⟨0x008, 4, 1, 0x898000, 0xFFFDFFFF, 0x0, 0x0, 0x0, 0x0, 0x0, .frozen⟩,
  ⟨0x00C, 4, 1, 0x0, 0x80000000, 0x0, 0x0, 0x0, 0x0, 0x0, .live⟩,
  ⟨0x010, 4, 1, 0x0, 0xFFFFFFFF, 0x0, 0x0, 0x0, 0x0, 0x0, .frozen⟩,
  ⟨0x014, 4, 1, 0x0, 0xFFFFFFFF, 0x0, 0x0, 0x0, 0x0, 0x0, .frozen⟩,
  ⟨0x018, 4, 1, 0x20000000, 0xFF00FFFF, 0x0, 0x0, 0x0, 0x0, 0x0, .frozen⟩,
  ⟨0x01C, 4, 1, 0x0, 0xFFFFFFFF, 0x0, 0x0, 0x0, 0x0, 0x0, .frozen⟩]

/-- Registers of STRG. -/
def regsStrg : List RegDesc := [
  ⟨0x040, 4, 1, 0x88B50000, 0xFFFF0001, 0x0, 0x0, 0x0, 0x0, 0x0, .frozen⟩,
  ⟨0x044, 4, 1, 0x0, 0x3FF, 0x0, 0x0, 0x0, 0x0, 0x0, .frozen⟩,
  ⟨0x048, 4, 1, 0x0, 0xFFFFFFFF, 0x0, 0x0, 0x0, 0x0, 0x0, .frozen⟩,
  ⟨0x04C, 4, 1, 0x0, 0xFFFFFFFE, 0x0, 0x0, 0x0, 0x0, 0x0, .live⟩,
  ⟨0x050, 4, 1, 0x0, 0xFFFFFFFF, 0x0, 0x0, 0x0, 0x0, 0x0, .live⟩,
  ⟨0x054, 4, 1, 0x1, 0xFFFF, 0x0, 0x0, 0x0, 0x0, 0x0, .live⟩,
  ⟨0x058, 4, 1, 0x0, 0x0, 0x0, 0x0, 0xFFFFFFFF, 0x0, 0x0, .live⟩,
  ⟨0x05C, 4, 1, 0x0, 0x0, 0x0, 0x0, 0xFFFFFFFF, 0x0, 0x0, .live⟩,
  ⟨0x060, 4, 1, 0x0, 0x0, 0x0, 0x0, 0xFFFFFFFF, 0x0, 0x0, .live⟩,
  ⟨0x064, 4, 1, 0x0, 0x0, 0x0, 0x0, 0x0, 0x0, 0x0, .live⟩,
  ⟨0x068, 4, 1, 0x0, 0x0, 0x0, 0x0, 0x0, 0x0, 0x0, .live⟩]

/-- Registers of SPX. -/
def regsSpx : List RegDesc := [
  ⟨0x040, 4, 1, 0x9600006, 0xFFFF0006, 0x0, 0x0, 0x0, 0x0, 0x0, .live⟩,
  ⟨0x044, 4, 1, 0x2EE0, 0x3FFF, 0x0, 0x0, 0x0, 0x0, 0x0, .live⟩,
  ⟨0x048, 4, 1, 0x0, 0x0, 0x0, 0x0, 0x0, 0x0, 0x0, .live⟩,
  ⟨0x04C, 4, 1, 0x2EE0, 0x0, 0x0, 0x0, 0x3F003FFF, 0x0, 0x0, .live⟩,
  ⟨0x050, 4, 1, 0x0, 0x0, 0x0, 0x0, 0x0, 0x0, 0x0, .live⟩,
  ⟨0x060, 4, 1, 0x0, 0x0, 0x0, 0x0, 0xFFFFFFFF, 0x0, 0x0, .live⟩,
  ⟨0x064, 4, 1, 0x0, 0x0, 0x0, 0x0, 0xFFFFFFFF, 0x0, 0x0, .live⟩,
  ⟨0x068, 4, 1, 0x0, 0x0, 0x0, 0x0, 0xFFFFFFFF, 0x0, 0x0, .live⟩,
  ⟨0x06C, 4, 1, 0x0, 0x0, 0x0, 0x0, 0xFFFFFFFF, 0x0, 0x0, .live⟩,
  ⟨0x070, 4, 1, 0x0, 0x0, 0x0, 0x0, 0xFFFFFFFF, 0x0, 0x0, .live⟩,
  ⟨0x074, 4, 1, 0x0, 0x0, 0x0, 0x0, 0xFFFFFFFF, 0x0, 0x0, .live⟩,
  ⟨0x078, 4, 1, 0x0, 0x0, 0x0, 0x0, 0xFFFFFFFF, 0x0, 0x0, .live⟩,
  ⟨0x07C, 4, 1, 0x0, 0x0, 0x0, 0x0, 0xFFFFFFFF, 0x0, 0x0, .live⟩,
  ⟨0x080, 4, 16, 0x0, 0x0, 0x0, 0x0, 0x0, 0x0, 0x0, .live⟩,
  ⟨0x0C0, 4, 1, 0x0, 0x0, 0x0, 0x0, 0x0, 0x800001FF, 0x0, .live⟩]

/-- Registers of LATG. -/
def regsLatg : List RegDesc := [
  ⟨0x040, 4, 1, 0x0, 0x7FFFFF, 0x0, 0x0, 0x0, 0x0, 0x0, .staged⟩,
  ⟨0x044, 4, 1, 0x0, 0x0, 0x0, 0x80000000, 0x0, 0x0, 0x0, .live⟩,
  ⟨0x048, 4, 1, 0x0, 0x0, 0x0, 0x0, 0x0, 0x0, 0x0, .live⟩,
  ⟨0x04C, 4, 1, 0x0, 0x0, 0x0, 0x0, 0x0, 0x0, 0x0, .live⟩,
  ⟨0x050, 4, 1, 0x0, 0x0, 0x0, 0x0, 0x0, 0x0, 0x0, .live⟩,
  ⟨0x054, 4, 1, 0x0, 0x0, 0x0, 0x0, 0x0, 0x0, 0x0, .live⟩,
  ⟨0x058, 4, 1, 0x0, 0x0, 0x0, 0x0, 0x0, 0x0, 0x0, .live⟩,
  ⟨0x05C, 4, 1, 0xFFFF, 0x0, 0x0, 0x0, 0xFFFF, 0x0, 0x0, .live⟩,
  ⟨0x060, 4, 1, 0x0, 0x0, 0x0, 0x0, 0x0, 0x0, 0x0, .live⟩,
  ⟨0x064, 4, 1, 0x0, 0x0, 0x0, 0x0, 0x0, 0x0, 0x0, .live⟩,
  ⟨0x068, 4, 1, 0x0, 0x0, 0x0, 0x0, 0x0, 0x0, 0x0, .live⟩,
  ⟨0x06C, 4, 1, 0x0, 0x0, 0x0, 0x0, 0xFFFFFFFF, 0x0, 0x0, .live⟩,
  ⟨0x070, 4, 1, 0x0, 0x0, 0x0, 0x0, 0xFFFFFFFF, 0x0, 0x0, .live⟩]

/-- Registers of TILE. -/
def regsTile : List RegDesc := [
  ⟨0x040, 4, 1, 0x0, 0x0, 0x0, 0x0, 0x0, 0x0, 0x0, .live⟩,
  ⟨0x044, 4, 1, 0x0, 0x0, 0x0, 0x0, 0xFFFF, 0x0, 0x0, .live⟩,
  ⟨0x048, 4, 1, 0x0, 0x0, 0x0, 0x0, 0x0, 0x0, 0x0, .live⟩,
  ⟨0x04C, 4, 1, 0x0, 0x0, 0x0, 0x0, 0x0, 0x0, 0x0, .live⟩,
  ⟨0x050, 4, 1, 0x0, 0x0, 0x0, 0x0, 0xFFFFFFFF, 0x0, 0x0, .live⟩,
  ⟨0x054, 4, 1, 0x0, 0x0, 0x0, 0x0, 0x0, 0x0, 0x0, .live⟩,
  ⟨0x058, 4, 1, 0x0, 0x0, 0x0, 0x0, 0xFFFFFFFF, 0x0, 0x0, .live⟩,
  ⟨0x05C, 4, 1, 0x0, 0x3, 0x0, 0x0, 0x0, 0x0, 0x0, .live⟩]

/-- Registers of TDM. -/
def regsTdm : List RegDesc := [
  ⟨0x040, 4, 1, 0x8A, 0xFFFF1FFF, 0x0, 0x0, 0x0, 0x0, 0x0, .frozen⟩,
  ⟨0x044, 4, 1, 0x20000, 0x800F03FF, 0x0, 0x0, 0x0, 0x0, 0x0, .frozen⟩,
  ⟨0x048, 4, 1, 0x0, 0xFFFFFFFF, 0x0, 0x0, 0x0, 0x0, 0x0, .frozen⟩,
  ⟨0x04C, 4, 1, 0x20000, 0x800F03FF, 0x0, 0x0, 0x0, 0x0, 0x0, .frozen⟩,
  ⟨0x050, 4, 1, 0x0, 0xFFFFFFFF, 0x0, 0x0, 0x0, 0x0, 0x0, .frozen⟩,
  ⟨0x054, 4, 1, 0x0, 0x0, 0x0, 0x0, 0x0, 0x0, 0x0, .live⟩,
  ⟨0x058, 4, 1, 0x0, 0x0, 0x0, 0x0, 0x0, 0x0, 0x0, .live⟩,
  ⟨0x060, 4, 1, 0x0, 0x0, 0x0, 0x0, 0xFFFFFFFF, 0x0, 0x0, .live⟩,
  ⟨0x064, 4, 1, 0x0, 0x0, 0x0, 0x0, 0xFFFFFFFF, 0x0, 0x0, .live⟩,
  ⟨0x068, 4, 1, 0x0, 0x0, 0x0, 0x0, 0xFFFFFFFF, 0x0, 0x0, .live⟩]

/-- Registers of AESI. -/
def regsAesi : List RegDesc := [
  ⟨0x040, 4, 1, 0x42000, 0x3F1FF3FF, 0x0, 0x0, 0x0, 0x0, 0x0, .frozen⟩,
  ⟨0x044, 4, 1, 0x3000000, 0x0, 0x0, 0x0, 0x0, 0x0, 0x0, .live⟩,
  ⟨0x048, 4, 1, 0x0, 0x0, 0x0, 0x0, 0x0, 0x0, 0x0, .live⟩,
  ⟨0x050, 4, 6, 0x0, 0x0, 0x0, 0x0, 0x0, 0x0, 0x0, .live⟩,
  ⟨0x068, 4, 6, 0x0, 0x0, 0x0, 0x0, 0x0, 0x0, 0x0, .live⟩,
  ⟨0x080, 4, 6, 0x0, 0x0, 0x0, 0x0, 0x0, 0x0, 0x0, .live⟩,
  ⟨0x098, 4, 6, 0x0, 0x0, 0x0, 0x0, 0x0, 0x0, 0x0, .live⟩,
  ⟨0x0B0, 4, 1, 0x0, 0x0, 0x0, 0x0, 0xFFFFFFFF, 0x0, 0x0, .live⟩,
  ⟨0x0B4, 4, 1, 0x0, 0x0, 0x0, 0x0, 0xFFFFFFFF, 0x0, 0x0, .live⟩,
  ⟨0x0B8, 4, 1, 0x0, 0x0, 0x0, 0x0, 0xFFFFFFFF, 0x0, 0x0, .live⟩,
  ⟨0x0BC, 4, 1, 0x0, 0x0, 0x0, 0x0, 0xFFFFFFFF, 0x0, 0x0, .live⟩]

/-- Registers of AESO. -/
def regsAeso : List RegDesc := [
  ⟨0x040, 4, 1, 0x20C0, 0xF1FF, 0x0, 0x0, 0x0, 0x0, 0x0, .frozen⟩,
  ⟨0x044, 4, 1, 0x0, 0xC3FF03FF, 0x0, 0x0, 0x0, 0x0, 0x0, .frozen⟩,
  ⟨0x048, 4, 1, 0xBB80, 0x3FFFF, 0x0, 0x0, 0x0, 0x0, 0x0, .frozen⟩,
  ⟨0x050, 4, 6, 0x0, 0xFFFFFFFF, 0x0, 0x0, 0x0, 0x0, 0x0, .staged⟩,
  ⟨0x068, 4, 6, 0x0, 0xFFFFFFFF, 0x0, 0x0, 0x0, 0x0, 0x0, .staged⟩,
  ⟨0x080, 4, 1, 0x0, 0x0, 0x0, 0x0, 0x0, 0x0, 0x0, .live⟩,
  ⟨0x084, 4, 1, 0x0, 0x0, 0x0, 0x0, 0x0, 0x0, 0x0, .live⟩,
  ⟨0x088, 4, 1, 0x0, 0x0, 0x0, 0x0, 0xFFFFFFFF, 0x0, 0x0, .live⟩]

/-- Registers of ASRC. -/
def regsAsrc : List RegDesc := [
  ⟨0x040, 4, 1, 0x0, 0x0, 0x0, 0x0, 0x0, 0x0, 0x0, .live⟩,
  ⟨0x100, 16, 64, 0x4000, 0x7F1FC3FF, 0x0, 0x0, 0x0, 0x0, 0x0, .frozen⟩,
  ⟨0x104, 16, 64, 0x0, 0x80000000, 0x0, 0x0, 0x0, 0x0, 0x0, .live⟩,
  ⟨0x108, 16, 64, 0x0, 0x0, 0x0, 0x0, 0x0, 0x0, 0x0, .live⟩]

/-- Registers of DRV. -/
def regsDrv : List RegDesc := [
  ⟨0x040, 4, 1, 0x14082000, 0xFF3F33FF, 0x0, 0x0, 0x0, 0x0, 0x0, .frozen⟩,
  ⟨0x044, 4, 1, 0x1F333, 0x1FFFF, 0x0, 0x0, 0x0, 0x0, 0x0, .live⟩,
  ⟨0x048, 4, 1, 0x7FFF0000, 0xFFFFFFFF, 0x0, 0x0, 0x0, 0x0, 0x0, .live⟩,
  ⟨0x04C, 4, 1, 0x7FFF, 0xFFFFFFFF, 0x0, 0x0, 0x0, 0x0, 0x0, .live⟩,
  ⟨0x050, 4, 1, 0x30290, 0x7FFFF, 0x0, 0x0, 0x0, 0x0, 0x0, .live⟩,
  ⟨0x054, 4, 1, 0xA030064, 0xFF0FFFFF, 0x0, 0x0, 0x0, 0x0, 0x0, .live⟩,
  ⟨0x058, 4, 1, 0x0, 0x0, 0x0, 0x1, 0x0, 0x0, 0x0, .live⟩,
  ⟨0x060, 4, 1, 0x0, 0x0, 0x0, 0x0, 0x0, 0x0, 0x0, .live⟩,
  ⟨0x064, 4, 1, 0x0, 0x0, 0x0, 0x0, 0x0, 0x0, 0x0, .live⟩,
  ⟨0x068, 4, 1, 0x0, 0x0, 0x0, 0x0, 0x0, 0x0, 0x0, .live⟩,
  ⟨0x06C, 4, 1, 0x0, 0x0, 0x0, 0x0, 0x0, 0x0, 0x0, .live⟩,
  ⟨0x070, 4, 1, 0x0, 0x0, 0x0, 0x0, 0xFFFFFFFF, 0x0, 0x0, .live⟩,
  ⟨0x074, 4, 1, 0x0, 0x0, 0x0, 0x0, 0xFFFFFFFF, 0x0, 0x0, .live⟩,
  ⟨0x078, 4, 1, 0x0, 0x0, 0x0, 0x0, 0xFFFFFFFF, 0x0, 0x0, .live⟩]

/-- Registers of BST. -/
def regsBst : List RegDesc := [
  ⟨0x040, 4, 1, 0xF08DA01, 0xF1FFF03, 0x0, 0x0, 0x0, 0x0, 0x0, .frozen⟩,
  ⟨0x044, 4, 1, 0x190000, 0xFFFFFFFF, 0x0, 0x0, 0x0, 0x0, 0x0, .live⟩,
  ⟨0x048, 4, 1, 0x0, 0xFFFFFFFF, 0x0, 0x0, 0x0, 0x0, 0x0, .live⟩,
  ⟨0x04C, 4, 1, 0x187FFF, 0xFFFFFF, 0x0, 0x0, 0x0, 0x0, 0x0, .live⟩,
  ⟨0x050, 4, 1, 0x0, 0xFFFFFFFF, 0x0, 0x0, 0x0, 0x0, 0x0, .live⟩,
  ⟨0x054, 4, 1, 0x7FFF7FFE, 0xFFFFFFFF, 0x0, 0x0, 0x0, 0x0, 0x0, .live⟩,
  ⟨0x060, 4, 1, 0x0, 0x0, 0x0, 0x0, 0x0, 0x0, 0x0, .live⟩,
  ⟨0x064, 4, 1, 0x0, 0x0, 0x0, 0x0, 0x0, 0x0, 0x0, .live⟩,
  ⟨0x068, 4, 1, 0x0, 0x0, 0x0, 0x0, 0xFFFFFFFF, 0x0, 0x0, .live⟩,
  ⟨0x06C, 4, 1, 0x0, 0x0, 0x0, 0x0, 0xFFFF, 0x0, 0x0, .live⟩]

/-- Registers of SNS. -/
def regsSns : List RegDesc := [
  ⟨0x040, 4, 1, 0x0, 0x6, 0x0, 0x0, 0x0, 0x0, 0x0, .frozen⟩,
  ⟨0x044, 4, 1, 0x0, 0x0, 0x0, 0x0, 0x0, 0x0, 0x0, .live⟩,
  ⟨0x048, 4, 1, 0x0, 0xFFFFFFFF, 0x0, 0x0, 0x0, 0x0, 0x0, .live⟩,
  ⟨0x04C, 4, 1, 0x0, 0xFFFFFFFF, 0x0, 0x0, 0x0, 0x0, 0x0, .live⟩,
  ⟨0x050, 4, 1, 0x0, 0xFFFFFFFF, 0x0, 0x0, 0x0, 0x0, 0x0, .live⟩,
  ⟨0x054, 4, 1, 0x0, 0xFFFFFFFF, 0x0, 0x0, 0x0, 0x0, 0x0, .live⟩,
  ⟨0x058, 4, 1, 0x0, 0xFFFF, 0x0, 0x0, 0x0, 0x0, 0x0, .live⟩,
  ⟨0x05C, 4, 1, 0x0, 0xFFFFFFFF, 0x0, 0x0, 0x0, 0x0, 0x0, .live⟩,
  ⟨0x060, 4, 12, 0x0, 0x0, 0x0, 0x0, 0x0, 0x0, 0x0, .live⟩,
  ⟨0x090, 4, 1, 0x0, 0x0, 0x0, 0x0, 0x0, 0x0, 0x0, .live⟩,
  ⟨0x094, 4, 1, 0x0, 0x0, 0x0, 0x0, 0xFFFFFFFF, 0x0, 0x0, .live⟩]

/-- Registers of MEA. -/
def regsMea : List RegDesc := [
  ⟨0x040, 4, 1, 0x0, 0xF, 0x0, 0xC0000000, 0x0, 0x0, 0x0, .live⟩,
  ⟨0x044, 4, 1, 0x960, 0xFFFF, 0x0, 0x0, 0x0, 0x0, 0x0, .live⟩,
  ⟨0x048, 4, 1, 0x0, 0xFFFF, 0x0, 0x0, 0x0, 0x0, 0x0, .live⟩,
  ⟨0x04C, 4, 1, 0x0, 0xFFFFFFFF, 0x0, 0x0, 0x0, 0x0, 0x0, .live⟩,
  ⟨0x050, 4, 1, 0x0, 0xFFFF, 0x0, 0x0, 0x0, 0x0, 0x0, .live⟩,
  ⟨0x054, 4, 1, 0x0, 0x0, 0x0, 0x0, 0x0, 0x0, 0x0, .live⟩,
  ⟨0x058, 4, 1, 0x0, 0x0, 0x0, 0x0, 0x0, 0x0, 0x0, .live⟩,
  ⟨0x05C, 4, 1, 0x0, 0x0, 0x0, 0x0, 0x0, 0x0, 0x0, .live⟩,
  ⟨0x060, 4, 1, 0x0, 0x0, 0x0, 0x0, 0x0, 0x0, 0x0, .live⟩,
  ⟨0x064, 4, 1, 0x0, 0x0, 0x0, 0x0, 0xFFFFFFFF, 0x0, 0x0, .live⟩,
  ⟨0x068, 4, 1, 0x0, 0xFF, 0x0, 0x0, 0x0, 0x0, 0x0, .live⟩,
  ⟨0x080, 4, 32, 0x0, 0xC00003FF, 0x0, 0x0, 0x0, 0x0, 0x0, .live⟩,
  ⟨0x100, 32, 8, 0x3C, 0x43FF3FFF, 0x0, 0x0, 0x0, 0x0, 0x0, .frozen⟩,
  ⟨0x104, 32, 8, 0x0, 0x7FFFFF, 0x0, 0x0, 0x0, 0x0, 0x0, .live⟩,
  ⟨0x108, 32, 8, 0x0, 0xFFFFFFFF, 0x0, 0x0, 0x0, 0x0, 0x0, .live⟩,
  ⟨0x10C, 32, 8, 0x0, 0x0, 0x0, 0x0, 0x0, 0x0, 0x0, .live⟩,
  ⟨0x110, 32, 8, 0xE0000000, 0x0, 0x0, 0x0, 0x0, 0x0, 0x0, .live⟩,
  ⟨0x114, 32, 8, 0x0, 0x0, 0x0, 0x0, 0x0, 0x0, 0x0, .live⟩,
  ⟨0x118, 32, 8, 0x0, 0x0, 0x0, 0x0, 0x0, 0x0, 0x0, .live⟩,
  ⟨0x11C, 32, 8, 0x0, 0x0, 0x0, 0x0, 0xFFFFFFFF, 0x0, 0x0, .live⟩]

/-- Registers of DIAG. -/
def regsDiag : List RegDesc := [
  ⟨0x040, 4, 1, 0x0, 0xFFFF, 0x0, 0xC0000000, 0x0, 0x0, 0x0, .live⟩,
  ⟨0x044, 4, 1, 0x96012C0, 0xFFFFFFFF, 0x0, 0x0, 0x0, 0x0, 0x0, .live⟩,
  ⟨0x048, 4, 1, 0x0, 0xFFFFFFFF, 0x0, 0x0, 0x0, 0x0, 0x0, .live⟩,
  ⟨0x04C, 4, 1, 0x0, 0xFFFFFFFF, 0x0, 0x0, 0x0, 0x0, 0x0, .live⟩,
  ⟨0x050, 4, 1, 0x10100, 0x1077F, 0x0, 0x0, 0x0, 0x0, 0x0, .live⟩,
  ⟨0x054, 4, 4, 0x0, 0xFFFFFFFF, 0x0, 0x0, 0x0, 0x0, 0x0, .live⟩,
  ⟨0x064, 4, 1, 0x3E8, 0xFFFFFFFF, 0x0, 0x0, 0x0, 0x0, 0x0, .live⟩,
  ⟨0x068, 4, 1, 0x30D40, 0xFFFFFFFF, 0x0, 0x0, 0x0, 0x0, 0x0, .live⟩,
  ⟨0x06C, 4, 1, 0x80200, 0xFFFFFFFF, 0x0, 0x0, 0x0, 0x0, 0x0, .live⟩,
  ⟨0x070, 4, 1, 0x0, 0xFFFF, 0x0, 0x0, 0x0, 0x0, 0x0, .live⟩,
  ⟨0x074, 4, 1, 0x4055F0, 0xFFFFFF, 0x0, 0x0, 0x0, 0x0, 0x0, .live⟩,
  ⟨0x078, 4, 1, 0xA43AA2, 0xFFFFFFFF, 0x0, 0x0, 0x0, 0x0, 0x0, .live⟩,
  ⟨0x07C, 4, 1, 0x960, 0xFFFF, 0x0, 0x80000000, 0x0, 0x0, 0x0, .live⟩,
  ⟨0x080, 4, 1, 0x0, 0x0, 0x0, 0x0, 0x0, 0x0, 0x0, .live⟩,
  ⟨0x200, 64, 16, 0x0, 0x0, 0x0, 0x0, 0x0, 0x0, 0x0, .live⟩,
  ⟨0x204, 64, 16, 0x0, 0x0, 0x0, 0x0, 0x0, 0x0, 0x0, .live⟩,
  ⟨0x208, 64, 16, 0x0, 0x0, 0x0, 0x0, 0x0, 0x0, 0x0, .live⟩,
  ⟨0x20C, 64, 16, 0x0, 0x0, 0x0, 0x0, 0x0, 0x0, 0x0, .live⟩,
  ⟨0x210, 64, 16, 0x0, 0x0, 0x0, 0x0, 0x0, 0x0, 0x0, .live⟩,
  ⟨0x214, 64, 16, 0x0, 0x0, 0x0, 0x0, 0x0, 0x0, 0x0, .live⟩,
  ⟨0x218, 64, 16, 0x0, 0x0, 0x0, 0x0, 0x0, 0x0, 0x0, .live⟩,
  ⟨0x21C, 64, 16, 0x0, 0x0, 0x0, 0x0, 0x0, 0x0, 0x0, .live⟩,
  ⟨0x220, 64, 16, 0x0, 0x0, 0x0, 0x0, 0x0, 0x0, 0x0, .live⟩,
  ⟨0x224, 64, 16, 0x0, 0x0, 0x0, 0x0, 0x0, 0x0, 0x0, .live⟩,
  ⟨0x228, 64, 16, 0x0, 0x0, 0x0, 0x0, 0x0, 0x0, 0x0, .live⟩,
  ⟨0x22C, 64, 16, 0x0, 0x0, 0x0, 0x0, 0x0, 0x0, 0x0, .live⟩,
  ⟨0x230, 64, 16, 0x0, 0x0, 0x0, 0x0, 0x0, 0x0, 0x0, .live⟩,
  ⟨0x234, 64, 16, 0x0, 0x0, 0x0, 0x0, 0x0, 0x0, 0x0, .live⟩,
  ⟨0x238, 64, 16, 0x0, 0x0, 0x0, 0x0, 0x0, 0x0, 0x0, .live⟩,
  ⟨0x23C, 64, 16, 0x0, 0xFFFFFFFF, 0x0, 0x0, 0x0, 0x0, 0x0, .live⟩]

/-- Registers of QDESC. -/
def regsQdesc : List RegDesc := [
  ⟨0x000, 4, 1, 0x0, 0x80000000, 0x0, 0x40000000, 0x0, 0x0, 0x0, .live⟩,
  ⟨0x004, 4, 1, 0x100, 0x8000FFFF, 0x0, 0x0, 0x0, 0x0, 0x0, .frozen⟩,
  ⟨0x008, 4, 1, 0x640000, 0xFFFFFFFF, 0x0, 0x0, 0x0, 0x0, 0x0, .live⟩,
  ⟨0x00C, 4, 1, 0x0, 0x0, 0x0, 0x0, 0x0, 0x0, 0x0, .live⟩]

/-- Registers of QMG. -/
def regsQmg : List RegDesc := [
  ⟨0x040, 4, 1, 0x10000, 0x0, 0x0, 0x0, 0x0, 0x0, 0x0, .live⟩,
  ⟨0x044, 4, 1, 0x10000, 0x0, 0x0, 0x0, 0x1FFFF, 0x0, 0x0, .live⟩,
  ⟨0x048, 4, 1, 0x2000, 0x1FFFF, 0x0, 0x0, 0x0, 0x0, 0x0, .live⟩,
  ⟨0x04C, 4, 1, 0x0, 0x0, 0x0, 0x0, 0x0, 0x0, 0x0, .live⟩,
  ⟨0x050, 4, 1, 0x64, 0xFFFF, 0x0, 0x0, 0x0, 0x0, 0x0, .live⟩,
  ⟨0x054, 4, 1, 0x0, 0x0, 0x0, 0x0, 0x0, 0x0, 0x0, .live⟩,
  ⟨0x060, 4, 1, 0x0, 0x3FF, 0x0, 0x0, 0x0, 0x0, 0x0, .none⟩,
  ⟨0x064, 4, 1, 0x0, 0x0, 0x0, 0x0, 0x0, 0x1, 0x0, .none⟩,
  ⟨0x068, 4, 1, 0x0, 0x0, 0x0, 0x0, 0x0, 0x0, 0x0, .live⟩,
  ⟨0x070, 4, 1, 0x0, 0x3FF, 0x0, 0x0, 0x0, 0x0, 0x0, .none⟩,
  ⟨0x074, 4, 1, 0x0, 0x0, 0x0, 0x0, 0x0, 0x0, 0x0, .live⟩,
  ⟨0x080, 4, 1, 0x0, 0x0, 0x0, 0x0, 0xFFFFFFFF, 0x0, 0x0, .live⟩,
  ⟨0x084, 4, 1, 0x0, 0x0, 0x0, 0x0, 0xFFFFFFFF, 0x0, 0x0, .live⟩,
  ⟨0x088, 4, 1, 0x0, 0x0, 0x0, 0x0, 0xFFFFFFFF, 0x0, 0x0, .live⟩,
  ⟨0x08C, 4, 1, 0x0, 0x0, 0x0, 0x0, 0xFFFFFFFF, 0x0, 0x0, .live⟩,
  ⟨0x100, 4, 32, 0x0, 0x0, 0xFFFFFFFF, 0x0, 0x0, 0x0, 0x0, .live⟩,
  ⟨0x200, 4, 128, 0x0, 0x0, 0x0, 0x0, 0x0, 0x0, 0x0, .live⟩,
  ⟨0x400, 4, 256, 0x0, 0x0, 0x0, 0x0, 0x0, 0xFFFFFFFF, 0x0, .none⟩]

/-- Registers of MEM. -/
def regsMem : List RegDesc := [
  ⟨0x040, 4, 1, 0x80400000, 0x80FF0003, 0x0, 0x0, 0x0, 0x0, 0x0, .live⟩,
  ⟨0x044, 4, 1, 0x0, 0x0, 0x0, 0x0, 0x0, 0x0, 0x0, .live⟩,
  ⟨0x048, 4, 1, 0x0, 0x0, 0x0, 0x0, 0x0, 0x0, 0x0, .live⟩,
  ⟨0x04C, 4, 1, 0x0, 0x0, 0x0, 0x0, 0x0, 0x0, 0x0, .live⟩,
  ⟨0x050, 4, 1, 0x0, 0x0, 0x0, 0x0, 0xFFFFFFFF, 0x0, 0x0, .live⟩,
  ⟨0x054, 4, 1, 0x0, 0x0, 0x0, 0x0, 0x0, 0x0, 0x0, .live⟩,
  ⟨0x058, 4, 1, 0x0, 0x0, 0x0, 0x0, 0xFFFFFFFF, 0x0, 0x0, .live⟩,
  ⟨0x05C, 4, 1, 0x0, 0x0, 0x0, 0x0, 0xFFFFFFFF, 0x0, 0x0, .live⟩,
  ⟨0x060, 4, 1, 0x0, 0x0, 0x0, 0x0, 0x0, 0x0, 0x0, .live⟩]

/-- Registers of SEC. -/
def regsSec : List RegDesc := [
  ⟨0x040, 4, 1, 0x0, 0x0, 0x0, 0x0, 0x0, 0x0, 0x0, .live⟩,
  ⟨0x044, 4, 1, 0x0, 0x0, 0x0, 0x3, 0x0, 0x0, 0x0, .live⟩,
  ⟨0x048, 4, 1, 0x0, 0x0, 0x0, 0x0, 0x0, 0x0, 0x0, .live⟩,
  ⟨0x04C, 4, 1, 0x0, 0x0, 0x0, 0x0, 0x0, 0x0, 0x0, .live⟩]

/-- Registers of XBR. -/
def regsXbr : List RegDesc := [
  ⟨0x040, 4, 1, 0x0, 0x1FF00FF, 0x0, 0x0, 0x0, 0x0, 0x0, .staged⟩,
  ⟨0x044, 4, 1, 0x64, 0xFFFF, 0x0, 0x0, 0x0, 0x0, 0x0, .live⟩,
  ⟨0x048, 4, 1, 0x100100, 0x1F01FF, 0x0, 0x0, 0x0, 0x0, 0x0, .live⟩,
  ⟨0x04C, 4, 1, 0x40, 0xFF, 0x0, 0x0, 0x0, 0x0, 0x0, .live⟩,
  ⟨0x050, 4, 1, 0x0, 0x0, 0x0, 0x0, 0x0, 0x0, 0x0, .live⟩,
  ⟨0x054, 4, 1, 0x0, 0x0, 0x0, 0x0, 0x0, 0x0, 0x0, .live⟩,
  ⟨0x058, 4, 1, 0x0, 0x0, 0x0, 0x0, 0xFFFFFFFF, 0x0, 0x0, .live⟩,
  ⟨0x05C, 4, 1, 0x0, 0x0, 0x0, 0x0, 0xFFFFFFFF, 0x0, 0x0, .live⟩,
  ⟨0x060, 4, 1, 0x0, 0x0, 0x0, 0x0, 0xFFFFFFFF, 0x0, 0x0, .live⟩,
  ⟨0x064, 4, 1, 0x0, 0x0, 0x0, 0x0, 0xFFFFFFFF, 0x0, 0x0, .live⟩,
  ⟨0x068, 4, 1, 0x0, 0x0, 0x0, 0x0, 0x0, 0x0, 0x0, .live⟩]

/-- Registers of SEQ. -/
def regsSeq : List RegDesc := [
  ⟨0x040, 4, 1, 0x0, 0x0, 0x0, 0x0, 0x0, 0x0, 0x0, .live⟩,
  ⟨0x100, 32, 8, 0x0, 0x373FF01F, 0x0, 0x0, 0x0, 0x0, 0x0, .frozen⟩,
  ⟨0x104, 32, 8, 0x0, 0x80000000, 0x0, 0x3, 0x0, 0x0, 0x0, .live⟩,
  ⟨0x108, 32, 8, 0x0, 0x3FFFF, 0x0, 0x0, 0x0, 0x0, 0x0, .frozen⟩,
  ⟨0x10C, 32, 8, 0xF0, 0xFFFF, 0x0, 0x0, 0x0, 0x0, 0x0, .live⟩,
  ⟨0x110, 32, 8, 0x0, 0x0, 0x0, 0x0, 0x0, 0x0, 0x0, .live⟩,
  ⟨0x114, 32, 8, 0x0, 0x0, 0x0, 0x0, 0x0, 0x0, 0x0, .live⟩,
  ⟨0x118, 32, 8, 0x0, 0x0, 0x0, 0x0, 0xFFFFFFFF, 0x0, 0x0, .live⟩,
  ⟨0x11C, 32, 8, 0x0, 0x0, 0x0, 0x0, 0xFFFFFFFF, 0x0, 0x0, .live⟩]

/-- Registers of HIF. -/
def regsHif : List RegDesc := [
  ⟨0x040, 4, 1, 0x2, 0x3, 0x0, 0x0, 0x0, 0x0, 0x0, .staged⟩,
  ⟨0x044, 4, 1, 0xA0064, 0xFFFFFFFF, 0x0, 0x0, 0x0, 0x0, 0x0, .live⟩,
  ⟨0x048, 4, 1, 0x0, 0x0, 0x0, 0x0, 0x0, 0x0, 0x0, .live⟩,
  ⟨0x04C, 4, 1, 0x0, 0x0, 0x7F0, 0x0, 0x0, 0x0, 0x0, .live⟩,
  ⟨0x050, 4, 1, 0xFF0, 0xFF0, 0x0, 0x0, 0x0, 0x0, 0x0, .live⟩,
  ⟨0x054, 4, 1, 0x0, 0x0, 0x0, 0x0, 0x0, 0x0, 0x0, .live⟩,
  ⟨0x058, 4, 1, 0x0, 0x0, 0xFFFE, 0x0, 0x0, 0x0, 0x0, .live⟩,
  ⟨0x05C, 4, 1, 0x0, 0x800003FF, 0x0, 0x0, 0x0, 0x0, 0x0, .live⟩,
  ⟨0x060, 4, 1, 0x0, 0x0, 0x0, 0x0, 0x0, 0x0, 0x0, .live⟩,
  ⟨0x064, 4, 1, 0x0, 0x0, 0x0, 0x0, 0x0, 0x0, 0x0, .live⟩,
  ⟨0x070, 4, 1, 0x0, 0x0, 0x0, 0x0, 0xFFFFFFFF, 0x0, 0x0, .live⟩,
  ⟨0x074, 4, 1, 0x0, 0x0, 0x0, 0x0, 0xFFFFFFFF, 0x0, 0x0, .live⟩,
  ⟨0x078, 4, 1, 0x0, 0x0, 0x0, 0x0, 0xFFFFFFFF, 0x0, 0x0, .live⟩,
  ⟨0x07C, 4, 1, 0x0, 0x0, 0x0, 0x0, 0xFFFFFFFF, 0x0, 0x0, .live⟩,
  ⟨0x080, 4, 1, 0x0, 0x0, 0x0, 0x0, 0xFFFFFFFF, 0x0, 0x0, .live⟩]

/-- Registers of FLT. -/
def regsFlt : List RegDesc := [
  ⟨0x040, 4, 1, 0x4, 0xFF, 0x0, 0x0, 0x0, 0x0, 0x0, .live⟩,
  ⟨0x044, 4, 1, 0x30A, 0xFFF, 0x0, 0x0, 0x0, 0x0, 0x0, .live⟩,
  ⟨0x048, 4, 1, 0x1, 0x1, 0x0, 0x0, 0x0, 0x0, 0x0, .live⟩,
  ⟨0x050, 4, 1, 0x0, 0x0, 0x0, 0x0, 0x0, 0x0, 0x0, .live⟩,
  ⟨0x054, 4, 1, 0x0, 0x0, 0x0, 0x7, 0x0, 0x0, 0x0, .live⟩,
  ⟨0x060, 4, 4, 0x0, 0x0, 0x0, 0x0, 0x0, 0x0, 0x0, .live⟩,
  ⟨0x070, 4, 4, 0x0, 0x0, 0x0, 0x0, 0x0, 0x0, 0x0, .live⟩,
  ⟨0x080, 4, 1, 0x0, 0xFF, 0x0, 0x0, 0x0, 0x0, 0x0, .none⟩,
  ⟨0x084, 4, 4, 0x0, 0x0, 0x0, 0x0, 0x0, 0x0, 0x0, .live⟩,
  ⟨0x0A0, 4, 4, 0x0, 0x0, 0x0, 0x0, 0x0, 0x0, 0x0, .live⟩,
  ⟨0x0B0, 4, 1, 0x0, 0x0, 0x0, 0x3FFFF, 0x0, 0x0, 0x0, .live⟩,
  ⟨0x0B4, 4, 1, 0x0, 0x0, 0x0, 0x0, 0x0, 0x0, 0x0, .live⟩,
  ⟨0x0C0, 4, 1, 0x0, 0x0, 0x0, 0x0, 0xFFFFFFFF, 0x0, 0x0, .live⟩,
  ⟨0x0C4, 4, 1, 0x0, 0x0, 0x0, 0x0, 0xFFFFFFFF, 0x0, 0x0, .live⟩,
  ⟨0x0C8, 4, 1, 0x0, 0x0, 0x0, 0x0, 0xFFFFFFFF, 0x0, 0x0, .live⟩,
  ⟨0x0CC, 4, 1, 0x0, 0x0, 0x0, 0x0, 0xFFFFFFFF, 0x0, 0x0, .live⟩,
  ⟨0x0D0, 4, 1, 0x0, 0x0, 0x0, 0x0, 0xFFFFFFFF, 0x0, 0x0, .live⟩,
  ⟨0x100, 4, 16, 0x0, 0xF3FF00FF, 0x0, 0x0, 0x0, 0x0, 0x0, .live⟩,
  ⟨0x140, 4, 16, 0x0, 0xBFFFFFFF, 0x0, 0x0, 0x0, 0x0, 0x0, .live⟩]

/-- Registers of RED. -/
def regsRed : List RegDesc := [
  ⟨0x040, 4, 1, 0xC0000000, 0xE0000000, 0x0, 0x0, 0x0, 0x0, 0x0, .frozen⟩,
  ⟨0x044, 4, 1, 0x4000, 0xFFFF, 0x0, 0x0, 0x0, 0x0, 0x0, .frozen⟩,
  ⟨0x048, 4, 1, 0x0, 0x0, 0x0, 0x0, 0x0, 0x0, 0x0, .live⟩,
  ⟨0x04C, 4, 1, 0x0, 0x0, 0x0, 0x0, 0x0, 0x0, 0x0, .live⟩,
  ⟨0x050, 4, 1, 0x96003E8, 0xFFFFFFFF, 0x0, 0x0, 0x0, 0x0, 0x0, .live⟩,
  ⟨0x054, 4, 1, 0x0, 0xFFFFFFFF, 0x0, 0x0, 0x0, 0x0, 0x0, .live⟩,
  ⟨0x058, 4, 1, 0x0, 0x0, 0x0, 0x7, 0x0, 0x0, 0x0, .live⟩,
  ⟨0x05C, 4, 1, 0x0, 0x8F00FFFF, 0x0, 0x0, 0x0, 0x0, 0x0, .live⟩,
  ⟨0x060, 4, 1, 0x0, 0xFFFFFFFF, 0x0, 0x0, 0x0, 0x0, 0x0, .live⟩,
  ⟨0x064, 4, 1, 0x0, 0x0, 0x0, 0x0, 0x0, 0x0, 0x0, .live⟩,
  ⟨0x068, 4, 1, 0x0, 0x0, 0x0, 0x0, 0x0, 0x0, 0x0, .live⟩,
  ⟨0x06C, 4, 1, 0x0, 0x0, 0x0, 0x0, 0x0, 0x0, 0x0, .live⟩,
  ⟨0x070, 4, 1, 0x0, 0x0, 0x0, 0x0, 0x0, 0x0, 0x0, .live⟩,
  ⟨0x080, 4, 1, 0x0, 0x0, 0x0, 0x0, 0xFFFFFFFF, 0x0, 0x0, .live⟩,
  ⟨0x084, 4, 1, 0x0, 0x0, 0x0, 0x0, 0xFFFFFFFF, 0x0, 0x0, .live⟩,
  ⟨0x088, 4, 1, 0x0, 0x0, 0x0, 0x0, 0xFFFFFFFF, 0x0, 0x0, .live⟩,
  ⟨0x08C, 4, 1, 0x0, 0x0, 0x0, 0x0, 0xFFFFFFFF, 0x0, 0x0, .live⟩,
  ⟨0x090, 4, 1, 0x0, 0x0, 0x0, 0x0, 0xFFFFFFFF, 0x0, 0x0, .live⟩,
  ⟨0x0C0, 4, 8, 0x0, 0x0, 0x0, 0x0, 0x0, 0x0, 0x0, .live⟩,
  ⟨0x100, 4, 32, 0x0, 0xFFFFFFFF, 0x0, 0x0, 0x0, 0x0, 0x0, .live⟩]

/-- Registers of DEV. -/
def regsDev : List RegDesc := [
  ⟨0x040, 4, 1, 0x1, 0x0, 0x0, 0x0, 0x0, 0x0, 0x0, .live⟩,
  ⟨0x044, 4, 1, 0x0, 0x0, 0x0, 0x1, 0x0, 0x0, 0x0, .live⟩,
  ⟨0x048, 4, 1, 0x0, 0x0, 0x0, 0x0, 0x0, 0xFFFF0001, 0x0, .live⟩,
  ⟨0x04C, 4, 1, 0x0, 0x0, 0x0, 0x0, 0x0, 0x0, 0x0, .live⟩,
  ⟨0x050, 4, 1, 0x0, 0x0, 0x0, 0x0, 0x0, 0x0, 0x0, .live⟩,
  ⟨0x054, 4, 1, 0x0, 0x0, 0x0, 0x0, 0x0, 0x0, 0x0, .live⟩,
  ⟨0x058, 4, 1, 0x0, 0x0, 0x0, 0x0, 0x0, 0x0, 0x0, .live⟩,
  ⟨0x05C, 4, 1, 0xA, 0x3FF, 0x0, 0x0, 0x0, 0x0, 0x0, .live⟩,
  ⟨0x060, 4, 1, 0x0, 0x0, 0x0, 0x0, 0x0, 0x0, 0x0, .live⟩,
  ⟨0x064, 4, 1, 0x0, 0x0, 0x0, 0x0, 0x0, 0x0, 0x0, .live⟩,
  ⟨0x068, 4, 1, 0x0, 0xFFFF0007, 0x0, 0x0, 0x0, 0x0, 0x0, .live⟩,
  ⟨0x06C, 4, 1, 0x0, 0x0, 0x0, 0x1, 0x0, 0x0, 0x0, .live⟩,
  ⟨0x070, 4, 1, 0x0, 0x0, 0x300, 0x0, 0x0, 0x0, 0x0, .live⟩,
  ⟨0x074, 4, 1, 0x0, 0x0, 0x0, 0x0, 0xFFFFFFFF, 0x0, 0x0, .live⟩,
  ⟨0x078, 4, 1, 0x0, 0x0, 0x0, 0x0, 0x0, 0x0, 0x0, .live⟩]

/-- Registers of CLK. -/
def regsClk : List RegDesc := [
  ⟨0x040, 4, 1, 0x0, 0x0, 0x0, 0x0, 0x0, 0x0, 0x0, .live⟩,
  ⟨0x044, 4, 1, 0x0, 0x0, 0x0, 0x1, 0x0, 0x0, 0x0, .live⟩]

/-- Registers of DBG. -/
def regsDbg : List RegDesc := [
  ⟨0x040, 4, 1, 0x0, 0x1, 0x0, 0x0, 0x0, 0x0, 0x0, .live⟩,
  ⟨0x044, 4, 1, 0x0, 0x0, 0x0, 0x0, 0x0, 0x0, 0x0, .live⟩,
  ⟨0x048, 4, 1, 0x0, 0x0, 0x0, 0x1, 0x0, 0x0, 0x0, .none⟩,
  ⟨0x04C, 4, 1, 0x0, 0x0, 0x0, 0x0, 0x0, 0x0, 0x0, .live⟩,
  ⟨0x050, 4, 1, 0x0, 0x0, 0x0, 0x0, 0x0, 0x0, 0x0, .live⟩,
  ⟨0x054, 4, 1, 0x0, 0x0, 0x0, 0x0, 0x0, 0x0, 0x0, .live⟩,
  ⟨0x058, 4, 1, 0x0, 0x0, 0x0, 0x0, 0x0, 0x0, 0x0, .live⟩,
  ⟨0x05C, 4, 1, 0x0, 0x0, 0x0, 0x0, 0x0, 0x0, 0x0, .live⟩,
  ⟨0x060, 4, 1, 0x0, 0xF3FF00FF, 0x0, 0x0, 0x0, 0x0, 0x0, .none⟩,
  ⟨0x064, 4, 1, 0x0, 0x3FFFF, 0x0, 0x0, 0x0, 0x0, 0x0, .none⟩,
  ⟨0x068, 4, 1, 0x0, 0x0, 0x0, 0x0, 0x0, 0x0, 0x0, .live⟩,
  ⟨0x06C, 4, 1, 0x1D0245CB, 0x0, 0x0, 0x0, 0x0, 0x0, 0x0, .live⟩]

/-- The block-specific flags of PG_FLT (bits [31:8]) that a kind of page implements. -/
def fltBlockMask : PageKind → Word
  | .mac => 0x700
  | .refs => 0x700
  | .mcg => 0x100
  | .strg => 0x100
  | .spx => 0x300
  | .tile => 0x700
  | .tdm => 0xF00
  | .aesi => 0x700
  | .aeso => 0x300
  | .drv => 0xF00
  | .bst => 0x300
  | .sns => 0x300
  | .diag => 0x100
  | .qmg => 0x300
  | .mem => 0x700
  | .xbr => 0xF00
  | .seq => 0x100
  | .red => 0x700
  | .dev => 0xF00
  | .plk => 0x100
  | _ => 0

/-- The block-specific events of PG_EVT (bits [31:8]) that a kind of page implements. -/
def evtBlockMask : PageKind → Word
  | .mac => 0x1F00
  | .tsu => 0x1F00
  | .tpg => 0xFFFF00
  | .refs => 0x7F00
  | .mcg => 0x700
  | .strg => 0x300
  | .spx => 0x700
  | .latg => 0x300
  | .tile => 0x300
  | .tdm => 0x1F00
  | .aesi => 0x1F00
  | .aeso => 0x700
  | .asrc => 0x300
  | .drv => 0xF00
  | .bst => 0xF00
  | .sns => 0x300
  | .mea => 0xFF0700
  | .diag => 0x700
  | .qmg => 0x700
  | .mem => 0x300
  | .sec => 0x700
  | .seq => 0x3FFFF00
  | .hif => 0x700
  | .flt => 0xF00
  | .red => 0x1F00
  | .dev => 0xF00
  | .plk => 0xF00
  | _ => 0

end Sys2Proof.Machine
end

