-- ==== Sys2Proof/Machine/SMap.lean ====
section
/-! DEFINITION. Sparse tables in one canonical form: a list of key and value pairs, keys strictly rising. -/

namespace Sys2Proof.Machine

/-- A table from numbers to values; an unlisted key holds the default its user names. -/
abbrev SMap (α : Type) := List (Nat × α)

/-- The value listed for a key. -/
def SMap.find {α : Type} : SMap α → Nat → Option α
  | [], _ => none
  | (k', v) :: m, k => if k' = k then some v else SMap.find m k

/-- List a key with a value, replacing what it held; keys stay in rising order. -/
def SMap.put {α : Type} : SMap α → Nat → α → SMap α
  | [], k, v => [(k, v)]
  | (k', v') :: m, k, v =>
    if k < k' then (k, v) :: (k', v') :: m
    else if k = k' then (k, v) :: m
    else (k', v') :: SMap.put m k v

/-- Take a key off the list. -/
def SMap.del {α : Type} : SMap α → Nat → SMap α
  | [], _ => []
  | (k', v) :: m, k => if k' = k then SMap.del m k else (k', v) :: SMap.del m k

/-- The value of a key, or the default. -/
def SMap.get {α : Type} (d : α) (m : SMap α) (k : Nat) : α := (m.find k).getD d

/-- Keep the entries whose key satisfies a test. -/
def SMap.keep {α : Type} (f : Nat → Bool) (m : SMap α) : SMap α := m.filter (fun e => f e.1)

/-- The keys of a list rise strictly. -/
def SMap.Rising {α : Type} : SMap α → Bool
  | [] => true
  | [_] => true
  | (k, _) :: (k', v) :: m => decide (k < k') && SMap.Rising ((k', v) :: m)

end Sys2Proof.Machine
end

