-- ==== Sys2Proof/Machine/Parts.lean ====
section
/-! DEFINITION. The parts of the state that are no register: what the blocks hold beside their register pages. -/

namespace Sys2Proof.Machine

/-- The power and reset phases of the core (R514 to R519). -/
inductive Phase where
  /-- VAUX is absent (R515). -/
  | vauxOff
  /-- The core is held in reset. -/
  | held
  /-- Start-up has begun at t0 and the PLLs have not all locked (Table 20.3). -/
  | starting
  /-- The core domains are released. -/
  | on
  /-- MODE EXTEST: the core stays in reset after its PLLs lock (Table 20.2). -/
  | extest
  deriving DecidableEq, Repr

/-- A fault message on its way to FLT (R454). -/
structure FltMsg where
  /-- Source page. -/
  src   : Nat := 0
  /-- The PG_FLT bit it comes from. -/
  bit   : Nat := 0
  /-- Kind code (Table 17.1). -/
  kind  : Nat := 0
  /-- Context. -/
  ctx   : Word := 0
  /-- Severity Crimson. -/
  crim  : Bool := false
  /-- Reaction code of Table 17.2, 0 for none. -/
  react : Nat := 0
  /-- Repeat count (R455). -/
  rpt   : Nat := 0
  /-- Type CEASE; otherwise RAISE. -/
  cease : Bool := false
  /-- The kind is a level kind (R456). -/
  level : Bool := false
  /-- The block was shadowed at the detection, so it has not started the reset that the message names (R471). -/
  held  : Bool := false
  /-- The reset that the message names is absorbed by one that was asked for or ran at the detection (R469). -/
  abs   : Bool := false
  deriving DecidableEq, Repr

/-- A level condition that a block has raised and that has not ended (R456, R468). -/
structure Level where
  /-- Source page. -/
  src  : Nat := 0
  /-- PG_FLT bit. -/
  bit  : Nat := 0
  /-- Kind code. -/
  kind : Nat := 0
  /-- Context of its RAISE. -/
  ctx  : Word := 0
  /-- Severity Crimson. -/
  crim : Bool := false
  /-- Its RAISE was sent. -/
  sent : Bool := false
  deriving DecidableEq, Repr

/-- A fault record (Table 17.4). -/
structure FltRec where
  src       : Nat := 0
  kind      : Nat := 0
  /-- 0 Amber, 1 Crimson, 2 Slate. -/
  sev       : Nat := 0
  react     : Nat := 0
  transient : Bool := false
  reraised  : Bool := false
  promoted  : Bool := false
  absorbed  : Bool := false
  count     : Nat := 0
  ctx       : Word := 0
  timeNs    : Nat := 0
  timeSec   : Word := 0
  /-- The message was of a level kind (R467). -/
  level     : Bool := false
  /-- The message as it was sent, for R472. -/
  msg       : FltMsg := {}
  /-- It has been raised again (R472). -/
  again     : Bool := false
  deriving DecidableEq, Repr

/-- A reaction shadow (R470). -/
structure Shadow where
  /-- Pages covered. -/
  pages : List Nat := []
  /-- The tick whose start at FLT ends it. -/
  until_ : Nat := 0
  deriving DecidableEq, Repr

/-- FLT beside its registers (17). -/
structure FltSt where
  /-- Messages waiting for acceptance, in the order sent (R455). -/
  msgs     : List FltMsg := []
  /-- Level conditions not ended. -/
  levels   : List Level := []
  /-- The record FIFO, oldest first; at most 256 (R462). -/
  recs     : List FltRec := []
  /-- FLT_FIRST (R464). -/
  first    : Option FltRec := none
  /-- The newest record is a FAULT_OVERFLOW. -/
  overflow : Bool := false
  /-- Open shadows. -/
  shadows  : List Shadow := []
  /-- Restarts of each subsystem: the FRC counts at which they started, newest first (R473). -/
  restarts : SMap (List Nat) := []
  /-- The page index after the last page served, for the rotating order (R455). -/
  rotor    : Nat := 0
  /-- SAFE_OUT stands (R458). -/
  safeOut  : Bool := false
  /-- An OUT_RELEASE waits for FLT's boundary. -/
  outRel   : Bool := false
  /-- An OUT_SET waits for FLT's boundary. -/
  outSet   : Bool := false
  /-- Channels held by R459, one bit each. -/
  safeDrv  : BitVec 16 := 0
  /-- DRV_RELEASE bits waiting for FLT's boundary. -/
  drvRel   : BitVec 16 := 0
  /-- Boost gates held low by a SAFE_DRV reaction (R459). -/
  safeBst  : BitVec 4 := 0
  /-- The cause record kept in VAUX (R475). -/
  retained : Option FltRec := none
  /-- It awaits storage (R475). -/
  retWait  : Bool := false
  /-- FLT_RETAIN0 to FLT_RETAIN3. -/
  retWords : List Word := []
  deriving DecidableEq, Repr

/-- What the levels L0 to L4 hold beside the registers (01). -/
structure ArchSt where
  /-- For each page, the number of the tick last begun at the block. -/
  began     : SMap Nat := []
  /-- Flags written to PG_FLT_FORCE that wait for the next boundary (R53). -/
  force     : SMap Word := []
  /-- Block resets requested, with their LAST_RESET_CAUSE (R14). -/
  rstReq    : SMap Nat := []
  /-- L0 restarts of each unit's operation: page × 16 + unit (R12). -/
  restarts  : SMap Nat := []
  /-- Pages that raised their progress signal since their subsystem's last restart of the watchdog (R18). -/
  progress  : SMap Bool := []
  /-- Subsystems whose watchdog expired and has not restarted since. -/
  dead      : SMap Bool := []
  /-- Subsystems live in the last token; none when no token has come (R19). -/
  token     : Option (BitVec 16) := none
  /-- FRC as that token came (R475). -/
  tokenAt   : Nat := 0
  /-- A device reset sequence of Table 17.3 is running: its DEV_RESET_CAUSE code. -/
  resetSeq  : Option Nat := none
  /-- For each page in reset, the rank of the reset: 1 a block reset, 2 a subsystem restart (R469). -/
  rankReset : SMap Nat := []
  /-- Operations of class L written to an engaged block, in the order written: the register's number and the bits that wait
  for the block's boundary (R59, Table 2.11). -/
  acts      : List (Nat × Word) := []
  deriving DecidableEq, Repr

/-- An entry of the TXTS queue (R123). -/
structure TxtsEntry where
  err     : Bool := false
  nonPtp  : Bool := false
  port    : Nat := 0
  msgType : Nat := 0
  seqId   : Nat := 0
  /-- Local time, units of 2^-16 ns. -/
  time    : Nat := 0
  deriving DecidableEq, Repr

/-- A pulse generator of TPG (R128 to R132). -/
structure GenSt where
  /-- Armed and running. -/
  active : Bool := false
  /-- A write of ARM waits for TPG's boundary: the value written. -/
  armReq : Option Bool := none
  base     : Bool := false
  periodic : Bool := false
  start0 : Nat := 0
  start1 : Nat := 0
  start2 : Nat := 0
  period : Nat := 0
  frac   : Nat := 0
  width  : Nat := 0
  count  : Nat := 0
  /-- The next pulse. -/
  next   : Nat := 0
  /-- A pulse is in progress. -/
  level  : Bool := false
  /-- When it ends, and whether that is on the media base (R129, R130). -/
  ends   : Nat := 0
  endsMedia : Bool := false
  deriving DecidableEq, Repr

/-- Network time (04) and the tick counter's records. -/
structure TimeSt where
  /-- FRC (R108). -/
  frc     : DWord := 0
  /-- The anchor count c_A (R109). -/
  ancC    : Nat := 0
  /-- The anchor time T_A, units of 2^-16 ns. -/
  ancT    : Nat := 0
  /-- RATE in force (R109, R111). -/
  rate    : Int := 0
  /-- Anchors before this one, newest first, at most four, each with its RATE: a frame may end after an anchor that its
  destination address crossed before (R116). -/
  before  : List (Nat × Nat × Int) := []
  /-- RATE written and waiting for TSU's boundary (R111). -/
  rateReq : Option Int := none
  /-- The tick number (R31). -/
  tick    : Nat := 0
  /-- A tick has begun: tick 0 begins at the first tick event (Table 20.3). -/
  ticking : Bool := false
  /-- Local time of the start of the current tick (R126). -/
  tickT   : Nat := 0
  /-- The FRC count nearest below that start. -/
  tickC   : Nat := 0
  /-- The TXTS queue, oldest first (R123). -/
  txts    : List TxtsEntry := []
  /-- Local time of the last PPS_IN edge (R127). -/
  ppsIn   : Nat := 0
  /-- The generators (R128). -/
  gens    : SMap GenSt := []
  deriving DecidableEq, Repr

/-- Read latches of one master (R114, R126, R127, R161). -/
structure Latches where
  frcHi   : Word := 0
  nowT    : Nat := 0
  tickNum : Nat := 0
  tickT   : Nat := 0
  ppsT    : Nat := 0
  mcgHi   : Word := 0
  /-- SNS_SLOT1 to SNS_SLOT11 of the frame that a read of SNS_SLOT0 latched, by port (R362). -/
  sns     : SMap (List Word) := []
  deriving DecidableEq, Repr

/-- A frame given to a MAC for transmission (R88). -/
structure TxFrame where
  /-- Express class. -/
  express : Bool := false
  /-- Rank within the class: 0 PTP event, 1 CORRECTION, 2 MEDIA, 3 host express; 4 PAUSE, 5 any other (R88, R98). -/
  rank    : Nat := 0
  /-- Destination address through the last data byte. -/
  bytes   : List Byte := []
  /-- It is forwarded under R86, with its ingress timestamp where TSU took one. -/
  fwd     : Option (Option Nat) := none
  /-- The egress context, segment and tick of a stream frame that is formed as it leaves (R191). -/
  strm    : Option (Nat × Nat × Nat) := none
  /-- Pool cells it holds (R368). -/
  cells   : Nat := 0
  /-- It is to be computed checksums under R95: 0 none, 1 header and UDP, 2 header only. -/
  csum    : Nat := 0
  /-- Its place in the order in which frames and host items became ready on the link (R88). -/
  since   : Nat := 0
  deriving DecidableEq, Repr

/-- Where the head item of a host queue of a MAC stands (R88, R93, R94). -/
inductive HeadSt where
  /-- No head item has been looked at. -/
  | none
  /-- It waits for its launch time. -/
  | waits
  /-- It became ready at this place in the order of the link. -/
  | ready (n : Nat)
  deriving DecidableEq, Repr

/-- A copy of a segment whose frame is still being received (R172, R174). -/
structure RxOpen where
  /-- Its header, 32 bytes. -/
  hdr   : List Byte := []
  /-- The ingress context. -/
  ctx   : Nat := 0
  /-- 0 discarded on the header, 1 the leading copy, 2 a trailing copy, 3 a duplicate (R172, R176, R177). -/
  role  : Nat := 0
  /-- Channels already handed over, in the order of the payload. -/
  done  : Nat := 0
  /-- A channel was refused: every later one is refused as well (R216). -/
  shut  : Bool := false
  deriving DecidableEq, Repr

/-- A network port beside its registers (03). -/
structure PortSt where
  /-- Lock (Table 3.2). -/
  lock      : Bool := false
  /-- Verify frames sent in this run of the protocol (R89). -/
  verifies  : Nat := 0
  /-- Frames with a failing FCS in the window (R102). -/
  fcsCount  : Nat := 0
  /-- FCS_STORM was raised in the window. -/
  fcsRaised : Bool := false
  /-- Frames ready for transmission, in the order they became ready (R88). -/
  ready     : List TxFrame := []
  /-- The head item of EXP_Q, and of PRE_Q. -/
  headExp   : HeadSt := .none
  headPre   : HeadSt := .none
  /-- How many frames and host items have become ready (R88). -/
  serial    : Nat := 0
  /-- The last frame sent, from the destination address through the FCS. -/
  sent      : List Byte := []
  /-- The fragments in which it left; every one but the last ends with its mCRC (R90). -/
  sentFrags : List (List Byte) := []
  /-- The frame in reception in cut-through (R174). -/
  rxOpen    : Option RxOpen := none
  /-- A PAUSE with TX_QUANTA repeats (R98). -/
  xoff      : Bool := false
  /-- The quanta of the PAUSE in force, and the FRC count at which it came (R97). -/
  pauseQ    : Nat := 0
  pauseC    : Nat := 0
  /-- A verify frame, respond frame or fragment the peer sent waits for its answer (R89). -/
  respond   : Bool := false
  deriving DecidableEq, Repr

/-- The network subsystem (03). -/
structure NetSt where
  /-- Links 0 to 4. -/
  ports    : SMap PortSt := []
  /-- A recovery window runs, per link (R100). -/
  recovery : SMap Bool := []
  /-- The mode each port had for its statistics at the last boundary is MAC_STATS_MODE.MODE; DEV reached RUN (R100). -/
  ranOnce  : Bool := false
  deriving DecidableEq, Repr

/-- A linked item: how many words it has, and its cells of B3, which hold them (R365). -/
structure PoolItem where
  words : Nat := 0
  cells : List Nat := []
  deriving DecidableEq, Repr

/-- A queue of QMG (R365 to R367). -/
structure QueueSt where
  /-- Linked items, head first. -/
  items  : List PoolItem := []
  /-- Words popped of the head item. -/
  popped : Nat := 0
  /-- The master that holds the head item, by its number (R379). -/
  holder : Option Nat := none
  /-- A FLUSH waits for QMG's boundary (R382). -/
  flush  : Bool := false
  /-- Of each flush accepted and not complete, the masters whose marked item is still open (R382, R383). -/
  sets   : List (List Nat) := []
  /-- The page of the MAC it is bound to (R385). -/
  boundTo : Option Nat := none
  deriving DecidableEq, Repr

/-- An open item (R366). -/
structure OpenItem where
  queue  : Nat := 0
  /-- How many words it has, and its cells of B3, which hold them (R365). -/
  words  : Nat := 0
  cells  : List Nat := []
  /-- Marked for discard by a flush (R382). -/
  marked : Bool := false
  deriving DecidableEq, Repr

/-- The ports of one master in QMG (R372). -/
structure PortQ where
  /-- QMG_PUSH_Q. -/
  pushQ   : Nat := 0
  /-- QMG_POP_Q. -/
  popQ    : Nat := 0
  open_   : Option OpenItem := none
  /-- Words up to and including the next end mark are discarded (R374). -/
  discard : Bool := false
  /-- RESULT of QMG_PUSH_STAT (Table 13.2). -/
  result  : Nat := 0
  /-- QUEUE of QMG_PUSH_STAT. -/
  resultQ : Nat := 0
  /-- The latched information word (R377). -/
  info    : Word := 0
  /-- The queue a read of this master stalls on (R378). -/
  stall   : Option Nat := none
  /-- The data word of a stalled read that has returned. -/
  stallRes : Option Word := none
  /-- Pops of a burst that the crossbar drains for a master that was reset, their words discarded; the first stalls
  (R408). -/
  drain   : Nat := 0
  /-- The queues of its items that a block reset of QMG cut off, oldest first (R386). -/
  resetRefuse : List Nat := []
  deriving DecidableEq, Repr

/-- The queue manager beside its registers (13). -/
structure QmgSt where
  queues : SMap QueueSt := []
  ports  : SMap PortQ := []
  /-- Masters with a stalled read, in order of arrival (R378). -/
  stalls : List Nat := []
  /-- The queues of whole items that the device's own producers pushed during a block reset, oldest first (R386). -/
  late   : List Nat := []
  deriving DecidableEq, Repr

/-- A lock on a target (R407). -/
structure LockSt where
  /-- The master, by its number. -/
  master : Nat := 0
  /-- Transactions made under it. -/
  txns   : Nat := 0
  /-- It ends when the transaction in progress completes. -/
  ending : Bool := false
  deriving DecidableEq, Repr

/-- The background test of a bank (R396). The shadow buffer of a window holds, word for word, what the memory field of
the state holds: ports never see test patterns (R397). -/
structure BistSt where
  /-- A write of BIST_MODE waits for MEM's boundary. -/
  req    : Bool := false
  /-- A write of 0 to BIST_MODE ends the test after this window. -/
  ending : Bool := false
  deriving DecidableEq, Repr

/-- Memory and bus matrix beside their registers (14). -/
structure MemSt where
  /-- Words with one bit in error, awaiting write-back (R393), by byte address. -/
  wback   : List Nat := []
  /-- Words in error by two bits (R394), by byte address. -/
  dead    : List Nat := []
  /-- Scrub position of each bank, in words (R395). -/
  scrub   : SMap Nat := []
  bist    : SMap BistSt := []
  /-- Conflicts on a macro in which port B stalled since it last won: bank × 4096 + macro (R389). -/
  stalls  : SMap Nat := []
  /-- Locks, by target (R407). -/
  locks   : SMap LockSt := []
  /-- Masters whose lock on a target broke, as master × 16 + target: true while the next transaction is to carry
  BROKEN, false while the rest of the sequence runs unlocked (R407). -/
  broken  : SMap Bool := []
  /-- The address of a transaction of each master that waits for its target (R404, R406). -/
  waits   : SMap Word := []
  /-- Paths whose slice a commit changed while a transaction on them was in flight: m for master Mm, 16 + t for target t
  (R405). -/
  slicing : List Nat := []
  /-- A wipe runs (R401): its cause code. -/
  wiping  : Option Nat := none
  /-- A seal computation runs (R400). -/
  sealing : Bool := false
  /-- The secure-bank check of start-up has been made (R400). -/
  checked : Bool := false
  /-- SEC_CTRL.SEAL asked for this computation: the seal word is written. -/
  sealWrite : Bool := false
  /-- The response of the last transaction: 0 OK, 1 DECODE, 2 DATA_ERR, 3 TIMEOUT, 4 BROKEN (R402). -/
  lastResp : Nat := 0
  /-- Its read data. -/
  lastData : Word := 0
  /-- The reply code of the last access (Table 16.3). -/
  lastReply : Nat := 0
  deriving DecidableEq, Repr

/-- What a context of SEQ waits for (R420 to R425). -/
inductive SeqWait where
  | none
  /-- SEQ's boundary that begins the tick. -/
  | tick (n : Nat)
  /-- CLK_MOD cycle 64 × phase after the tick event. -/
  | at_ (n phase : Nat)
  /-- An event bit of a page; with a timeout or not. -/
  | evt (page bit : Nat) (timed : Bool)
  /-- COMMIT_DONE or COMMIT_FAILED of a page. -/
  | commit (page : Nat)
  deriving DecidableEq, Repr

/-- An action whose bus transaction is outstanding (R416). The access itself is made at the action's issue, so that
accesses keep the order of issue (R415). -/
structure SeqTxn where
  /-- Opcode. -/
  op    : Nat := 0
  f0    : Bool := false
  f1    : Bool := false
  a     : Nat := 0
  b     : Word := 0
  /-- Word 2 B. -/
  b2    : Word := 0
  /-- BUSY_RETRY replies so far. -/
  tries : Nat := 0
  /-- It waits for the next boundary to be repeated. -/
  again : Bool := false
  /-- The reply code of the access; none while the target has not granted it. -/
  reply : Option Nat := none
  /-- The word read. -/
  data  : Word := 0
  /-- The tick number at the action's issue. -/
  tick  : Nat := 0
  /-- Its place in the order of issue (R415). -/
  order : Nat := 0
  /-- Writes that the crossbar has taken since the last try. -/
  writes : Nat := 0
  deriving DecidableEq, Repr

/-- A context of SEQ beside its registers (15). -/
structure SeqCtxSt where
  stack   : List Nat := []
  wait    : SeqWait := .none
  txn     : Option SeqTxn := none
  /-- A stop waits for the outstanding transaction (R428). -/
  stopping : Bool := false
  /-- The watchdog's stop waits for it. -/
  expired : Bool := false
  /-- The watchdog count (R429). -/
  wdog    : Nat := 0
  /-- The tick of the last release from a timed wait (R423). -/
  released : Option Nat := none
  /-- The targets locked by LOCK = 1 (R417). -/
  locked  : List Nat := []
  /-- START (true) and STOP (false) written while SEQ is engaged, in order: they act at its next boundary (R59). -/
  ctl     : List Bool := []
  deriving DecidableEq, Repr

/-- A mute hold: egress contexts `first` to `last` in ticks `from_` to `to_` (R420). -/
structure Hold where
  first : Nat := 0
  last  : Nat := 0
  from_ : Nat := 0
  to_   : Nat := 0
  deriving DecidableEq, Repr

/-- The sequencer beside its registers. -/
structure SeqSt where
  ctxs  : SMap SeqCtxSt := []
  holds : List Hold := []
  /-- Transactions issued (R415). -/
  issued : Nat := 0
  deriving DecidableEq, Repr

/-- A command of the host link, decoded (R434, R448). -/
structure HostCmd where
  cmd  : Nat := 0
  addr : Word := 0
  /-- Words. -/
  n    : Nat := 0
  len  : Nat := 0
  data : List Word := []
  crc  : Nat := 0
  deriving DecidableEq, Repr

/-- A network request held by HIF (R451). -/
structure NetReq where
  port   : Nat := 0
  src    : Nat := 0
  header : List Byte := []
  cmd    : HostCmd := {}
  /-- Its words done so far: reply code and data of each. -/
  done   : List (Nat × Word) := []
  /-- A word of it has been issued and waits. -/
  waits  : Bool := false
  deriving DecidableEq, Repr

/-- HIF beside its registers (16). -/
structure HifSt where
  /-- Failed quad frames in a row (R442). -/
  fails    : Nat := 0
  /-- A commit changed QUAD and waits for the next frame (R442). -/
  quadNext : Option Bool := none
  /-- The deferred command (R438). -/
  deferred : Option HostCmd := none
  /-- Its words done so far: reply code and data of each. -/
  done     : List (Nat × Word) := []
  /-- It has completed. -/
  complete : Bool := false
  /-- The piece in progress of a burst carries BROKEN (R407). -/
  broken   : Bool := false
  /-- A stalled pop of HIF belongs to a network request. -/
  popNet   : Bool := false
  /-- Network requests held, oldest first (R451). -/
  net      : List NetReq := []
  /-- ATTN_EPOCH (R446). -/
  epoch    : Nat := 0
  /-- The last QSPI reply: STATUS, the data words and the CRC-16; none when no reply was driven. -/
  reply    : Option (List Nat) := none
  /-- The last network reply frame. -/
  netReply : List Byte := []
  deriving DecidableEq, Repr

/-- What the Device subsystem holds beside its registers (20). -/
structure DevSt where
  phase    : Phase := .vauxOff
  /-- The freeze stands (R524). -/
  frozen   : Bool := false
  /-- A freeze was taken and its stop edge has not come (Table 20.4). -/
  freezing : Bool := false
  /-- DEV_RUN waits for DEV's boundary (R521). -/
  runReq   : Bool := false
  /-- SWRST waits for DEV's boundary (R59, R538). -/
  swrst    : Bool := false
  /-- The life-cycle change that fuse programming makes. -/
  lcNew    : Option Nat := none
  /-- DEV_LC_ARM armed a target within the last ms (R535). -/
  lcArmed  : Option Nat := none
  /-- TAMPER pins asserted now. -/
  tamper   : BitVec 2 := 0
  /-- Assertions made while the core was off, to be raised at the next start-up, or frozen, at the thaw (R537). -/
  tamperOff : BitVec 2 := 0
  /-- DRV_SAFE_N low. -/
  safePin  : Bool := false
  /-- DCn_OC_N is low, filtered, by channel (R336). -/
  ocPin    : BitVec 16 := 0
  /-- FREEZE_N low. -/
  frzPin   : Bool := false
  /-- The instruction of the TAP (Table 20.6). -/
  tap      : BitVec 5 := 0
  /-- The capture of DBG_ACC: reply code, address, data (R532). -/
  dbgAcc   : Nat × Word × Word := (0, 0, 0)
  /-- That access still runs: the word it writes, or a read (R532). -/
  dbgRuns  : Option (Option Word) := none
  /-- OUTSEL is driven active (R492). -/
  outsel   : Bool := false
  /-- FAULT_N is low (R466). -/
  faultN   : Bool := false
  /-- Cause of the device reset that the core stands in (R517). -/
  cause    : Nat := 0
  /-- The device reset was by the device watchdog or DEVICE_RESET, for R100. -/
  byFault  : Bool := false
  /-- VCORE or VSRAM and the other core supplies are in range. -/
  supply   : Bool := false
  /-- VIOC is in its range, as far as the commands tell (R515). -/
  vioc     : Bool := false
  /-- REFCLK and every core PLL are good; false from a loss until the next start-up (R28, R517). -/
  refclk   : Bool := false
  /-- Idle cycles passed since the stop edge of the freeze, 1.25 ns each (Table 20.10). -/
  frzCyc   : Nat := 0
  /-- The boundary-scan register drives the pins (R531). -/
  extest   : Bool := false
  deriving DecidableEq, Repr

/-- A reference candidate beside its registers (R136 to R142). -/
structure CandSt where
  /-- Activity is present (R136). -/
  active : Bool := false
  /-- Measured offsets of the last 1 s, newest first, in ppb (R137). -/
  hist   : List Int := []
  /-- Measurements in window since it entered QUALIFYING (R138). -/
  inWin  : Nat := 0
  /-- Measurements since the later of its entry to QUALIFIED and the last switch (R142). -/
  wtr    : Nat := 0
  /-- A switch completed since the last measurement, which the next one does not count. -/
  wtrLate : Bool := false
  deriving DecidableEq, Repr

/-- REFS and MCG beside their registers (05). -/
structure RefSt where
  cands    : SMap CandSt := []
  /-- REF_DRIFT stands for the selected candidate (R139). -/
  drift    : Bool := false
  /-- Measurements within ±SOFT since then (Table 17.8). -/
  driftOk  : Nat := 0
  /-- Frequency of the media clock at each measurement, newest first, ppb (R148). -/
  freqs    : List Int := []
  /-- Measurements since the DPLL last entered LOCKED on the selected candidate. -/
  lockAge  : Nat := 0
  /-- Measurements since the DPLL entered ACQUIRE on it, and the frequency at that entry. -/
  acqAge   : Nat := 0
  acqFreq  : Int := 0
  /-- The DPLL has reached LOCKED on the selected candidate. -/
  everLocked : Bool := false
  /-- The DPLL left FREE_RUN. -/
  everRan  : Bool := false
  /-- The first comparison with the new reference has not come: the phase step is to be taken (R150). -/
  stepDue  : Bool := false
  /-- Part of a phase step still to be pulled, 2^-16 ns (R150). -/
  pull     : Int := 0
  /-- A part still to be pulled that moves the held outputs with the grid, after a re-alignment (R153). -/
  pullBare : Int := 0
  /-- No KEEPALIVE came for TMO seconds (R136). -/
  ptpDead  : Bool := false
  /-- Displacement of the held outputs from the tick grid, 2^-16 ns (R151). -/
  outOfs   : Int := 0
  /-- A software step waits for REFS's boundary (R152). -/
  phReq    : Option Int := none
  /-- MCG_TICK_OFFSET in force, and one that waits (R159). -/
  tickOfs  : Int := 0
  tickOfsReq : Option Int := none
  /-- MCG_REALIGN bits waiting for MCG's boundary (R153, R158). -/
  realign  : Bool := false
  number   : Bool := false
  /-- Measurements in the current or last HOLDOVER. -/
  holdAge  : Nat := 0
  /-- TDM_SEL and NOM as REFS and WCK last took them (R138). -/
  tdmSel   : Nat := 0
  nom      : Nat := 0
  /-- The tick that began with the last re-alignment, and the displacement it removed, in CLK_MOD cycles (R153). -/
  alignTick : Option Nat := none
  oldOfs   : Int := 0
  /-- RATE, PHASE and DIV of WCLK_OUT and MCLK0 to MCLK3 as WCK last took them, and by output the tick at whose boundary a
  change of them took effect (R162). -/
  wckCfg   : List Nat := [0, 2, 2, 2, 2]
  wckNew   : SMap Nat := []
  deriving DecidableEq, Repr

/-- A digest (R496); an own one is compared once with the peer's (R497). -/
structure Digest where
  tick     : Nat := 0
  crc      : Word := 0
  valid    : Bool := false
  compared : Bool := false
  deriving DecidableEq, Repr

/-- Why RED entered RELEASING (Table 18.4). -/
inductive ReleaseCause where
  | handover | claim | failover
  deriving DecidableEq, Repr

/-- RED beside its registers (18). -/
structure RedSt where
  /-- Boundaries passed in LISTEN. -/
  listen    : Nat := 0
  /-- LISTEN ticks have elapsed. -/
  listened  : Bool := false
  /-- A good HEARTBEAT has come since the last scheduled one was judged. -/
  hbSeen    : Bool := false
  /-- A good HEARTBEAT has come since RED entered LISTEN. -/
  hbEver    : Bool := false
  /-- The peer is lost (R487). -/
  lost      : Bool := false
  /-- A heartbeat due was not there at the boundary that judged it. -/
  missDue   : Bool := false
  /-- The tick of the last scheduled HEARTBEAT sent. -/
  hbTick    : Option Nat := none
  /-- The tick of the last HEALTH status sent (R485). -/
  healthTick : Option Nat := none
  /-- The unit is to go to FAULTED at the next boundary (R498). -/
  faultDue  : Bool := false
  /-- Consecutive good heartbeats while the peer is lost (R487). -/
  regain    : Nat := 0
  /-- The tick in which the last peer frame came (R488). -/
  peerFrame : Option Nat := none
  /-- A claim of the peer has been received since device reset (R481). -/
  claimed   : Bool := false
  /-- The tick of the last HEARTBEAT whose claim is the own one (R486). -/
  equalAt   : Option Nat := none
  /-- TAG of the peer, from its last good HEARTBEAT. -/
  peerTag   : Option Nat := none
  /-- CONFIG_ID of the peer's last HEARTBEAT. -/
  peerCfg   : Option Word := none
  /-- The peer released, or showed FAULTED or OFF (R489). -/
  peerGone  : Bool := false
  /-- The peer asks for a sequence map (R500). -/
  peerReq   : Bool := false
  /-- The tick of the HEARTBEAT that asked for it. -/
  reqAt     : Nat := 0
  /-- Boundaries left in RELEASING, and why it was entered (R490). -/
  relLeft   : Nat := 0
  relCause  : Option ReleaseCause := none
  /-- The tick in progress at the last release (R490). -/
  relTick   : Option Nat := none
  /-- PROMOTE and REJOIN that wait for a boundary (R486, R489). -/
  promote   : Bool := false
  rejoin    : Bool := false
  /-- Own digests and those of the peer not yet compared, newest first. -/
  own       : List Digest := []
  peer      : List Digest := []
  /-- Tiles that have still to finish their pass of the verdict check, and whether one failed (R497). -/
  checkLeft : List Nat := []
  checkBad  : Bool := false
  /-- Own verdict is given and the peer's is awaited (R498). -/
  waiting   : Bool := false
  /-- A tile BIST failure of R499 is to be acted on. -/
  bistBad   : Bool := false
  /-- A sequence map that changed nothing has been applied (R500). -/
  aligned   : Bool := false
  /-- A map received and not yet applied: its TICK and its 512 values. -/
  seqMap    : Option (Nat × List Nat) := none
  /-- SEQUENCE of the next HEARTBEAT and HEALTH. -/
  hbSeq     : Nat := 0
  healthSeq : Nat := 0
  /-- RED's own accumulations for HEALTH (R485). -/
  bistPasses : Nat := 0
  bistFails : Nat := 0
  scrubs    : Nat := 0
  eccCorr   : Nat := 0
  eccUncorr : Nat := 0
  deriving DecidableEq, Repr

/-- The state of a received block (Table 7.1). -/
inductive BlkState where
  /-- Not presented to the lattice. -/
  | none
  | ash
  /-- Ash, a prediction. -/
  | predicted
  /-- Ash, awaiting confirmation. -/
  | awaiting
  | soot
  | ivory
  deriving DecidableEq, Repr

/-- A channel's block of a due tick (R198). -/
structure BlockSt where
  due   : Nat := 0
  chan  : Nat := 0
  st    : BlkState := .none
  /-- The samples in use, Q1.31. -/
  data  : List Int := []
  /-- Data of a good copy that await confirmation (R174, R175, R225). -/
  held  : Option (List Int) := none
  /-- Final data that wait for the group commit point (R207). -/
  final : Option (List Int) := none
  /-- Soot by retraction (R230). -/
  retracted : Bool := false
  /-- SPX refused it, on its hand-off or its prediction: it reaches the lattice only as Ivory (R221). -/
  refused : Bool := false
  /-- It holds a reservation (R216): tile and cost. -/
  resv  : List (Nat × Nat) := []
  deriving DecidableEq, Repr

/-- A copy of a segment that is no leading copy and has ended good (R176). -/
structure CopySt where
  port    : Nat := 0
  /-- Samples of each channel carried, first channel first. -/
  data    : List (List Int) := []
  ivory   : Bool := false
  retract : BitVec 64 := 0
  /-- LAST_SEG. -/
  last    : Bool := false
  deriving DecidableEq, Repr

/-- A segment of a due tick: a MEDIA segment or a CORRECTION, of one claim (R176 to R178, R494). -/
structure SegSt where
  due   : Nat := 0
  seq   : Nat := 0
  /-- FIRST_CHAN, or the lowest bit of CORR_MASK. -/
  key   : Nat := 0
  corr  : Bool := false
  claim : Word := 0
  /-- Channels the segment covers. -/
  chans : List Nat := []
  /-- Port of the leading copy. -/
  lead  : Nat := 0
  /-- The leading copy is still being received. -/
  open_ : Bool := false
  /-- The leading copy failed. -/
  failed : Bool := false
  /-- A copy has won. -/
  won   : Bool := false
  /-- Trailing copies that ended good while the leading copy stands. -/
  trail : List CopySt := []
  /-- The winner, kept for a lower claim (R494). -/
  winner : Option CopySt := none
  deriving DecidableEq, Repr

/-- An AES67 packet's samples in the jitter buffer (R187). -/
structure JbPacket where
  /-- Absolute index at which its first sample plays. -/
  play  : Nat := 0
  /-- Samples per channel. -/
  data  : List (List Int) := []
  cells : Nat := 0
  rtpSeq : Nat := 0
  deriving DecidableEq, Repr

/-- An ingress context beside its entry (06, 07). -/
structure IngSt where
  blocks : List BlockSt := []
  segs   : List SegSt := []
  /-- Last committed sample of each channel (R181). -/
  last   : List Int := []
  /-- Consecutive missed ticks, and consecutive good ticks (Table 6.5). -/
  misses : Nat := 0
  goods  : Nat := 0
  /-- Ramp position: ticks ramped (Table 6.5). -/
  ramp   : Nat := 0
  /-- Growth of MISSED in the window, and STREAM_LATE raised in it (R180). -/
  late   : Nat := 0
  lateRaised : Bool := false
  /-- State of Table 6.5: 0 DISABLED, 1 WAIT, 2 RUN, 3 MISSING, 4 FADED, 5 RAMP. -/
  state  : Nat := 0
  /-- The accepted claims, newest first, each with the due tick from which it holds (R494). -/
  claims : List (Nat × Word) := []
  /-- The last tick whose CDL has passed, and whether it missed (R200, R181). -/
  done   : Option Nat := none
  missed : Bool := false
  /-- Its commit awaits the group commit point (R207); of KIND 1 as well. -/
  await  : Bool := false
  /-- A local member of its lockstep group faded: this one fades with it (R184, R310). -/
  force  : Bool := false
  /-- A KIND 1 context entered FADED with a stop of STRG: its next block is the fade (R171, R181). -/
  fade   : Bool := false
  /-- The buffer of a KIND 1 context. -/
  jb     : List JbPacket := []
  /-- RTP sequence numbers kept lately (R189). -/
  rtpSeen : List Nat := []
  /-- EN was accepted at 1 (R195). -/
  accepted : Bool := false
  deriving DecidableEq, Repr

/-- A segment of the tick in progress of an egress context (R191). -/
structure EgrSeg where
  tick  : Nat := 0
  seg   : Nat := 0
  /-- SEQUENCE of the tick (R190). -/
  seqNo : Nat := 0
  /-- It was started speculatively (R191). -/
  spec  : Bool := false
  /-- Its samples were formed for a frame (R227). -/
  formed : Bool := false
  /-- It left speculatively with CONFIRM = ASH and awaits CORRECTION (R228). -/
  ash   : Bool := false
  /-- The ports on which it was stomped and is to be resent (R191). -/
  stomped : BitVec 4 := 0
  /-- Channels stale (R227). -/
  stale : BitVec 64 := 0
  /-- It has been sent. -/
  sent  : Bool := false
  /-- The ports of a speculative segment that pair egress does not send and that is still to be formed (R493). -/
  ghost : BitVec 4 := 0
  deriving DecidableEq, Repr

/-- An egress context beside its entry. -/
structure EgrSt where
  accepted : Bool := false
  segs     : List EgrSeg := []
  /-- The next packet number p of a KIND 1 context, and its RTP sequence number (R194). -/
  packet   : Nat := 0
  rtpSeq   : Nat := 0
  /-- The tick at which EN was accepted. -/
  start    : Nat := 0
  deriving DecidableEq, Repr

/-- A replacement of a block that asks for a rerun (R217). -/
structure Rerun where
  /-- The tick whose work it repeats. -/
  tick : Nat := 0
  /-- Input strips replaced. -/
  strips : List Nat := []
  /-- Tasks of the cone that had started, as tile and list index. -/
  tasks  : List (Nat × Nat) := []
  /-- Reservations spent: tile and cost. -/
  resv   : List (Nat × Nat) := []
  running : Bool := false
  /-- Replacements of the present command still join it: they occur in one cycle (R218). -/
  forming : Bool := false
  /-- A reset or a stop of SPX dropped it before LATG started it: its tasks do not run again in the tick. -/
  lost    : Bool := false
  deriving DecidableEq, Repr

/-- Streams and speculation beside their registers (06, 07). -/
structure StrmSt where
  ing     : SMap IngSt := []
  egr     : SMap EgrSt := []
  /-- Ledger of each tile, cycles left, and the tick for which it was set (R216). -/
  ledger  : SMap Nat := []
  ledgerTick : Option Nat := none
  /-- An admission was refused in this tick (R222). -/
  refused : Bool := false
  /-- Contexts held in store-and-forward, with the ticks left (R222). -/
  holds   : SMap Nat := []
  /-- The context to be held from the next boundary. -/
  holdNext : Option Nat := none
  /-- Holds to be ended at the next boundary (R223). -/
  safEnd  : List Nat := []
  /-- Reruns pending or running, in order of their replacements (R217). -/
  reruns  : List Rerun := []
  /-- A staged cone table is being built (R215). -/
  coneBusy : Bool := false
  /-- The cone tables in force and staged: of an input strip, the cost of its cone on each tile (R215). -/
  cones   : SMap (List (Nat × Nat)) := []
  conesStaged : SMap (List (Nat × Nat)) := []
  deriving DecidableEq, Repr

end Sys2Proof.Machine
end

