-- ==== Sys2Proof/Machine/SignalParts.lean ====
section
/-! DEFINITION. The parts of the state that are no register, continued: the lattice, the audio ports, the drive,
the boost controllers and the measurement blocks. -/

namespace Sys2Proof.Machine

/-- A block of one tick, as it lies in a block-store slot or is delivered to the lattice (R234, R237, Table 7.1). -/
structure Blk where
  /-- The tick it belongs to. -/
  tick   : Nat := 0
  /-- Its producer delivers none for the tick (R37). -/
  absent : Bool := false
  /-- Ash, Soot or Ivory. -/
  st     : BlkState := .none
  /-- Samples, or 72-bit partial sums. -/
  data   : List Int := []
  /-- The task that posted it: tile and list index; none for a block delivered to the lattice. -/
  src    : Option (Nat × Nat) := none
  deriving DecidableEq, Repr

/-- A task descriptor (Table 8.4). -/
structure Task where
  kind     : Nat := 0
  domain   : Nat := 0
  waitBar  : Nat := 0
  postBar  : Nat := 0
  budget   : Nat := 0
  side     : Bool := false
  object   : Nat := 0
  paramOfs : Nat := 0
  /-- The state lies in B2. -/
  stateB2  : Bool := false
  stateOfs : Nat := 0
  inSlot   : Nat := 0
  inCount  : Nat := 0
  outSlot  : Nat := 0
  outCount : Nat := 0
  /-- RING_MASK: RING_LO and RING_HI. -/
  ring     : Nat := 0
  arg      : Nat := 0
  deriving DecidableEq, Repr

/-- Where a task of the active list stands in the tick. -/
inductive TaskPhase where
  | waiting
  | running
  | finished
  /-- Not run, for an absent input (R237); it counts as finished. -/
  | skipped
  deriving DecidableEq, Repr

/-- A task of a tile's list with what it keeps. -/
structure TaskSt where
  task   : Task := {}
  /-- Working state, in an order of the task's kind (Table 9.11). -/
  work   : List Int := []
  /-- Checkpoint of the tick (R213). -/
  ckpt   : List Int := []
  /-- The cached copy of its record; no words stand for the null record (R263, R265). -/
  copy   : List Word := []
  /-- The last tick for which the copy was taken. -/
  taken  : Option Nat := none
  /-- The state from which the runs of this tick start: the checkpoint, as the copy for the tick changes it (R270,
  R286). -/
  pre    : List Int := []
  /-- The list of a slice that commits in this tick (R286). -/
  alt    : Option (List Word) := none
  /-- A route transaction waits: its commit tick (R285). -/
  waiting : Option Nat := none
  /-- What waited as the tick began: a task that does not finish is as if it had not run (R241, R286). -/
  waitCkpt : Option Nat := none
  /-- The words of its delay or history ring that its first run in the tick wrote over, by address: with `ckpt`, the
  checkpoint of R213. -/
  rim    : List (Nat × Word) := []
  /-- The copy as it was before this tick's first start. -/
  copyOld : List Word := []
  /-- Base and length of the delay or history ring, as the copy had them, to which W and F of the checkpoint belong
  (R270, R292). -/
  geo    : List Word := []
  /-- The blocks that the run in progress took at its start (R226, R237). -/
  ins    : List Blk := []
  /-- CFG_RANGE was raised for the record, and no copy taken since (R265). -/
  raised : Bool := false
  phase  : TaskPhase := .waiting
  deriving DecidableEq, Repr

/-- A tile beside its registers (08). -/
structure TileSt where
  /-- The active list with its state, in list order. -/
  tasks  : List TaskSt := []
  /-- BS_SLOTS and STATE_BYTES of the active image. -/
  slots  : Nat := 0
  bytes  : Nat := 0
  /-- PLANNED of the active image. -/
  plan   : Nat := 0
  /-- The staged list, and its BS_SLOTS, STATE_BYTES and PLANNED (R247). -/
  staged : List Task := []
  stSlots : Nat := 0
  stBytes : Nat := 0
  stPlan  : Nat := 0
  /-- The inactive half holds the staged list. -/
  preloaded : Bool := false
  /-- The list half that is active (R233, R248). -/
  half   : Nat := 0
  /-- List index of the task that the sequencer runs. -/
  cur    : Option Nat := none
  /-- The block store (R234). -/
  store  : SMap Blk := []
  /-- Copies on the ring to this tile, in the order posted: slot and block (R236). -/
  ring   : List (Nat × Blk) := []
  /-- The tick whose list the tile runs. -/
  tick   : Nat := 0
  /-- A write of TILE_BIST.MODE waits for the tile's boundary. -/
  bistReq : Bool := false
  /-- The tile has begun a list. -/
  begun  : Bool := false
  /-- Reruns in this tick. -/
  reruns : Nat := 0
  deriving DecidableEq, Repr

/-- A committed output block of a strip (R204). -/
structure OutBlk where
  tick   : Nat := 0
  absent : Bool := false
  data   : List Int := []
  deriving DecidableEq, Repr

/-- The lattice beside its registers (08, 09). -/
structure LatSt where
  tiles  : SMap TileSt := []
  /-- Barrier table of the active image, and of the staged one. -/
  bars   : List Nat := []
  stBars : List Nat := []
  /-- Posts received in the tick, by barrier (R238). -/
  posts  : SMap Nat := []
  /-- The tick whose posts these are. -/
  postTick : Nat := 0
  /-- SPX_BASE and SPX_SIZE of the active and of the staged image. -/
  spxBase : Nat := 0
  spxSize : Nat := 0
  stSpxBase : Nat := 0
  stSpxSize : Nat := 0
  /-- Base and IMAGE_ID of the staged image, and its counts: OUTSTRIP tasks of Indigo and Ochre, ring maximum. -/
  stBase  : Nat := 0
  stId    : Word := 0
  stIndigo : Nat := 0
  stOchre : Nat := 0
  stRing  : Nat := 0
  /-- An image is active. -/
  active  : Bool := false
  /-- PS_OUT of each MATRIX_SLICE as the check read it: tile × 1024 + list index (R280). -/
  psOut   : SMap Bool := []
  stPsOut : SMap Bool := []
  /-- Blocks that ports and ASRC channels deliver, by input strip (R237). -/
  ins     : SMap Blk := []
  /-- Output blocks of the tick in progress, by output strip; 1,024 + strip for an input strip's output. -/
  outs    : SMap Blk := []
  /-- Committed output blocks of the last ticks, newest first, by the same number. -/
  past    : SMap (List OutBlk) := []
  /-- For each word 0 of a record in B1 whose WRITE_PENDING was cleared, the tick, and the tiles (MEA as bit 48) at
  which that tick had begun (R263). -/
  cleared : SMap (Nat × BitVec 64) := []
  /-- An image that passed its check is staged, until it is swapped in or the staging is aborted (R247). -/
  staging : Bool := false
  /-- The first tick whose outputs have not committed (R204). -/
  open_   : Nat := 0
  /-- The last tick for which LATG counted an overrun (R241). -/
  overrunTick : Option Nat := none
  /-- The bytes that B1 listed when the check in progress began (R245). -/
  goMem  : List Host.Cell := []
  /-- A check asked for of an engaged LATG begins at its next boundary (R59, R245). -/
  checkDue : Bool := false
  /-- LATG or a tile was reset in the tick in progress: its digest is not valid (R496). -/
  spoilt : Bool := false
  deriving DecidableEq, Repr

/-- The level of an output pin. -/
inductive Pin where
  | low
  | high
  /-- High impedance. -/
  | z
  deriving DecidableEq, Repr

/-- A TDM port, AES3 receiver or AES3 transmitter beside its registers (10). -/
structure AudSt where
  /-- Frames held by the receive FIFO, oldest first. -/
  rx : List (List Int) := []
  /-- Frames held by the transmit FIFO, oldest first; with each frame whether its samples come from committed blocks. -/
  tx : List (List Int) := []
  /-- Last sample delivered, per channel (R296). -/
  last : List Int := []
  /-- Consecutive good frames in SYNC. -/
  good : Nat := 0
  /-- Ticks delivered in RAMP, and in RAMP of a lockstep group. -/
  ramp : Nat := 0
  /-- Frames read in RAMP on the transmit side. -/
  txRamp : Nat := 0
  /-- A block found no room while the clock was lost: the overrun follows when it returns (Table 10.3). -/
  overDue : Bool := false
  /-- Frames left of the ramp at the release of SAFE_OUT (R309). -/
  outRamp : Nat := 0
  /-- SAFE_OUT has stood since the last frame. -/
  outHeld : Bool := false
  /-- Ticks of the last UNDERRUN and OVERRUN events, newest first (R308). -/
  slips : List Nat := []
  /-- The port clears its EN at its next boundary (R308). -/
  autoDis : Bool := false
  /-- Faults raised in this tick: direction and kind (R307). -/
  raised : List (Bool × Nat) := []
  raisedTick : Nat := 0
  /-- The CLK_LOSS condition stands (R307). -/
  lost : Bool := false
  /-- The strips of which CFG_RANGE was raised for the active image; an output strip counts from 1,024 (R302). -/
  told : List Nat := []
  /-- Its LOCKSTEP group is faded (R310), and the consecutive ticks since that were good for every member. -/
  grp : Bool := false
  grpGood : Nat := 0
  /-- The tick whose samples, by channel, wait for the commit of a faded group: it says whether they ramp in (R310). -/
  pend : Option (Nat × List (List Int)) := none
  /-- Frames begun since the last measurement of the frame rate (R311). -/
  frames : Nat := 0
  /-- The last frame sent: slots, or the subframes A and B of an AES3 frame. -/
  sent : List Word := []
  /-- TDn_DOUT at each bit clock from the last frame start on, and the last OFFSET bits of that frame, which fall after the
  next frame start (R297). -/
  line : List Pin := []
  tail : List Pin := []
  -- AES3 receivers.
  /-- The domain of the nominal rate last measured in lock (R315). -/
  nom : Nat := 0
  /-- Frames since the Z preamble (R311, R313). -/
  place : Option Nat := none
  /-- A Z preamble came 192 frames after the one before, with valid preambles between (R311). -/
  zGood : Nat := 0
  /-- A frame since the Z preamble carried no valid preambles. -/
  broken : Bool := false
  /-- Consecutive frames with biphase violations. -/
  badRun : Nat := 0
  /-- The frame in progress: subframe A was bad of biphase; A has come. -/
  haveA : Bool := false
  badA : Bool := false
  curA : Int := 0
  /-- Last sample delivered of subframes A and B (R312). -/
  prevA : Int := 0
  prevB : Int := 0
  /-- Channel status and user bits of the block so far, six words each: A, B. -/
  csA : List Word := []
  csB : List Word := []
  uA : List Word := []
  uB : List Word := []
  -- AES3 transmitters.
  /-- The next frame's place in its block. -/
  frame : Nat := 0
  /-- Channel status and user bits of the block being sent (R317). -/
  csOut : List Word := []
  uOut : List Word := []
  /-- Values were committed and no block has begun since (R317). -/
  csNew : Bool := false
  deriving DecidableEq, Repr

/-- An ASRC channel beside its registers. -/
structure AsrcSt where
  /-- Ticks delivered in RAMP. -/
  ramp : Nat := 0
  /-- Samples sent of the ramp or of the fade, by a channel out to a transmitter. -/
  sent : Nat := 0
  /-- Its last sample. -/
  last : Int := 0
  deriving DecidableEq, Repr

/-- A drive channel beside its registers (11). -/
structure DrvSt where
  /-- The committed blocks of tick N − 1 and N (R328). -/
  prev : List Int := []
  cur  : List Int := []
  /-- The tick of `cur`, where it was taken. -/
  tick : Option Nat := none
  /-- The last sample taken. -/
  last : Int := 0
  /-- Ticks left of PRECHARGE, or of RAMP. -/
  pre  : Nat := 0
  /-- Blocks ramped in; 4 is the end of a ramp (R295). -/
  ramp : Nat := 4
  /-- An absence episode (R334): 0 none; 1 the fade-out tick; 2 silence. -/
  gap  : Nat := 0
  /-- Consecutive blocks present in it. -/
  back : Nat := 0
  /-- UNDERRUN was raised in it. -/
  told : Bool := false
  /-- SAFE_OUT has been in force since the last block was taken (R335). -/
  outHeld : Bool := false
  /-- Noise shaper (R330), 2^-16 counts. -/
  e1 : Int := 0
  e2 : Int := 0
  e3 : Int := 0
  e4 : Int := 0
  e5 : Int := 0
  /-- The width of the last period, the dead time and the first count of the A command (R331). -/
  width : Nat := 0
  first : Nat := 0
  /-- The B command rises at the start of the current period, the first since RAMP was entered; a period has begun since;
  and DCn_AL stood high before, in PRECHARGE (R331, R332). -/
  edge  : Bool := false
  begun : Bool := false
  low   : Bool := false
  /-- Boundaries since the trip (R336, Table 11.4). -/
  since : Nat := 0
  /-- RETRY_MS has elapsed (Table 11.2). -/
  retryDue : Bool := false
  /-- Sense samples still to be examined for SHORT (R337). -/
  short : Nat := 0
  /-- The DC window: codes summed and samples (R339). -/
  dcSum : Int := 0
  dcN   : Nat := 0
  /-- UNLATCH waits for the channel's boundary. -/
  unlatch : Bool := false
  deriving DecidableEq, Repr

/-- A boost controller beside its registers (11). -/
structure BstSt where
  /-- TG (R342). -/
  tg   : Nat := 0
  /-- Integrator and duty, 2^-24 units (R343). -/
  i    : Int := 0
  d    : Int := 0
  /-- HOLD ticks left, in which the target is held. -/
  hold : Nat := 0
  /-- The overvoltage pin is low. -/
  ovpPin : Bool := false
  /-- The Amber THERMAL was raised and the code has not fallen below T_WARN since. -/
  warned : Bool := false
  /-- Consecutive codes above T_TRIP. -/
  hot : Nat := 0
  /-- The THERMAL trip stands. -/
  trip : Bool := false
  /-- Every code since the last above T_WARN was below it. -/
  cool : Bool := false
  /-- Counts of the on-time of the current period. -/
  on_ : Nat := 0
  /-- BGg_ILIM_N ended the current period's on-time. -/
  ilim : Bool := false
  deriving DecidableEq, Repr

/-- A sense port beside its registers (12). -/
structure SnsSt where
  /-- Frames in step since SYNC. -/
  good  : Nat := 0
  /-- Frames completed in the window of R349, and it has passed wholly in RUN. -/
  count : Nat := 0
  whole : Bool := false
  /-- The tick that began the window. -/
  win   : Option Nat := none
  /-- The rail code, while a rail sample is recent enough (R329). -/
  rail  : Option Int := none
  deriving DecidableEq, Repr

/-- An exposure meter beside its registers (R352). -/
structure ExpSt where
  /-- Its bit of MEA_EXP_EN is accepted at 1. -/
  on    : Bool := false
  copy  : List Word := []
  raised : Bool := false
  /-- The tick that closed its last second. -/
  closed : Option Nat := none
  /-- Four stages of u1, u2, v1, v2. -/
  bq    : List Int := []
  sum   : Nat := 0
  /-- The first second is to be discarded. -/
  first : Bool := true
  /-- The values of E kept, newest first, at most 3,600. -/
  es    : List Nat := []
  above : Bool := false
  deriving DecidableEq, Repr

/-- The capture engine beside its registers (R354). -/
structure CapSt where
  /-- Tick of the first record, and of the newest. -/
  start : Nat := 0
  newest : Nat := 0
  /-- The taps of the capture: number of the strip's output, and samples. -/
  taps  : List (Nat × Nat) := []
  /-- Records written since the start. -/
  count : Nat := 0
  /-- Records still to be written after the trigger. -/
  left  : Option Nat := none
  deriving DecidableEq, Repr

/-- What a step of a sweep or a pilot window sums of one channel (R358). -/
structure DiagChan where
  /-- Frames taken. -/
  n  : Nat := 0
  /-- Codes of V and of I. -/
  sv : Int := 0
  si : Int := 0
  /-- Real and imaginary parts of Vc and of Ic. -/
  vr : Int := 0
  vi : Int := 0
  ir : Int := 0
  ii : Int := 0
  /-- Its part of the sweep has ended (R360). -/
  ended : Bool := false
  /-- Tones measured in the sweep, and its DC step. -/
  tones : List Nat := []
  dc : Bool := false
  /-- Ticks of the pilot window so far. -/
  ticks : Nat := 0
  deriving DecidableEq, Repr

/-- DIAG beside its registers (12). -/
structure DiagSt where
  /-- GO waits for DIAG's boundary. -/
  go    : Bool := false
  /-- The mask that the running sweep latched (R357). -/
  mask  : Nat := 0
  /-- Steps of the sweep: 0 DC, 1 + k tone k; first is the one in progress. -/
  steps : List Nat := []
  /-- Ticks of the step passed. -/
  pos   : Nat := 0
  /-- The channels of the sweep, and the pilot windows. -/
  chans : SMap DiagChan := []
  pilots : SMap DiagChan := []
  /-- The class that each channel's last pilot window showed (R361). -/
  seen  : SMap Nat := []
  /-- The next pilot windows are to be copied to PILOT_REF, one bit each channel. -/
  capture : Nat := 0
  deriving DecidableEq, Repr

/-- The measurement blocks (12). -/
structure MeasSt where
  sns  : SMap SnsSt := []
  exps : SMap ExpSt := []
  cap  : CapSt := {}
  /-- Writes of MEA into B4 that wait for the bank: address and words, oldest first (R17, R363). -/
  late : List (Nat × List Word) := []
  diag : DiagSt := {}
  deriving DecidableEq, Repr

/-- The audio ports (10). -/
structure AudioSt where
  ports : SMap AudSt := []
  asrc  : SMap AsrcSt := []
  deriving DecidableEq, Repr

/-- The power stage (11). -/
structure PowerSt where
  drv : SMap DrvSt := []
  bst : SMap BstSt := []
  deriving DecidableEq, Repr

end Sys2Proof.Machine
end

