-- ==== Sys2Proof/Machine/State.lean ====
section
/-! DEFINITION. The state of the device: its registers, its memory, what its blocks hold beside them, and the queue of
commands that wait. `State.reset` is the core just released (log 2). -/

namespace Sys2Proof.Machine

/-- Why the machine stops: no meaning of this model does. -/
inductive Fault where
  /-- Raised by no command and by no step: every meaning answers a next state. Safe: the model never stops here. -/
  | never
  deriving DecidableEq, Repr

/-- Why a command has no meaning. -/
inductive Refusal where
  /-- Raised by an arm of `exec` whose command has no meaning yet, under the row's mnemonic. Safe: the model stops. -/
  | notModelled (mnemonic : String)
  deriving DecidableEq, Repr

/-- The kind of page at an index (Table 2.2); `reserved` where the table has none. -/
def pageKind (p : Nat) : PageKind :=
  if p < 0x20 then
    if p == 0 then .dev else if p == 1 then .clk else if p == 2 then .hif else if p == 3 then .xbr
    else if p < 0xC then .mem else if p == 0xC then .sec else if p == 0x10 then .flt
    else if p == 0x11 then .seq else if p == 0x12 then .red else if p == 0x18 then .qmg
    else if 0x19 ≤ p && p ≤ 0x1C then .qdesc else .reserved
  else if p < 0x40 then
    if p < 0x24 then .mac else if p == 0x24 then .plk else if p == 0x28 then .tsu else if p == 0x29 then .tpg
    else if p == 0x2C then .refs else if p == 0x2D then .mcg else if p == 0x30 then .strg
    else if 0x31 ≤ p && p ≤ 0x34 then .ing else if 0x35 ≤ p && p ≤ 0x38 then .egr
    else if p == 0x3C then .spx else .reserved
  else if p == 0x40 then .latg else if p ≤ 0x70 then .tile
  else if p < 0x80 then .reserved
  else if p < 0x90 then .tdm else if p < 0x94 then .aesi else if p < 0x98 then .aeso
  else if p == 0x98 then .asrc else if p == 0x99 then .wck
  else if 0xA0 ≤ p && p < 0xB0 then .drv else if 0xB0 ≤ p && p < 0xB4 then .bst
  else if 0xB4 ≤ p && p < 0xB8 then .sns else if p == 0xC0 then .mea else if p == 0xC1 then .diag
  else if p == 0xF0 then .dbg else .reserved

/-- A page with the common header (R10, R44). -/
def isRegPage (p : Nat) : Bool :=
  match pageKind p with
  | .reserved | .qdesc | .ing | .egr => false
  | _ => true

/-- The TYPE code of a page (Table 2.2). -/
def pageType : PageKind → Nat
  | .dev => 0x0F01 | .clk => 0x0303 | .hif => 0x0D01 | .xbr => 0x0C01 | .mem => 0x0B01 | .sec => 0x0B02
  | .flt => 0x0E01 | .seq => 0x0D02 | .red => 0x0E02 | .qmg => 0x0A01 | .mac => 0x0101 | .plk => 0x0102
  | .tsu => 0x0201 | .tpg => 0x0202 | .refs => 0x0301 | .mcg => 0x0302 | .strg => 0x0401 | .spx => 0x0501
  | .latg => 0x0601 | .tile => 0x0602 | .tdm => 0x0701 | .aesi => 0x0702 | .aeso => 0x0703 | .asrc => 0x0704
  | .wck => 0x0705 | .drv => 0x0801 | .bst => 0x0802 | .sns => 0x0901 | .mea => 0x0902 | .diag => 0x0903
  | .dbg => 0x0F02 | .qdesc => 0 | .ing => 0 | .egr => 0 | .reserved => 0

/-- PG_CTRL.EN resets to 1 (R50). -/
def enReset : PageKind → Bool
  | .dev | .clk | .hif | .xbr | .mem | .sec | .flt | .tsu | .refs | .mcg | .dbg => true
  | _ => false

/-- PG_CTRL.EN is fixed at 1 (R50). -/
def enFixed : PageKind → Bool
  | .dev | .clk | .hif | .xbr | .mem | .sec | .flt => true
  | _ => false

/-- The block registers of a kind of page; the even and odd words of context entries are one map. -/
def regsOf : PageKind → List RegDesc
  | .dev => regsDev | .clk => regsClk | .hif => regsHif | .xbr => regsXbr | .mem => regsMem | .sec => regsSec
  | .flt => regsFlt | .seq => regsSeq | .red => regsRed | .qmg => regsQmg | .qdesc => regsQdesc
  | .mac => regsMac | .plk => regsPlk | .tsu => regsTsu | .tpg => regsTpg | .refs => regsRefs | .mcg => regsMcg
  | .strg => regsStrg | .ing => regsIng0 | .egr => regsEgr0 | .spx => regsSpx | .latg => regsLatg
  | .tile => regsTile | .tdm => regsTdm | .aesi => regsAesi | .aeso => regsAeso | .asrc => regsAsrc
  | .wck => regsWck | .drv => regsDrv | .bst => regsBst | .sns => regsSns | .mea => regsMea | .diag => regsDiag
  | .dbg => regsDbg | .reserved => []

/-- The register of a list at an offset. -/
def findReg (l : List RegDesc) (ofs : Nat) : Option RegDesc := l.find? (fun d => d.covers ofs)

/-- Implemented bits of PG_FLT: bits 6 to 0 on every page, and the block's own (Table 2.8). -/
def fltMask (k : PageKind) : Word := 0x7F ||| fltBlockMask k

/-- Implemented bits of PG_EVT: bits 2 to 0 on every page, and the block's own (Table 2.10). -/
def evtMask (k : PageKind) : Word := 0x7 ||| evtBlockMask k

/-- The common header at reset (Tables 2.3 to 2.10). -/
def headerReset (p : Nat) (k : PageKind) (ofs : Nat) : Word :=
  match ofs with
  | 0x000 => w32 (pageType k * 65536 + p * 64 + (if k = .dev then 32 else 16))
  | 0x004 => if k = .dev then 0x000100A1 else 0x00010001
  | 0x008 => if enReset k then 1 else 0
  | 0x00C => if enReset k then 3 else 2
  | 0x014 => fltMask k
  | 0x01C => 0x64
  | _ => 0

/-- On a table page, the offset within an entry: 32 bytes for a context, 16 for a queue (R195, R369). -/
def entryOfs (k : PageKind) (ofs : Nat) : Nat :=
  match k with
  | .ing | .egr => ofs % 32
  | .qdesc => ofs % 16
  | _ => ofs

/-- What the register at an offset of a page holds after a device reset: the Reset column of its table; INIT_DONE of
MEM7 is 1 (Table 14.6). -/
def resetWord (p ofs : Nat) : Word :=
  let k := pageKind p
  if p = 11 ∧ ofs = 0x44 then 0x80000000
  else if isRegPage p && ofs < 0x40 then headerReset p k ofs
  else match findReg (regsOf k) (entryOfs k ofs) with
    | some d => d.rst
    | none => 0

/-- The number of a register: page and offset. -/
def keyOf (p ofs : Nat) : Nat := p * 4096 + ofs

/-- The state of the device. -/
structure State where
  /-- The registers, by page and offset (02, and the register map of each chapter); one not listed holds its reset
  value. For an S field this is the active value. -/
  regs    : SMap Word
  /-- Shadows of S fields that differ from the active value by a write (R61). -/
  shadow  : SMap Word
  /-- For an L register written while its block runs: the value still in force until the boundary (R33, R59). -/
  held    : SMap Word
  /-- The memory banks, by byte address (Table 2.1). -/
  mem     : List Host.Cell
  /-- The MODEL's own field: how many free values have been drawn (log 3). -/
  freeCtr : Nat
  /-- The levels of supervision (01). -/
  arch    : ArchSt
  /-- Network time (04). -/
  time    : TimeSt
  /-- Network ports (03). -/
  net     : NetSt
  /-- References and media clock (05). -/
  ref     : RefSt
  /-- Streams and speculation (06, 07). -/
  strm    : StrmSt
  /-- The lattice (08, 09). -/
  lat     : LatSt
  /-- Audio ports (10). -/
  audio   : AudioSt
  /-- Power drive (11). -/
  power   : PowerSt
  /-- Measurement (12). -/
  meas    : MeasSt
  /-- Queues (13). -/
  qmg     : QmgSt
  /-- Memory and bus matrix (14). -/
  mx      : MemSt
  /-- The event sequencer (15). -/
  seq     : SeqSt
  /-- The host link (16). -/
  hif     : HifSt
  /-- Faults (17). -/
  flt     : FltSt
  /-- The redundant pair (18). -/
  red     : RedSt
  /-- Start-up, freeze, life cycle and tamper (20). -/
  dev     : DevSt
  /-- Read latches of each master, by its number (R114). -/
  latches : SMap Latches
  /-- The commands that wait, first in first out. -/
  pending : List Instr
  deriving DecidableEq, Repr

/-- The device with the core just released: every register at the Reset column of its table, DEV_STATE at INIT, the
retained values, the fuses and the straps 0, no memory listed (R48, R519; log 2). -/
def State.reset : State :=
  { regs := [], shadow := [], held := [], mem := [], freeCtr := 0,
    arch := {}, time := {}, net := {}, ref := {}, strm := {}, lat := {}, audio := {}, power := {}, meas := {},
    qmg := {}, mx := {}, seq := {}, hif := {}, flt := {}, red := {},
    dev := { phase := .on, supply := true, vioc := true, refclk := true },
    latches := [], pending := [] }

/-- What a command's meaning answers. -/
abbrev Out := Host.Outcome State Fault Refusal

end Sys2Proof.Machine
end

