-- ==== Sys2Proof/Machine/Ops.lean ====
section
/-! DEFINITION. The named operations over registers, memory and the parts of the state: every other file reads and
writes the state through these. -/

namespace Sys2Proof.Machine

-- Page indices (Table 2.2).
abbrev pgDev : Nat := 0
abbrev pgClk : Nat := 1
abbrev pgHif : Nat := 2
abbrev pgXbr : Nat := 3
abbrev pgMem (b : Nat) : Nat := 4 + b
abbrev pgSec : Nat := 0x0C
abbrev pgFlt : Nat := 0x10
abbrev pgSeq : Nat := 0x11
abbrev pgRed : Nat := 0x12
abbrev pgQmg : Nat := 0x18
abbrev pgLink (l : Nat) : Nat := 0x20 + l
abbrev pgPlk : Nat := 0x24
abbrev pgTsu : Nat := 0x28
abbrev pgTpg : Nat := 0x29
abbrev pgRefs : Nat := 0x2C
abbrev pgMcg : Nat := 0x2D
abbrev pgStrg : Nat := 0x30
abbrev pgSpx : Nat := 0x3C
abbrev pgLatg : Nat := 0x40
abbrev pgTile (t : Nat) : Nat := 0x41 + t
abbrev pgTdm (n : Nat) : Nat := 0x80 + n
abbrev pgAesi (n : Nat) : Nat := 0x90 + n
abbrev pgAeso (n : Nat) : Nat := 0x94 + n
abbrev pgAsrc : Nat := 0x98
abbrev pgWck : Nat := 0x99
abbrev pgDrv (n : Nat) : Nat := 0xA0 + n
abbrev pgBst (g : Nat) : Nat := 0xB0 + g
abbrev pgSns (g : Nat) : Nat := 0xB4 + g
abbrev pgMea : Nat := 0xC0
abbrev pgDiag : Nat := 0xC1
abbrev pgDbg : Nat := 0xF0

/-- The number of a crossbar master (Table 14.4). -/
def masterNo : Master → Nat
  | .hif => 0 | .seq => 1 | .qmgDma => 2 | .mea => 3 | .strg => 4 | .lat => 5 | .dbg => 6 | .flt => 7

/-- The subsystem of a page (Table 1.2): TYPE[15:8], and for a table page that of its owner. -/
def subsysOf (p : Nat) : Nat :=
  match pageKind p with
  | .qdesc => 10
  | .ing | .egr => 4
  | k => pageType k / 256

/-- The register pages, in rising order. -/
def regPages : List Nat := (List.range 0xF1).filter isRegPage

/-- The register pages of a subsystem. -/
def pagesOfSubsys (n : Nat) : List Nat := regPages.filter (fun p => subsysOf p == n)

-- Registers.

/-- The word of a register as last accepted: what a read returns (Table 2.11). -/
def State.reg (s : State) (p ofs : Nat) : Word := (s.regs.find (keyOf p ofs)).getD (resetWord p ofs)

/-- The register written whole. -/
def State.setReg (s : State) (p ofs : Nat) (w : Word) : State := { s with regs := s.regs.put (keyOf p ofs) w }

/-- The word the block works with: before the boundary that follows a write to a running block, the old one (R33). -/
def State.inForce (s : State) (p ofs : Nat) : Word := (s.held.find (keyOf p ofs)).getD (s.reg p ofs)

/-- A field as a read shows it. -/
def State.rd (s : State) (p : Nat) (f : Fld) : Nat := getBits (s.reg p f.ofs) f.hi f.lo

/-- A field as the block works with it. -/
def State.act (s : State) (p : Nat) (f : Fld) : Nat := getBits (s.inForce p f.ofs) f.hi f.lo

/-- A one-bit field as a read shows it. -/
def State.is (s : State) (p : Nat) (f : Fld) : Bool := s.rd p f != 0

/-- A one-bit field as the block works with it. -/
def State.actIs (s : State) (p : Nat) (f : Fld) : Bool := s.act p f != 0

/-- The device writes a field of a register. -/
def State.setF (s : State) (p : Nat) (f : Fld) (v : Nat) : State :=
  let k := keyOf p f.ofs
  let s := s.setReg p f.ofs (setBits (s.reg p f.ofs) f.hi f.lo v)
  match s.held.find k with
  | some w => { s with held := s.held.put k (setBits w f.hi f.lo v) }
  | none => s

/-- The device writes a one-bit field. -/
def State.setB (s : State) (p : Nat) (f : Fld) (b : Bool) : State := s.setF p f (if b then 1 else 0)

/-- The width of a field. -/
def Fld.width (f : Fld) : Nat := f.hi + 1 - f.lo

/-- An integer as a field of 32 bits. -/
def setInt (s : State) (p : Nat) (f : Fld) (v : Int) : State := s.setF p f (toBits f.width v)
/-- A field as a signed number. -/
def State.rdInt (s : State) (p : Nat) (f : Fld) : Int := ofBits f.width (s.rd p f)
/-- A field in force as a signed number. -/
def State.actInt (s : State) (p : Nat) (f : Fld) : Int := ofBits f.width (s.act p f)

/-- A counter advances by n, saturating. -/
def State.bumpBy (s : State) (p : Nat) (f : Fld) (n : Nat) : State :=
  s.setF p f (satAdd f.width (s.rd p f) n)

/-- A counter advances by 1, saturating. -/
def State.bump (s : State) (p : Nat) (f : Fld) : State := s.bumpBy p f 1

/-- A counter advances by 1 and rolls over. -/
def State.roll (s : State) (p : Nat) (f : Fld) : State := s.setF p f ((s.rd p f + 1) % 2 ^ f.width)

/-- PG_STAT.RUN of a page. -/
def State.running (s : State) (p : Nat) : Bool := s.is p F.statRun

/-- PG_STAT.RESETTING of a page. -/
def State.resetting (s : State) (p : Nat) : Bool := s.is p F.statResetting

/-- DEV_STATE.STATE (Table 20.1). -/
def State.devState (s : State) : Nat := s.rd pgDev F.devStateState

/-- The core works: it is released, not frozen, and not HALTED (R519, R524). -/
def State.live (s : State) : Bool := s.dev.phase == .on && !s.dev.frozen && s.devState != 4

/-- A restart of the subsystem runs. -/
def restarting (s : State) (n : Nat) : Bool :=
  (pagesOfSubsys n).any (fun p => s.resetting p && s.arch.rankReset.get 0 p == 2)

/-- A restart of the Memory subsystem stalls every master (R17). -/
def memStalled (s : State) : Bool := restarting s 11

/-- A command of the core's blocks acts only while the core works; otherwise nothing changes. -/
def State.whenLive (s : State) (f : State → State) : State := if s.live then f s else s

/-- A command of a block acts only while its block runs. -/
def State.whenRun (s : State) (p : Nat) (f : State → State) : State :=
  if s.live && s.running p then f s else s

/-- The blocks whose progress a subsystem's watchdog waits for (R18). -/
def watched (s : State) (n : Nat) : List Nat := (pagesOfSubsys n).filter (fun p => s.is p F.ctrlEn && !s.resetting p)

/-- A subsystem's watchdog restarts once every watched block has raised its progress signal: it is live again (R18). -/
def wdogRestart (s : State) (n : Nat) : State :=
  if (watched s n).all (fun q => s.arch.progress.get false q) then
    { s with arch := { s.arch with
      progress := s.arch.progress.filter (fun e => subsysOf e.1 != n), dead := s.arch.dead.del n } }
  else s

/-- A block raises its progress signal, which ends WEDGED (R18, Table 2.6). -/
def progressed (s : State) (p : Nat) : State :=
  let s := { s with arch := { s.arch with progress := s.arch.progress.put p true } }
  wdogRestart (if s.is p F.statWedged then s.setF p F.statWedged 0 else s) (subsysOf p)

/-- A running block passes its idle or arbitration point: its progress signal (R18; log 41). -/
def State.signal (s : State) (p : Nat) : State := if s.running p && !s.resetting p then progressed s p else s

/-- Draw a free value (log 3). -/
def State.fresh (s : State) : DWord × State := (Config.freeValue s.freeCtr, { s with freeCtr := s.freeCtr + 1 })

-- Memory.

/-- The canonical form of memory: addresses rising, no byte listed that an unlisted address reads as (log 5). -/
abbrev Memory.wf (m : List Host.Cell) : Prop := SMap.Rising m = true ∧ ∀ c ∈ m, c.2 ≠ 0

/-- The byte at an address; an address not listed reads 0 (log 5). -/
def Memory.read (m : List Host.Cell) (a : Nat) : Byte := (SMap.find m a).getD 0

/-- A byte written; 0 is not listed. -/
def Memory.write (m : List Host.Cell) (a : Nat) (b : Byte) : List Host.Cell :=
  if b = 0 then SMap.del m a else SMap.put m a b

/-- Bytes written from an address on. -/
def Memory.writes (m : List Host.Cell) (a : Nat) : List Byte → List Host.Cell
  | [] => m
  | b :: bs => Memory.writes (Memory.write m a b) (a + 1) bs

/-- The word at a byte address, little-endian. -/
def State.memWord (s : State) (a : Nat) : Word :=
  Memory.read s.mem (a + 3) ++ Memory.read s.mem (a + 2) ++ Memory.read s.mem (a + 1) ++ Memory.read s.mem a

/-- n words from a byte address on. -/
def State.memWords (s : State) (a n : Nat) : List Word := (List.range n).map (fun i => s.memWord (a + 4 * i))

/-- A word written whole at a byte address: it is no longer in error (R394). -/
def State.setMemWord (s : State) (a : Nat) (w : Word) : State :=
  { s with mem := Memory.writes s.mem a (bytesLE w),
           mx := { s.mx with dead := s.mx.dead.filter (· != a), wback := s.mx.wback.filter (· != a) } }

/-- Words written from a byte address on. -/
def State.setMemWords (s : State) (a : Nat) : List Word → State
  | [] => s
  | w :: ws => (s.setMemWord a w).setMemWords (a + 4) ws

/-- First address and size of each bank (Table 2.1). -/
def bankBase (b : Nat) : Nat := nth 0 [0, 0x04000000, 0x05000000, 0x06000000, 0x07000000, 0x08000000, 0x09000000, 0x0A000000] b
def bankSize (b : Nat) : Nat := nth 0 [0x4000000, 0x800000, 0x400000, 0x400000, 0x800000, 0x200000, 0x100000, 0x10000] b

/-- The bank of a byte address. -/
def bankOf (a : Nat) : Option Nat :=
  (List.range 8).find? (fun b => bankBase b ≤ a && a < bankBase b + bankSize b)

-- Read latches.

/-- The latches of a master. -/
def State.latch (s : State) (m : Nat) : Latches := s.latches.get {} m

/-- Change the latches of a master. -/
def State.setLatch (s : State) (m : Nat) (f : Latches → Latches) : State :=
  { s with latches := s.latches.put m (f (s.latch m)) }

-- Parts.

def State.port (s : State) (l : Nat) : PortSt := s.net.ports.get {} l
def State.setPort (s : State) (l : Nat) (f : PortSt → PortSt) : State :=
  { s with net := { s.net with ports := s.net.ports.put l (f (s.port l)) } }
def State.ctx (s : State) (c : Nat) : SeqCtxSt := s.seq.ctxs.get {} c
def State.setCtx (s : State) (c : Nat) (f : SeqCtxSt → SeqCtxSt) : State :=
  { s with seq := { s.seq with ctxs := s.seq.ctxs.put c (f (s.ctx c)) } }
def State.cand (s : State) (n : Nat) : CandSt := s.ref.cands.get {} n
def State.setCand (s : State) (n : Nat) (f : CandSt → CandSt) : State :=
  { s with ref := { s.ref with cands := s.ref.cands.put n (f (s.cand n)) } }
def State.ing (s : State) (c : Nat) : IngSt := s.strm.ing.get {} c
def State.setIng (s : State) (c : Nat) (f : IngSt → IngSt) : State :=
  { s with strm := { s.strm with ing := s.strm.ing.put c (f (s.ing c)) } }
def State.egr (s : State) (c : Nat) : EgrSt := s.strm.egr.get {} c
def State.setEgr (s : State) (c : Nat) (f : EgrSt → EgrSt) : State :=
  { s with strm := { s.strm with egr := s.strm.egr.put c (f (s.egr c)) } }
def State.tile (s : State) (t : Nat) : TileSt := s.lat.tiles.get {} t
def State.setTile (s : State) (t : Nat) (f : TileSt → TileSt) : State :=
  { s with lat := { s.lat with tiles := s.lat.tiles.put t (f (s.tile t)) } }
def State.aud (s : State) (p : Nat) : AudSt := s.audio.ports.get {} p
def State.setAud (s : State) (p : Nat) (f : AudSt → AudSt) : State :=
  { s with audio := { s.audio with ports := s.audio.ports.put p (f (s.aud p)) } }
def State.src (s : State) (c : Nat) : AsrcSt := s.audio.asrc.get {} c
def State.setSrc (s : State) (c : Nat) (f : AsrcSt → AsrcSt) : State :=
  { s with audio := { s.audio with asrc := s.audio.asrc.put c (f (s.src c)) } }
def State.drv (s : State) (c : Nat) : DrvSt := s.power.drv.get {} c
def State.setDrv (s : State) (c : Nat) (f : DrvSt → DrvSt) : State :=
  { s with power := { s.power with drv := s.power.drv.put c (f (s.drv c)) } }
def State.bst (s : State) (g : Nat) : BstSt := s.power.bst.get {} g
def State.setBst (s : State) (g : Nat) (f : BstSt → BstSt) : State :=
  { s with power := { s.power with bst := s.power.bst.put g (f (s.bst g)) } }
def State.sns (s : State) (g : Nat) : SnsSt := s.meas.sns.get {} g
def State.setSns (s : State) (g : Nat) (f : SnsSt → SnsSt) : State :=
  { s with meas := { s.meas with sns := s.meas.sns.put g (f (s.sns g)) } }
def State.queue (s : State) (q : Nat) : QueueSt := s.qmg.queues.get {} q
def State.setQueue (s : State) (q : Nat) (f : QueueSt → QueueSt) : State :=
  { s with qmg := { s.qmg with queues := s.qmg.queues.put q (f (s.queue q)) } }
def State.qport (s : State) (m : Nat) : PortQ := s.qmg.ports.get {} m
def State.setQport (s : State) (m : Nat) (f : PortQ → PortQ) : State :=
  { s with qmg := { s.qmg with ports := s.qmg.ports.put m (f (s.qport m)) } }

end Sys2Proof.Machine
end

