-- ==== Sys2Proof/Machine/Flags.lean ====
section
/-! DEFINITION. Flags: what setting an event flag or a fault flag does. Attention (16), occurrences at the sequencer
(15) and fault messages (17). -/

namespace Sys2Proof.Machine

-- The sequencer's side of an occurrence.

/-- A field of context c of SEQ (Table 15.5). -/
def seqF (f : Fld) (c : Nat) : Fld := f.at 0x20 c

/-- A context enters RUN at ENTRY (Table 15.3). -/
def seqEnter (s : State) (c : Nat) : State :=
  let s := s.setF pgSeq (seqF F.seqCtxStatPc c) (s.act pgSeq (seqF F.seqCtxEntryPc c))
  let s := s.setF pgSeq (seqF F.seqCtxStatDepth c) 0
  let s := s.setF pgSeq (seqF F.seqCtxStatCond c) 0
  let s := s.setF pgSeq (seqF F.seqCtxStatState c) 1
  let s := s.bump pgSeq (seqF F.seqCtxCntRuns c)
  s.setCtx c (fun x => { x with stack := [], wait := .none, txn := none, wdog := 0, expired := false, released := none })

/-- A trigger of a context other than START: it starts an idle context, and otherwise waits or is dropped (R428). -/
def seqTrigger (s : State) (c : Nat) : State :=
  if !s.running pgSeq || s.actIs pgSeq F.ctrlDrain || !s.actIs pgSeq (seqF F.seqCtxCtrlEn c) then s
  else if s.rd pgSeq (seqF F.seqCtxStatState c) = 0 then seqEnter s c
  else if s.is pgSeq (seqF F.seqCtxStatPending c) then s.bump pgSeq (seqF F.seqCtxCntDropped c)
  else s.setB pgSeq (seqF F.seqCtxStatPending c) true

/-- A context in WAIT_EVT goes on with a value of COND (R424, R425). -/
def seqRelease (s : State) (c : Nat) (cond : Bool) : State :=
  let s := s.setB pgSeq (seqF F.seqCtxStatCond c) cond
  let s := s.setF pgSeq (seqF F.seqCtxStatState c) 1
  s.setCtx c (fun x => { x with wait := .none })

/-- One context sees an occurrence: a wait for it ends, or it triggers (R424, R425, R427, R428). -/
def seqSees (page bit : Nat) (enabled : Bool) (s : State) (c : Nat) : State :=
  match (s.ctx c).wait with
  | .commit p =>
    if p = page ∧ bit ≤ 1 then seqRelease s c (bit = 0)
    else if enabled ∧ s.act pgSeq (seqF F.seqCtxCfgTrigKind c) = 1
        ∧ s.act pgSeq (seqF F.seqCtxCfgTrigPage c) = page ∧ s.act pgSeq (seqF F.seqCtxCfgTrigBit c) = bit
      then seqTrigger s c else s
  | .evt p b _ =>
    if enabled ∧ p = page ∧ b = bit then seqRelease s c true
    else if enabled ∧ s.act pgSeq (seqF F.seqCtxCfgTrigKind c) = 1
        ∧ s.act pgSeq (seqF F.seqCtxCfgTrigPage c) = page ∧ s.act pgSeq (seqF F.seqCtxCfgTrigBit c) = bit
      then seqTrigger s c else s
  | _ =>
    if enabled ∧ s.act pgSeq (seqF F.seqCtxCfgTrigKind c) = 1
        ∧ s.act pgSeq (seqF F.seqCtxCfgTrigPage c) = page ∧ s.act pgSeq (seqF F.seqCtxCfgTrigBit c) = bit
      then seqTrigger s c else s

/-- An occurrence of an event is offered to SEQ, which works only while the core does (R427, R524). -/
def seqOccur (s : State) (page bit : Nat) (enabled : Bool) : State :=
  if s.live then (List.range 8).foldl (seqSees page bit enabled) s else s

-- Attention.

/-- Positions of the attention bits in STATUS (Table 16.4). -/
abbrev attFlt : Nat := 11
abbrev attTim : Nat := 10
abbrev attQue : Nat := 9
abbrev attRed : Nat := 8
abbrev attClk : Nat := 7
abbrev attCfg : Nat := 6
abbrev attDia : Nat := 5
abbrev attSeq : Nat := 4

/-- The attention bit that the enabled events of a page raise (Table 16.5). -/
def attOf : PageKind → Nat
  | .tsu | .tpg => attTim
  | .qmg | .qdesc | .mac | .plk | .strg | .ing | .egr | .spx => attQue
  | .red | .flt => attRed
  | .refs | .mcg | .wck | .clk => attClk
  | .dev | .hif | .xbr | .mem | .sec | .latg | .tile | .dbg => attCfg
  | .diag | .mea | .sns | .drv | .bst | .tdm | .aesi | .aeso | .asrc => attDia
  | .seq => attSeq
  | .reserved => attCfg

/-- ATTN_DETAIL names the last raise, and counts it (R446, Table 16.6). -/
def attDetail (s : State) (page bit : Nat) : State :=
  let w := s.reg pgHif F.hifAttnDetail.ofs
  let w := setBits (setBits (setBits w 31 22 page) 21 17 bit) 7 0 (satAdd 8 (getBits w 7 0) 1)
  let s := s.setReg pgHif F.hifAttnDetail.ofs w
  { s with hif := { s.hif with epoch := (s.hif.epoch + 1) % 8 } }

/-- A raise of an attention bit, from a page and its event bit, for a subsystem (R445, R446); each raise is a cycle
of its own but where an event and its record are stored as one (`oneCycle`, log 6). -/
def attRaise (s : State) (att page bit sub : Nat) : State :=
  if !(s.inForce pgHif F.hifAttnEnEn.ofs).getLsbD att then s
  else
    let s := if att = attFlt then s else s.setB pgHif (Fld.bit F.hifAttnBits.ofs att) true
    attDetail (s.setB pgHif (Fld.bit F.hifAttnSubSubsys.ofs sub) true) page bit

/-- Two raises of one CLK_FAB cycle, the first from s to a and the second from a to b, count once, and the one with the lower
page and bit is named (R446, R447). -/
def oneCycle (s a b : State) : State :=
  if a.hif.epoch = s.hif.epoch ∨ b.hif.epoch = a.hif.epoch then b
  else
    let x := a.reg pgHif F.hifAttnDetail.ofs
    let y := b.reg pgHif F.hifAttnDetail.ofs
    let w := setBits (if getBits y 31 17 < getBits x 31 17 then y else x) 7 0 (getBits x 7 0)
    let b := b.setReg pgHif F.hifAttnDetail.ofs w
    { b with hif := { b.hif with epoch := a.hif.epoch } }

/-- A page detects an event: the flag sets, and where PG_EVT_EN enables it, attention and the sequencer follow
(R58, R427, R444). -/
def event (s : State) (p bit : Nat) : State :=
  let s := s.setB p (Fld.bit F.evt.ofs bit) true
  let en := (s.inForce p F.evtEn.ofs).getLsbD bit
  let s := if en then attRaise s (if bit ≤ 1 then attCfg else attOf (pageKind p)) p bit (subsysOf p) else s
  seqOccur s p bit en

/-- A page detects the event of a field of PG_EVT. -/
def eventF (s : State) (p : Nat) (f : Fld) : State := event s p f.lo

/-- An event that raises attention whatever PG_EVT_EN holds (Table 16.5, "Always"). -/
def eventAlways (s : State) (p bit att : Nat) : State :=
  let en := (s.inForce p F.evtEn.ofs).getLsbD bit
  let s := event s p bit
  if en then s else attRaise s att p bit (subsysOf p)

-- Fault messages.

/-- The kind code of a flag of PG_FLT (Tables 2.8 and 17.1 and each chapter's map). -/
def faultKind (k : PageKind) (bit : Nat) : Nat :=
  match bit with
  | 0 => 0x12 | 1 => 0x30 | 2 => 0x31 | 3 => 0x32 | 4 => 0x10 | 5 => 0x11 | 6 => 0x03
  | _ =>
    match k with
    | .mac => nth 0 [0x40, 0x41, 0x42] (bit - 8)
    | .plk => 0x40
    | .refs => nth 0 [0x58, 0x59, 0x5A] (bit - 8)
    | .mcg => 0x53
    | .strg => 0x48
    | .spx => nth 0 [0x49, 0x4A] (bit - 8)
    | .tile => nth 0 [0x11, 0x01, 0x02] (bit - 8)
    | .tdm | .aesi | .aeso => nth 0 [0x50, 0x51, 0x52, 0x53] (bit - 8)
    | .drv => nth 0 [0x60, 0x61, 0x63, 0x50] (bit - 8)
    | .bst => nth 0 [0x64, 0x65] (bit - 8)
    | .sns => nth 0 [0x52, 0x53] (bit - 8)
    | .diag => 0x62
    | .qmg => nth 0 [0x01, 0x02] (bit - 8)
    | .mem => nth 0 [0x01, 0x02, 0x02] (bit - 8)
    | .xbr => nth 0 [0x20, 0x21, 0x22, 0x12] (bit - 8)
    | .seq => 0x12
    | .red => nth 0 [0x70, 0x71, 0x72] (bit - 8)
    | .dev => nth 0 [0x13, 0x52, 0x78, 0x79] (bit - 8)
    | _ => 0

/-- The level kinds (Table 17.1). -/
def isLevelKind (kind : Nat) : Bool := [0x40, 0x52, 0x59, 0x5A, 0x60, 0x64, 0x65, 0x70, 0x78].contains kind

/-- Reaction codes of Table 17.2. -/
abbrev reactSafeDrv : Nat := 1
abbrev reactSafeOut : Nat := 2
abbrev reactBlock : Nat := 3
abbrev reactSubsys : Nat := 4
abbrev reactFailover : Nat := 5
abbrev reactDevice : Nat := 6

/-- The page is shadowed (R470). -/
def State.shadowed (s : State) (p : Nat) : Bool :=
  s.flt.shadows.any (fun h => h.pages.contains p && decide (s.arch.began.get 0 pgFlt < h.until_))

/-- The kinds that no shadow makes Slate (R471, R473). -/
def shadowExempt (src kind : Nat) : Bool :=
  [0x01, 0x02, 0x03, 0x13, 0x14, 0x78, 0x79].contains kind || (kind == 0x52 && src == pgDev)

/-- Enable bits of PG_FLT_EN that read 1 and ignore writes of 0: the kinds a block's chapter declares Crimson (R52). -/
def fltEnFixed : PageKind → Word
  | .tile => 0x400 | .drv => 0x700 | .bst => 0x300 | .dev => 0x300 | .red => 0x400 | _ => 0

/-- A message joins those waiting: a RAISE of the same flag still waiting takes the repeat (R455); where the new
detection is the more severe, the waiting message becomes Crimson with its context, and a Crimson one with another reaction
waits beside it (R473, log 7). -/
def sendRaise (l : List FltMsg) (m : FltMsg) : List FltMsg :=
  match l with
  | [] => [m]
  | x :: xs =>
    if !x.cease && x.src = m.src && x.bit = m.bit && !(x.crim && m.crim && x.react != m.react) then
      (if m.crim && !x.crim then { m with rpt := x.rpt + 1 }
        else { x with rpt := x.rpt + 1, held := x.held && m.held, abs := x.abs && m.abs }) :: xs
    else x :: sendRaise xs m

/-- A level condition stands (R456). -/
def keepLevel (s : State) (v : Level) : State :=
  let others := s.flt.levels.filter (fun x => !(x.src == v.src && x.bit == v.bit && x.ctx == v.ctx))
  { s with flt := { s.flt with levels := others ++ [v] } }

/-- A RAISE waits for FLT (R454, R455). -/
def postRaise (s : State) (m : FltMsg) : State := { s with flt := { s.flt with msgs := sendRaise s.flt.msgs m } }

/-- A block reset is asked for, with its LAST_RESET_CAUSE (R14). -/
def askReset (s : State) (p cause : Nat) : State :=
  { s with arch := { s.arch with rstReq := s.arch.rstReq.put p cause } }

/-- A block detects a fault: the flag sets, and where it is enabled a message goes to FLT (R52, R454). A Crimson fault
whose reaction is BLOCK_RESET resets the block unless it is shadowed (R457, R471). -/
def raiseSev (s : State) (p bit : Nat) (ctx : Word) (crim : Bool) (react : Nat) : State :=
  let s := s.setB p (Fld.bit F.flt.ofs bit) true
  let k := pageKind p
  let kind := faultKind k bit
  let lv := isLevelKind kind
  let en := (s.inForce p F.fltEn.ofs).getLsbD bit || (fltEnFixed k).getLsbD bit
  let lvl : Level := { src := p, bit := bit, kind := kind, ctx := ctx, crim := crim, sent := en }
  let own := crim && react = reactBlock && subsysOf p < 14
  let held := own && s.shadowed p && !shadowExempt p kind
  let runs := (s.arch.rstReq.find p).isSome || s.resetting p
  let msg : FltMsg := { src := p, bit := bit, kind := kind, ctx := ctx, crim := crim, react := react, level := lv,
                        held := held, abs := own && !held && runs }
  let s := if lv then keepLevel s lvl else s
  let s := if en then postRaise s msg else s
  if en && own && !held && !runs then askReset s p 3 else s

/-- An Amber fault. -/
def raise (s : State) (p bit : Nat) (ctx : Word) : State := raiseSev s p bit ctx false 0

/-- A level condition of a flag ends, for the contexts a test names: a CEASE is sent for each RAISE sent (R467, R468). -/
def ceaseIf (s : State) (p bit : Nat) (f : Level → Bool) : State :=
  let hit := fun (x : Level) => x.src == p && x.bit == bit && f x
  let gone := (s.flt.levels.filter hit).filter (·.sent)
  let end_ := fun (x : Level) => ({
    src := x.src, bit := x.bit, kind := x.kind, ctx := x.ctx, crim := x.crim,
    cease := true, level := true } : FltMsg)
  let out := gone.map end_
  { s with flt := { s.flt with levels := s.flt.levels.filter (fun x => !hit x), msgs := s.flt.msgs ++ out } }

/-- A level condition of a flag ends. -/
def cease (s : State) (p bit : Nat) : State := ceaseIf s p bit (fun _ => true)

/-- Every level condition of a page ends, at a block reset or at EN = 0 (R468). -/
def ceaseAll (s : State) (p : Nat) : State :=
  (List.range 32).foldl (fun s b => cease s p b) s

end Sys2Proof.Machine
end

