-- ==== Sys2Proof/Machine/Operands.lean ====
section
/-! DEFINITION. Operand forms: byte addresses of the register window, reply codes, and the ways a write is refused. -/

namespace Sys2Proof.Machine

/-- How a register write is refused (Table 2.12). -/
inductive Veto where
  /-- Out of range or a reserved code: reply PARTIAL and CFG_RANGE. -/
  | range
  /-- Reply BUSY_RETRY, no fault. -/
  | busy
  /-- Running: reply FROZEN and CFG_FROZEN. -/
  | frozen
  /-- Reply FROZEN without a fault (R68). -/
  | held
  deriving DecidableEq, Repr

/-- Reply codes (Table 16.3). -/
abbrev rOk : Nat := 0
abbrev rPartial : Nat := 1
abbrev rDecode : Nat := 2
abbrev rTimeout : Nat := 3
abbrev rLocked : Nat := 4
abbrev rFrozen : Nat := 5
abbrev rAuth : Nat := 6
abbrev rCrc : Nat := 7
abbrev rBusy : Nat := 8
abbrev rLength : Nat := 9

/-- The byte address of a register (R41). -/
def regAddr (p ofs : Nat) : Word := w32 (0x40000000 + p * 4096 + ofs)

/-- An address of the register window: page and offset (R39, R41). -/
def windowOf (a : Nat) : Option (Nat × Nat) :=
  if 0x40000000 ≤ a && a < 0x40400000 then some ((a - 0x40000000) / 4096, a % 4096) else none

/-- A write is refused where a test fails. -/
def vetoUnless (b : Bool) (v : Veto) : Option Veto := if b then none else some v

/-- The first refusal of two. -/
def orVeto (a b : Option Veto) : Option Veto := match a with | some v => some v | none => b

/-- Samples per tick of a domain (R21): Ochre 2, Teal 4, Indigo 8. -/
def samplesOf (dom : Nat) : Nat := 2 ^ (dom + 1)

end Sys2Proof.Machine
end

