-- ==== Sys2Proof/Machine/Frames.lean ====
section
/-! DEFINITION. Frames as bytes: check sequences, headers and checksums (03). Frames run from the destination address
to the end of the FCS. -/

namespace Sys2Proof.Machine

/-- One bit of the reflected CRC-32. -/
def crc32Bit (c : Word) : Word := if c.getLsbD 0 then (c >>> 1) ^^^ 0xEDB88320 else c >>> 1

/-- One byte of the reflected CRC-32. -/
def crc32Byte (c : Word) (b : Byte) : Word :=
  crc32Bit (crc32Bit (crc32Bit (crc32Bit (crc32Bit (crc32Bit (crc32Bit (crc32Bit (c ^^^ b.zeroExtend 32))))))))

/-- The CRC-32 of IEEE 802.3 over bytes (R85, Table 8.2). -/
def crc32 (l : List Byte) : Word := ~~~ (l.foldl crc32Byte 0xFFFFFFFF)

/-- The four FCS bytes of a frame's bytes. -/
def fcsBytes (l : List Byte) : List Byte := bytesLE (crc32 l)

/-- The bytes of a frame without its FCS. -/
def withoutFcs (l : List Byte) : List Byte := l.take (l.length - 4)

/-- The FCS of a frame is right. -/
def fcsOk (l : List Byte) : Bool := 4 ≤ l.length && fcsBytes (withoutFcs l) == l.drop (l.length - 4)

/-- One bit of the hash of R85. -/
def hashBit (d : Byte) (c : Word) (i : Nat) : Word :=
  let f := c.getLsbD 31 != d.getLsbD i
  let c := c <<< 1
  if f then c ^^^ 0x04C11DB7 else c

/-- The hash index of a destination address (R85). -/
def hashIndex (a : List Byte) : Nat :=
  (a.foldl (fun c d => (List.range 8).foldl (hashBit d) c) (0xFFFFFFFF : Word)).toNat / 2 ^ 26

/-- The number at n bytes from an offset, network order. -/
def beAt (l : List Byte) (ofs n : Nat) : Nat := natBE ((l.drop ofs).take n)

/-- Destination and source address of a frame. -/
def dstOf (l : List Byte) : Nat := beAt l 0 6
def srcOf (l : List Byte) : Nat := beAt l 6 6

/-- The frame carries an 802.1Q tag. -/
def isTagged (l : List Byte) : Bool := beAt l 12 2 == 0x8100

/-- Offset of the payload after the EtherType. -/
def l3Ofs (l : List Byte) : Nat := if isTagged l then 18 else 14

/-- EtherType. -/
def etypeOf (l : List Byte) : Nat := beAt l (l3Ofs l - 2) 2

/-- One's-complement sum of 16-bit words, a last odd byte filled with zero. -/
def sum16 : List Byte → Nat
  | a :: b :: r => a.toNat * 256 + b.toNat + sum16 r
  | [a] => a.toNat * 256
  | [] => 0

/-- A sum folded to 16 bits. -/
def fold16 (n : Nat) : Nat :=
  let n := n % 65536 + n / 65536
  let n := n % 65536 + n / 65536
  n % 65536 + n / 65536

/-- The Internet checksum of bytes. -/
def inetSum (l : List Byte) : Nat := 65535 - fold16 (sum16 l)

/-- The IPv4 view of a frame's bytes: header length, total length, protocol, fragmentation, addresses. -/
structure Ipv4 where
  ofs   : Nat := 0
  ihl   : Nat := 0
  total : Nat := 0
  proto : Nat := 0
  frag  : Bool := false
  src   : Nat := 0
  dst   : Nat := 0
  deriving DecidableEq, Repr

/-- The IPv4 header of a frame, where it carries one. -/
def ipv4Of (l : List Byte) : Option Ipv4 :=
  let o := l3Ofs l
  if etypeOf l = 0x0800 ∧ o + 20 ≤ l.length ∧ beAt l o 1 / 16 = 4 then
    let fr := beAt l (o + 6) 2
    some { ofs := o, ihl := beAt l o 1 % 16 * 4, total := beAt l (o + 2) 2, proto := beAt l (o + 9) 1,
           frag := fr / 8192 % 2 == 1 || fr % 8192 != 0, src := beAt l (o + 12) 4, dst := beAt l (o + 16) 4 }
  else none

/-- The IPv4 header checksum of a frame is right (R96). -/
def ipSumOk (l : List Byte) (h : Ipv4) : Bool := fold16 (sum16 ((l.drop h.ofs).take h.ihl)) == 65535

/-- The pseudo-header of UDP over IPv4. -/
def pseudo (h : Ipv4) (len : Nat) : List Byte := bytesBE 4 h.src ++ bytesBE 4 h.dst ++ [0, 17] ++ bytesBE 2 len

/-- A UDP datagram that is no fragment: its offset in the frame. -/
def udpOf (l : List Byte) : Option Nat :=
  match ipv4Of l with
  | some h => if h.proto = 17 ∧ !h.frag ∧ h.ofs + h.ihl + 8 ≤ l.length then some (h.ofs + h.ihl) else none
  | none => none

/-- The UDP checksum of a frame is absent or right (R96). -/
def udpSumOk (l : List Byte) : Bool :=
  match ipv4Of l, udpOf l with
  | some h, some u =>
    let len := beAt l (u + 4) 2
    beAt l (u + 6) 2 == 0 || fold16 (sum16 (pseudo h len ++ (l.drop u).take len)) == 65535
  | _, _ => true

/-- The upper-layer header of an IPv6 packet that lies whole in a frame: its protocol and offset. Hop-by-hop, routing and
destination options are passed over, at most as many as given (RFC 8200). -/
def ip6Upper (l : List Byte) (next ofs : Nat) : Nat → Nat × Nat
  | 0 => (next, ofs)
  | k + 1 =>
    if next = 0 ∨ next = 43 ∨ next = 60 then ip6Upper l (beAt l ofs 1) (ofs + (beAt l (ofs + 1) 1 + 1) * 8) k
    else (next, ofs)

/-- A UDP datagram over IPv6 that is no fragment: its offset in the frame. -/
def udp6Of (l : List Byte) : Option Nat :=
  let o := l3Ofs l
  if etypeOf l = 0x86DD ∧ o + 40 ≤ l.length then
    let u := ip6Upper l (beAt l (o + 6) 1) (o + 40) 8
    if u.1 = 17 ∧ u.2 + 8 ≤ l.length then some u.2 else none
  else none

/-- The checksum of a UDP datagram over IPv6 is zero or right (R96). -/
def udp6SumOk (l : List Byte) : Bool :=
  match udp6Of l with
  | some u =>
    let len := beAt l (u + 4) 2
    beAt l (u + 6) 2 == 0
      || fold16 (sum16 ((l.drop (l3Ofs l + 8)).take 32 ++ bytesBE 4 len ++ bytesBE 4 17 ++ (l.drop u).take len)) == 65535
  | none => true

/-- UDP destination port of a frame. -/
def udpPort (l : List Byte) : Option Nat := (udpOf l).map (fun u => beAt l (u + 2) 2)

/-- A UDP datagram at an offset goes to a PTP port. -/
def ptpPort (l : List Byte) (u : Nat) : Bool := beAt l (u + 2) 2 == 319 || beAt l (u + 2) 2 == 320

/-- Offset of the PTP header, where the frame is PTP by the test of Table 4.2: over Ethernet, or UDP over IPv4. -/
def ptpOfs (l : List Byte) : Option Nat :=
  if etypeOf l = 0x88F7 then some (l3Ofs l)
  else (udpOf l).bind (fun u => if ptpPort l u then some (u + 8) else none)

/-- Offset of the PTP header of a PTP message, over UDP of either version of IP (R86). -/
def ptpMsg (l : List Byte) : Option Nat :=
  match ptpOfs l with
  | some o => some o
  | none => (udp6Of l).bind (fun u => if ptpPort l u then some (u + 8) else none)

/-- A PTP event message: types 0 to 3 (R86, R120). -/
def isPtpEvent (l : List Byte) : Bool :=
  match ptpMsg l with
  | some o => beAt l o 1 % 16 ≤ 3 && o < l.length
  | none => false

/-- Bytes of a list replaced from an offset on. -/
def patch (l : List Byte) (ofs : Nat) (b : List Byte) : List Byte :=
  l.take ofs ++ b ++ l.drop (ofs + b.length)

/-- The IPv4 header checksum written, and the UDP checksum where `full` asks for it, else as zero (R95). DESIGN CHOICE: a
computed UDP checksum of 0 is written as 0xFFFF (log 45). -/
def withChecksums (l : List Byte) (full : Bool) : List Byte :=
  match ipv4Of l with
  | none => l
  | some h =>
    let l := patch l (h.ofs + 10) [0, 0]
    let l := patch l (h.ofs + 10) (bytesBE 2 (inetSum ((l.drop h.ofs).take h.ihl)))
    match udpOf l with
    | none => l
    | some u =>
      let l := patch l (u + 6) [0, 0]
      if full then
        let len := beAt l (u + 4) 2
        let c := inetSum (pseudo h len ++ (l.drop u).take len)
        patch l (u + 6) (bytesBE 2 (if c = 0 then 65535 else c))
      else l

/-- An 802.1Q tag put after the source address. -/
def withTag (l : List Byte) (pcp vid : Nat) : List Byte :=
  l.take 12 ++ bytesBE 2 0x8100 ++ bytesBE 2 (pcp * 8192 + vid) ++ l.drop 12

/-- A frame cut at byte counts: the bytes of each fragment as it leaves, every one but the last ended with its mCRC (R90).
PRESUMED of IEEE 802.3br: the mCRC is the CRC of the frame's bytes sent so far, its last two bytes inverted (log 45). -/
def fragsOf (l : List Byte) (from_ : Nat) : List Nat → List (List Byte)
  | [] => [l.drop from_]
  | b :: bs =>
    let c := bytesLE (crc32 (l.take b) ^^^ 0xFFFF0000)
    ((l.take b).drop from_ ++ c) :: fragsOf l b bs

/-- A frame padded to 60 bytes, its FCS appended (R82). -/
def sealFrame (l : List Byte) : List Byte :=
  let l := l ++ List.replicate (60 - l.length) 0
  l ++ fcsBytes l

/-- Bytes packed four to a word, first byte lowest (R92). -/
def packWords : List Byte → List Word
  | a :: b :: c :: d :: r => (d ++ c ++ b ++ a : Word) :: packWords r
  | [] => []
  | [a] => [(0 : BitVec 24) ++ a]
  | [a, b] => [(0 : BitVec 16) ++ b ++ a]
  | [a, b, c] => [(0 : BitVec 8) ++ c ++ b ++ a]

/-- The bytes that words pack (R92). -/
def unpackWords (l : List Word) : List Byte := l.flatMap bytesLE

end Sys2Proof.Machine
end

