-- ==== Sys2Proof/Machine/Mem.lean ====
section
/-! DEFINITION. Memory banks, the secure bank and the bus matrix (14). -/

namespace Sys2Proof.Machine

/-- The target of a byte address (R402): a bank, 8 the register bridge, 15 the default target. -/
def busTarget (a : Nat) : Nat :=
  match bankOf a with
  | some b => b
  | none => if (windowOf a).isSome then 8 else 15

/-- The life-cycle state (Table 20.7): 0 BLANK, 1 PROVISIONED, 2 DEPLOYED, 3 RMA, 4 SCRAPPED. -/
def lcState (s : State) : Nat := s.rd pgDev F.devLcState

/-- Port B of B7 accepts an access of a master (Table 14.3). -/
def secureAllows (s : State) (m a : Nat) (wr : Bool) : Bool :=
  let key := a < 0x0A008000
  match lcState s with
  | 1 | 2 => if wr then m == 0 else !key && (m == 0 || m == 1 || m == 6)
  | 3 => !key && !wr && m == 6
  | _ => false

/-- A master may reach a bank (Table 14.4). -/
def bankReach (s : State) (m b a : Nat) (wr : Bool) : Bool :=
  (match m with
    | 0 | 6 => true
    | 1 => [1, 2, 4, 6].contains b || (b == 7 && !wr)
    | 2 | 4 => b == 3
    | 3 => b == 1
    | 5 => b == 1 || b == 2
    | _ => false)
  && (b != 7 || secureAllows s m a wr)

/-- XBR records a fault and its address, master, target and kind (Table 14.8). -/
def xbrFault (s : State) (f : Fld) (kind : Nat) (addr : Word) (m tgt : Nat) : State :=
  let s := s.setReg pgXbr F.xbrLastErrAddr.ofs addr
  let s := ((s.setF pgXbr F.xbrLastInfoMaster m).setF pgXbr F.xbrLastInfoTarget tgt).setF pgXbr F.xbrLastInfoKind kind
  raise s pgXbr f.lo addr

/-- The default target answers an access (R40). -/
def defaultAnswer (s : State) (m : Nat) (addr : Word) : State :=
  xbrFault (s.bump pgXbr F.xbrCntDecodeCount) F.xbrFltDecodeErr 0x20 addr m 15

/-- A corrected error at an address (R393). -/
def eccCorrected (s : State) (b a : Nat) : State :=
  let s := (s.bump (pgMem b) F.memEccCorr).setReg (pgMem b) F.memLastErrAddr.ofs (w32 a)
  let s := { s with red := { s.red with eccCorr := satAdd 16 s.red.eccCorr 1 } }
  raise s (pgMem b) F.memFltEccCorr.lo (w32 a)

/-- An uncorrectable error at an address (R394). -/
def eccUncorrected (s : State) (b a : Nat) : State :=
  let s := (s.bump (pgMem b) F.memEccUncorr).setReg (pgMem b) F.memLastErrAddr.ofs (w32 a)
  let s := { s with red := { s.red with eccUncorr := satAdd 16 s.red.eccUncorr 1 } }
  raise s (pgMem b) F.memFltEccUncorr.lo (w32 a)

/-- A block reads the words that a test names, on port A or in its own work on port B: one in error is reported and counts;
with two bits the block takes the zero that memory holds (R393, R394). -/
def eccReads (s : State) (f : Nat → Bool) : State :=
  let s := (s.mx.wback.filter f).foldl (fun s a => eccCorrected s ((bankOf a).getD 0) a) s
  (s.mx.dead.filter f).foldl (fun s a => eccUncorrected s ((bankOf a).getD 0) a) s

/-- Two bits of a word are in error: it reads as zero on either port until it is written whole (R394). -/
def deadWord (s : State) (a : Nat) : State :=
  let s := s.setMemWord a 0
  { s with mx := { s.mx with dead := s.mx.dead ++ [a] } }

/-- The byte address lies in n words from an address on. -/
def inWords (a n x : Nat) : Bool := decide (a ≤ x) && decide (x < a + 4 * n)

/-- The tiles, and MEA as bit 48, at which the present tick has begun. -/
def begunMask (s : State) : BitVec 64 :=
  let has := fun p => s.arch.began.find p == some s.time.tick
  BitVec.ofNat 64 (((List.range 48).filter (fun t => has (pgTile t))).foldl (fun a t => a + 2 ^ t) 0
    + (if has pgMea then 2 ^ 48 else 0))

/-- A write to B1 that clears WRITE_PENDING is remembered for R263. -/
def noteCleared (s : State) (a : Nat) (old new_ : Word) : State :=
  if bankOf a = some 1 ∧ old.getLsbD 31 ∧ !new_.getLsbD 31 then
    { s with lat := { s.lat with cleared := s.lat.cleared.put (a - bankBase 1) (s.time.tick, begunMask s) } }
  else s

/-- A word with the bytes named by byte-enables replaced (R390). -/
def mergeWord (old new_ : Word) (be : BitVec 4) : Word :=
  let m := (List.range 4).foldl (fun m i => if be.getLsbD i then m ||| bitMask (8 * i + 7) (8 * i) else m) (0 : Word)
  (old &&& ~~~m) ||| (new_ &&& m)

/-- A read of a bank word through port B (R394, R401): the word and the response, 0 OK or 2 DATA_ERR. -/
def bankRead (s : State) (b a : Nat) : Word × Nat :=
  if b = 7 ∧ s.mx.wiping.isSome then (0, 0)
  else if s.mx.dead.contains a then (0, 2)
  else (s.memWord a, 0)

/-- A write of a bank word through port B (R390, R394, R400, R401): the response and the state. -/
def bankWrite (s : State) (b a : Nat) (w : Word) (be : BitVec 4) : Nat × State :=
  if b = 7 ∧ s.mx.wiping.isSome then (0, s)
  else if be = 0 then (0, s)
  else if s.mx.dead.contains a ∧ be ≠ 0xF then (2, eccUncorrected s b a)
  else
    let s := if s.mx.wback.contains a ∧ be ≠ 0xF then eccCorrected s b a else s
    let old := s.memWord a
    let new_ := mergeWord old w be
    let s := noteCleared (s.setMemWord a new_) a old new_
    let s := if b = 7 ∧ a < 0x0A008000 then (s.setF pgSec F.secStatSealOk 0).setF pgSec F.secStatKeysUsable 0 else s
    (0, s)

/-- INIT_DONE of a bank: before it, accesses are held (R392). -/
def bankReady (s : State) (b : Nat) : Bool := s.is (pgMem b) F.memStatInitDone

/-- An access of a bank waits: the Memory subsystem restarts (R17), the bank's page resets, or it is not filled (R392,
R404). -/
def bankWaits (s : State) (b : Nat) : Bool := memStalled s || s.resetting (pgMem b) || !bankReady s b

-- The secure bank (R399 to R401).

/-- The word address of the seal. -/
abbrev sealAddr : Nat := 0x0A00FFFC

/-- The CRC-32 of the key region (R400). -/
def keyCrc (s : State) : Word := crc32 ((List.range 32768).map (fun i => Memory.read s.mem (bankBase 7 + i)))

/-- A seal computation starts (R400). -/
def sealStart (s : State) : State :=
  let s := s.setF pgSec F.secStatSealBusy 1
  { s with mx := { s.mx with sealing := true, sealWrite := true } }

/-- The secure-bank check of start-up: the seal is computed and compared, and nothing is written (R400, R410). -/
def sealCheck (s : State) : State :=
  let s := s.setF pgSec F.secStatSealBusy 1
  { s with mx := { s.mx with sealing := true, sealWrite := false, checked := false } }

/-- A seal computation ends (R400). -/
def sealEnd (s : State) : State :=
  if !s.mx.sealing then s
  else
    let s := if s.mx.wiping.isSome then s else eccReads s (inWords (bankBase 7) 8192)
    let crc := keyCrc s
    let s := if s.mx.sealWrite then s.setMemWord sealAddr crc else s
    let ok := s.memWord sealAddr = crc
    let s := { s with mx := { s.mx with sealing := false, sealWrite := false, checked := true } }
    let s := (s.setReg pgSec F.secSealCrc.ofs crc).setF pgSec F.secStatSealBusy 0
    let s := (s.setB pgSec F.secStatSealOk ok).setB pgSec F.secStatKeysUsable ok
    let s := eventF (s.signal pgSec) pgSec F.secEvtSealDone
    if ok then s else eventF s pgSec F.secEvtSealBad

/-- A wipe of B7 starts: every word becomes 0 (R401). A seal computation that SEC_CTRL.SEAL started ends with nothing
written; the check of start-up goes on, on zeros. L becomes 0 (R450). -/
def wipeStart (s : State) (cause : Nat) : State :=
  let m := s.mem.filter (fun c => !(decide (bankBase 7 ≤ c.1) && decide (c.1 < bankBase 7 + bankSize 7)))
  let s := { s with mem := m,
                    mx := { s.mx with wiping := some cause, sealing := s.mx.sealing && !s.mx.checked, sealWrite := false,
                                      dead := s.mx.dead.filter (· < bankBase 7),
                                      wback := s.mx.wback.filter (· < bankBase 7) } }
  let s := ((s.setF pgSec F.secStatWiping 1).setF pgSec F.secStatSealOk 0).setF pgSec F.secStatKeysUsable 0
  let s := (s.setReg pgHif F.hifNetCtrLoL.ofs 0).setReg pgHif F.hifNetCtrHiL.ofs 0
  (s.setB pgSec F.secStatSealBusy s.mx.sealing).setF pgSec F.secStatLastWipeCause cause |>.bump pgSec F.secWipesCount

/-- A wipe ends. -/
def wipeEnd (s : State) : State :=
  if s.mx.wiping.isNone then s
  else
    let s := { s with mx := { s.mx with wiping := none } }
    eventF (s.setF pgSec F.secStatWiping 0) pgSec F.secEvtWipeDone

/-- A refusal of a write to SEC (R410). -/
def secVeto (s : State) (ofs : Nat) (v : Word) : Option Veto :=
  if ofs = 0x044 ∧ v.getLsbD 1 ∧ (s.is pgSec F.secStatSealBusy ∨ s.is pgSec F.secStatWiping) then some .busy else none

/-- What a write to SEC does at once (R401). -/
def secWrote (s : State) (ofs : Nat) (v : Word) : State :=
  if ofs = 0x044 ∧ v.getLsbD 0 then wipeStart s 4 else s

-- Banks: scrub and background test.

/-- A refusal of a write to a MEM page (R409). -/
def memVeto (ofs : Nat) (v : Word) : Option Veto :=
  if ofs = 0x040 then vetoUnless (getBits v 23 16 != 0 && getBits v 1 0 != 3) .range else none

/-- What a write to a MEM page does: BIST_FAIL clears, and the test follows BIST_MODE from the boundary (R396, R398). -/
def memWrote (s : State) (b ofs : Nat) : State :=
  if ofs = 0x040 then
    let s := s.setF (pgMem b) F.memStatBistFail 0
    { s with mx := { s.mx with bist := s.mx.bist.put b { (s.mx.bist.get {} b) with req := true } } }
  else s

def setBist (s : State) (b : Nat) (x : BistSt) : State := { s with mx := { s.mx with bist := s.mx.bist.put b x } }

/-- A window of the background test begins. -/
def bistWindow (s : State) (b ofs : Nat) : State :=
  ((s.setF (pgMem b) F.memBistWinOfs ofs).setF (pgMem b) F.memStatBistPhase 1).setF (pgMem b) F.memStatBistBusy 1

/-- The background test stops. -/
def bistIdle (s : State) (b : Nat) : State :=
  ((setBist s b {}).setF (pgMem b) F.memStatBistPhase 0).setF (pgMem b) F.memStatBistBusy 0

/-- A block reset of a MEM page ends the test and restarts the scrubber's pass; a test that BIST_MODE still asks for starts
anew at the next boundary (R14, R396). -/
def memReset (s : State) (b : Nat) : State :=
  let s := bistIdle s b
  let s := if s.rd (pgMem b) F.memCfgBistMode = 0 then s else setBist s b { req := true }
  { s with mx := { s.mx with scrub := s.mx.scrub.del b } }

/-- A MEM page's local tick boundary: a write of BIST_MODE takes effect (R396). -/
def memBoundary (s : State) (b : Nat) : State :=
  let x := s.mx.bist.get {} b
  if !x.req then s
  else if s.act (pgMem b) F.memCfgBistMode = 0 then
    setBist s b { req := false, ending := s.is (pgMem b) F.memStatBistBusy }
  else if s.is (pgMem b) F.memStatBistBusy then setBist s b {}
  else bistWindow (setBist s b {}) b 0

/-- A phase of a window completes (Table 14.2); the march test failed at a word, or at none (R398). -/
def bistPhase (s : State) (b : Nat) (bad : Option Nat) : State :=
  let p := pgMem b
  let s := s.signal p
  let win := s.rd p F.memBistWinOfs
  match s.rd p F.memStatBistPhase with
  | 1 => s.setF p F.memStatBistPhase 2
  | 2 =>
    let s := s.setF p F.memStatBistPhase 3
    match bad with
    | none => s
    | some w =>
      let a := w32 (bankBase b + win + 4 * w)
      let s := (s.setReg p F.memBistFailAddrAddr.ofs a).setF p F.memStatBistFail 1
      raise s p F.memFltBistFail.lo a
  | 3 =>
    let last := bankSize b ≤ win + 1024
    let s := if last then eventF (s.roll p F.memStatBistPasses) p F.memEvtBistPass else s
    if (s.mx.bist.get {} b).ending then bistIdle s b
    else if !last then bistWindow s b (win + 1024)
    else if s.act p F.memCfgBistMode = 2 then bistWindow s b 0
    else bistIdle s b
  | _ => s

/-- The scrubber of a bank runs: SCRUB_EN, or the self-test of a standby (R395, R499). -/
def scrubOn (s : State) (b : Nat) : Bool :=
  s.actIs (pgMem b) F.memCfgScrubEn || (s.actIs pgRed F.redCfgSelftest && s.rd pgRed F.redStatState == 2)

/-- One word of a scrub pass, which finds bits of it in error (R395). -/
def scrubWord (s : State) (b bits : Nat) : State :=
  let n := s.mx.scrub.get 0 b
  let a := bankBase b + 4 * n
  let s := if bits ≤ 1 ∨ s.mx.dead.contains a then s else deadWord s a
  let s := if s.mx.dead.contains a then eccUncorrected s b a
    else if s.mx.wback.contains a ∨ bits = 1 then
      eccCorrected { s with mx := { s.mx with wback := s.mx.wback.filter (· != a) } } b a
    else s
  let last := bankSize b ≤ 4 * n + 4
  let s := { s with mx := { s.mx with scrub := s.mx.scrub.put b (if last then 0 else n + 1) } }
  if last then
    let s := { s with red := { s.red with scrubs := (s.red.scrubs + 1) % 65536 } }
    eventF (s.roll (pgMem b) F.memScrubPassCount) (pgMem b) F.memEvtScrubPass
  else s

/-- A corrected word of a bank is written back (R393). -/
def writeBack (s : State) (b : Nat) : State :=
  match s.mx.wback.find? (fun a => bankOf a == some b) with
  | some a => { s with mx := { s.mx with wback := s.mx.wback.filter (· != a) } }
  | none => s

/-- A bank is filled with zero words (R392). -/
def bankFill (s : State) (b : Nat) : State :=
  let inBank := fun a => decide (bankBase b ≤ a) && decide (a < bankBase b + bankSize b)
  let s := { s with mem := s.mem.filter (fun c => !inBank c.1),
                    mx := { s.mx with dead := s.mx.dead.filter (fun a => !inBank a),
                                      wback := s.mx.wback.filter (fun a => !inBank a) } }
  s.setF (pgMem b) F.memStatInitDone 1

-- The bus matrix.

/-- A refusal of a write to XBR (Table 14.8). -/
def xbrVeto (ofs : Nat) (v : Word) : Option Veto :=
  match ofs with
  | 0x044 => vetoUnless (10 ≤ getBits v 15 0) .range
  | 0x048 => vetoUnless (1 ≤ getBits v 20 16 && getBits v 20 16 ≤ 16 && 16 ≤ getBits v 8 0 && getBits v 8 0 ≤ 256) .range
  | 0x04C => vetoUnless (8 ≤ getBits v 7 0) .range
  | _ => none

/-- A lock breaks (R407). -/
def lockBreakAct (s : State) (m tgt : Nat) : State :=
  let s := { s with mx := { s.mx with locks := s.mx.locks.del tgt, broken := s.mx.broken.put (m * 16 + tgt) true } }
  let s := s.bump pgXbr F.xbrCntLockbrkCount
  let s := ((s.setF pgXbr F.xbrLastInfoMaster m).setF pgXbr F.xbrLastInfoTarget tgt).setF pgXbr F.xbrLastInfoKind 0x21
  raise s pgXbr F.xbrFltLockBreak.lo (w32 (m + tgt * 256))

/-- The target is locked by another master (R407). -/
def lockedOut (s : State) (m tgt : Nat) : Bool :=
  match s.mx.locks.find tgt with
  | some l => l.master != m
  | none => false

/-- A transaction of a master meets the lock of its target: it takes it, uses it, is to end it, or breaks it. The answer
is true where the transaction carries BROKEN (R407). `inSeq`: it belongs to a locked sequence; `locked`: the sequence goes
on after it. -/
def lockUse (s : State) (m tgt : Nat) (inSeq locked : Bool) : Bool × State :=
  let able := m == 0 || m == 1 || m == 6
  let may := locked && able
  let put := fun (s : State) l => { s with mx := { s.mx with locks := s.mx.locks.put tgt l } }
  let take := fun (s : State) n => put s { master := m, txns := n }
  let clear := fun (s : State) => { s with mx := { s.mx with broken := s.mx.broken.del (m * 16 + tgt) } }
  let rest := fun (s : State) => { s with mx := { s.mx with broken := s.mx.broken.put (m * 16 + tgt) false } }
  match s.mx.broken.find (m * 16 + tgt) with
  | some next => (next, if may then rest s else clear s)
  | none =>
    match s.mx.locks.find tgt with
    | some l =>
      if l.master = m then
        if s.act pgXbr F.xbrLockMaxTxn ≤ l.txns then
          let s := lockBreakAct s m tgt
          (true, if may then rest s else clear s)
        else if inSeq && able then (false, take s (l.txns + 1))
        else (false, put s { l with ending := true })
      else (false, s)
    | none => (false, if inSeq && able then take s 1 else s)

/-- The transaction of a master with which its lock on a target ends begins (R407). -/
def lockLast (s : State) (m tgt : Nat) : State :=
  match s.mx.locks.find tgt with
  | some l => if l.master = m then { s with mx := { s.mx with locks := s.mx.locks.put tgt { l with ending := true } } } else s
  | none => s

/-- The lock of a target ends with the transaction of a master that is in progress (R407). -/
def lockEnds (s : State) (m tgt : Nat) : Bool :=
  match s.mx.locks.find tgt with
  | some l => l.master == m && l.ending
  | none => false

/-- A transaction of a master has completed: the lock that was to end with it ends (R407). -/
def lockDone (s : State) (m tgt : Nat) : State :=
  if lockEnds s m tgt then { s with mx := { s.mx with locks := s.mx.locks.del tgt } } else s

/-- XBR_BUSY.LOCKED (Table 14.8). -/
def lockedMap (s : State) : Nat := (s.mx.locks.map (fun e => 2 ^ e.1)).sum

end Sys2Proof.Machine
end

