-- ==== Sys2Proof/Machine/Dsp.lean ====
section
/-! DEFINITION. The arithmetic of the lattice's tasks (07, 08, 09, 12): rounding, biquads, delays, glides, dynamics,
prediction, rate bridges and meters, and the range checks of their records. -/

namespace Sys2Proof.Machine

/-- v / 2^s rounded to the nearest integer, ties to even (R211). -/
def rne (v : Int) (s : Nat) : Int :=
  let d : Int := ((2 ^ s : Nat) : Int)
  let q := v / d
  let r := v % d
  if d < 2 * r ∨ (2 * r = d ∧ q % 2 = 1) then q + 1 else q

/-- Saturation to the Q1.31 range (R212). -/
def sat32 (v : Int) : Int := satInt 32 v

/-- A sum of products in the 72-bit accumulator, saturating at each addition (R260). -/
def accSum (l : List Int) : Int := l.foldl (fun a p => satInt 72 (a + p)) 0

/-- Element n of a list of numbers, 0 beyond its end. -/
abbrev at0 (l : List Int) (n : Nat) : Int := nth 0 l n

/-- A word of a record, 0 beyond its end: the null record has no words (R265). -/
abbrev rw0 (l : List Word) (n : Nat) : Word := nth 0 l n

/-- The magnitude of a sample; that of −2^31 is 2^31. -/
def mag (x : Int) : Nat := x.natAbs

/-- The signed gain of a UQ4.28 value and a polarity (R259). -/
def signedGain (pol : Bool) (g : Word) : Int := if pol then -(g.toNat : Int) else (g.toNat : Int)

-- Biquads (R269).

/-- One sample through a biquad: coefficients b0, b1, b2, a1, a2 and memories u1, u2, v1, v2. -/
def biquad (c m : List Int) (u : Int) : Int × List Int :=
  let v := sat32 (rne (accSum [at0 c 0 * u, at0 c 1 * at0 m 0, at0 c 2 * at0 m 1,
    -(at0 c 3 * at0 m 2), -(at0 c 4 * at0 m 3)]) 30)
  (v, [u, at0 m 0, v, at0 m 2])

/-- One sample through the enabled stages of a record, in ascending order; a disabled stage holds its memory at 0. -/
def bqChain (rec : List Word) (base n en : Nat) (mem : List Int) (u : Int) : Int × List Int :=
  (List.range n).foldl (fun (x : Int × List Int) j =>
    if en.testBit j then
      let c := (List.range 5).map (fun i => (rw0 rec (base + 5 * j + i)).toInt)
      let r := biquad c ((mem.drop (4 * j)).take 4) x.1
      (r.1, x.2 ++ r.2)
    else (x.1, x.2 ++ [0, 0, 0, 0])) (u, [])

/-- A block of samples through a function with a memory. -/
def mapState {σ : Type} (f : σ → Int → Int × σ) : σ → List Int → List Int × σ
  | m, [] => ([], m)
  | m, x :: xs =>
    let r := f m x
    let t := mapState f r.2 xs
    (r.1 :: t.1, t.2)

-- Delay rings (R270).

/-- One sample through a delay ring in B0: base, length, delay; write pointer and fill count. -/
def delaySample (base len d : Nat) (m : State × Nat × Nat) (u : Int) : Int × (State × Nat × Nat) :=
  let (s, w, f) := m
  if len = 0 then (u, (s, 0, 0))
  else
    let s := s.setMemWord (4 * (base + w)) (w32 (toBits 32 u))
    let f := min (f + 1) len
    let a := 4 * (base + (w + len - d) % len)
    let y := if d < f then (s.memWord a).toInt else 0
    (y, (if d < f then eccReads s (· == a) else s, (w + 1) % len, f))

-- Glides (R274).

/-- One sample of a glide: CUR and REM towards target t over g × n samples. -/
def glideStep (g n : Nat) (t : Int) (m : Int × Nat) : Int × Nat :=
  let rem := if m.2 = 0 ∧ m.1 ≠ t then g * n else m.2
  if rem = 0 then (t, 0) else (m.1 + (t - m.1).tdiv (rem : Int), rem - 1)

-- Dynamics (R276 to R278).

/-- LOG2 of an integer from 0 to 2^31, Q8.24 (R277). -/
def log2Q (v : Nat) : Int :=
  if v = 0 then -32 * 2 ^ 24
  else
    let k := Nat.log2 v
    let t : Int := (v : Int) * 2 ^ 30 / 2 ^ k - 2 ^ 30
    let q := rne (165356241 * t) 30
    let q := rne ((q - 615254065) * t) 30
    let q := rne ((q + 1523639648) * t) 30
    ((k : Int) - 31) * 2 ^ 24 + rne q 6

/-- EXP2 of a Q8.24 value of at most 0, Q2.30 (R277). -/
def exp2Q (g : Int) : Int :=
  let i := g / 2 ^ 24
  if i < -31 then 0
  else
    let u := (g - i * 2 ^ 24) * 64
    let q := rne (84847079 * u) 30
    let q := rne ((q + 241587079) * u) 30
    let q := rne ((q + 747307666) * u) 30
    rne (2 ^ 30 + q) (-i).toNat

/-- The gain of a level (R278): threshold, slope, knee. -/
def gainOf (l th : Int) (slope knee : Nat) : Int :=
  let above := l - th
  let k : Int := (knee : Int)
  let r := if knee = 0 then max above 0
    else if 2 * above ≤ -k then 0
    else if k ≤ 2 * above then above
    else ((2 * above + k) * (2 * above + k)).tdiv (8 * k)
  exp2Q (-(rne (r * (slope : Int)) 16))

/-- One sample of the detector and gain stage (R276): envelope and the last samples, newest first. -/
def dynSample (rec : List Word) (m : Int × List Int) (x : Int) : Int × (Int × List Int) :=
  let la := getBits (rw0 rec 0) 20 16
  let win := (x :: m.2).take (la + 1)
  let a : Int := ((win.map mag).foldl max 0 : Nat)
  let att : Int := ((rw0 rec 4).toNat : Int)
  let rel : Int := ((rw0 rec 5).toNat : Int)
  let e := if m.1 < a then m.1 + rne ((a - m.1) * att) 31 else m.1 - rne ((m.1 - a) * rel) 31
  let g := gainOf (log2Q e.toNat) (rw0 rec 1).toInt (getBits (rw0 rec 2) 16 0) (rw0 rec 3).toNat
  let old := at0 (x :: m.2) la
  (if (rw0 rec 0).getLsbD 30 then sat32 (rne (old * g) 30) else old, (e, (x :: m.2).take 16))

-- Prediction (R211, R212).

/-- Sum of products of two lists, exact. -/
def dot : List Int → List Int → Int
  | a :: as, b :: bs => a * b + dot as bs
  | _, _ => 0

/-- One order of the recursion of R211: coefficients a[1] onwards, and E. -/
def levinson (p : Nat → Int) (st : List Int × Int) (m : Nat) : List Int × Int :=
  let a := st.1
  let k : Int := 2 ^ 30 - 2 ^ 20
  let q := p m * 2 ^ 30 + dot a ((List.range (m - 1)).map (fun j => p (m - 1 - j)))
  let g := min (max (-(q.tdiv st.2)) (-k)) k
  let b := (List.range (m - 1)).map (fun j => at0 a j + rne (g * at0 a (m - 2 - j)) 30)
  (b ++ [g], max 1 (rne (st.2 * (2 ^ 30 - rne (g * g) 30)) 30))

/-- The PREDICT coefficients of the committed samples of 24 ticks, oldest first (R211). -/
def predictCoefs (x : List Int) : List Int :=
  let u := x.map (fun v => v / 256)
  let r := fun k => dot (u.drop k) u
  let r0 := r 0 + r 0 / 1024 + 1
  let p := fun k => (r k * 2 ^ 30).tdiv r0
  ([1, 2, 3, 4, 5, 6, 7, 8].foldl (levinson p) ([], 2 ^ 30)).1

/-- n predicted samples from the history, newest first (R212). -/
def predictBlock (a : List Int) : Nat → List Int → List Int
  | 0, _ => []
  | n + 1, h =>
    let y := sat32 (rne (-(dot a h)) 30)
    y :: predictBlock a n (y :: h)

/-- n samples of HOLD_DECAY after a last sample (R209). -/
def decayBlock (k : Nat) : Nat → Int → List Int
  | 0, _ => []
  | n + 1, l =>
    let y := l - l / ((2 ^ k : Nat) : Int)
    y :: decayBlock k n y

/-- The shift of Table 7.3. -/
def decayShift (dom : Nat) : Nat := dom + 2

/-- The concealment of a block in a mode (R208 to R212), from the state of its CONCEAL task: eight coefficients, then
the history, newest first. -/
def concealment (mode dom : Nat) (work : List Int) : List Int :=
  let n := samplesOf dom
  match mode with
  | 0 => decayBlock (decayShift dom) n (at0 work 8)
  | 1 => predictBlock (work.take 8) n (work.drop 8 ++ List.replicate 8 0)
  | _ => List.replicate n 0

/-- A CONCEAL task's state after a block of tick N commits (R208, R211). -/
def concealCommit (dom tick : Nat) (work data : List Int) : List Int :=
  let l := 24 * samplesOf dom
  let h := (data.reverse ++ work.drop 8).take l
  let a := if (tick + 1) % 24 = 0 then predictCoefs ((h ++ List.replicate (l - h.length) 0).reverse)
    else work.take 8 ++ List.replicate (8 - work.length) 0
  a ++ h

-- Rate bridges (R252 to R254).

/-- The first half of the default coefficients, middle one included (R252). -/
def bridgeHalf (interp : Bool) (m : Nat) : List Int :=
  if m = 2 then
    (if interp then [685537, 2174629, -6632200, -20991736, 8466964, 80349345, 41780202, -185482164, -260008407,
      295676883, 1289361976, 1804205241]
    else [342768, 1087314, -3316100, -10495868, 4233482, 40174673, 20890101, -92741082, -130004204, 147838441,
      644680988, 902102621])
  else
    (if interp then [358991, 1608963, 3221730, 3391660, -288975, -8860821, -19681251, -25634797, -17602953, 9731286,
      51250189, 88392324, 93827821, 44492613, -61512654, -192804964, -286199981, -265569418, -73289502, 298411742,
      791547603, 1292263992, 1665844853, 1804137688]
    else [89748, 402241, 805432, 847915, -72244, -2215205, -4920313, -6408699, -4400738, 2432821, 12812547, 22098081,
      23456955, 11123153, -15378164, -48201241, -71549995, -66392355, -18322375, 74602936, 197886901, 323065998,
      416461213, 451034422])

/-- The default coefficients C[0] to C[L − 1]: symmetric (R252). -/
def bridgeCoefs (interp : Bool) (m : Nat) : List Int :=
  let h := bridgeHalf interp m
  h ++ (h.take (h.length - 1)).reverse

/-- Taps of a bridge of factor M. -/
def bridgeLen (m : Nat) : Nat := 12 * m - 1

/-- Every m-th element of a list, from the first. -/
def everyNth (m : Nat) (l : List Int) : List Int :=
  (List.range ((l.length + m - 1) / m)).map (fun i => at0 l (m * i))

/-- One low-rate sample through an interpolator: m outputs and the history, newest first. -/
def interpStep (c : List Int) (m : Nat) (h : List Int) (x : Int) : List Int × List Int :=
  let h := (x :: h).take (bridgeLen m - 1)
  ((List.range m).map (fun r => sat32 (rne (dot (everyNth m (c.drop r)) h) 31)), h)

/-- A block through an interpolator. -/
def interpBlock (c : List Int) (m : Nat) : List Int → List Int → List Int × List Int
  | h, [] => ([], h)
  | h, x :: xs =>
    let r := interpStep c m h x
    let t := interpBlock c m r.2 xs
    (r.1 ++ t.1, t.2)

/-- A block through a decimator; `j` counts the high-rate samples of the tick. -/
def decimBlock (c : List Int) (m : Nat) : Nat → List Int → List Int → List Int × List Int
  | _, h, [] => ([], h)
  | j, h, x :: xs =>
    let y := sat32 (rne (dot c (x :: h)) 31)
    let t := decimBlock c m (j + 1) ((x :: h).take (bridgeLen m - 1)) xs
    (if j % m = 0 then y :: t.1 else t.1, t.2)

-- Meters (R350). The state: COUNT, PEAK, PEAK_MAX, MS, TP, TP_MAX, CLIP, peak hold, true-peak hold, CLR_SEQ, then 46
-- samples, newest first.

/-- A peak with its hold after a tick's largest magnitude (R350, step 2). -/
def peakStep (a pk hold : Int) (holdSet decay : Nat) : Int × Int :=
  if pk ≤ a then (a, (holdSet : Int))
  else if hold ≠ 0 then (pk, hold - 1)
  else (pk - rne (pk * (decay : Int)) 31, 0)

/-- The METER task's state after a committed block (R350). -/
def meterStep (rec : List Word) (m x : List Int) : List Int :=
  let w0 := rw0 rec 0
  let clr : Int := (getBits w0 7 0 : Int)
  let new := at0 m 9 ≠ clr
  let base := fun i => if new then 0 else at0 m i
  let hold := getBits w0 23 16
  let decay := (rw0 rec 1).toNat
  let a : Int := ((x.map mag).foldl max 0 : Nat)
  let (pk, ph) := peakStep a (at0 m 1) (at0 m 7) hold decay
  let clips := (x.filter (fun v => v == -2147483648 || v == 2147483647)).length
  let ms := x.foldl (fun ms v => ms + rne ((rne (v * v) 31 - ms) * ((rw0 rec 2).toNat : Int)) 31) (at0 m 3)
  let tp := w0.getLsbD 30
  let (ys, hist) := interpBlock (bridgeCoefs true 4) 4 (m.drop 10) x
  let t : Int := ((ys.map mag).foldl max 0 : Nat)
  let (tk, th) := if tp then peakStep t (at0 m 4) (at0 m 8) hold decay else (0, 0)
  [(at0 m 0 + 1) % 2 ^ 32, pk, max (base 2) a, ms, tk, if tp then max (base 5) t else 0,
    min (2 ^ 32 - 1) (base 6 + (clips : Int)), ph, th, clr] ++ hist

/-- The METER state as it lies in memory (Table 12.3). -/
def meterWords (m : List Int) : List Word :=
  let w := fun i => w32 (at0 m i).toNat
  let holds := w32 ((at0 m 7).toNat % 256 * 2 ^ 24 + (at0 m 8).toNat % 256 * 65536 + (at0 m 9).toNat % 256)
  [w 0, w 1, w 2, w 3, w 4, w 5, w 6, holds]
    ++ (List.range 46).map (fun i => w32 (toBits 32 (at0 m (10 + i)))) ++ [w 0]

/-- The METER state that words in B2 spell. -/
def meterLoad (ws : List Word) : List Int :=
  (List.range 7).map (fun i => ((rw0 ws i).toNat : Int))
    ++ [(getBits (rw0 ws 7) 31 24 : Int), (getBits (rw0 ws 7) 23 16 : Int), (getBits (rw0 ws 7) 7 0 : Int)]
    ++ (List.range 46).map (fun i => (rw0 ws (8 + i)).toInt)

-- Range checks of the records (R263).

/-- Words a to b of a record are 0. -/
def zeroWords (r : List Word) (a b : Nat) : Bool := (List.range (b + 1 - a)).all (fun i => rw0 r (a + i) == 0)

/-- The longest delay of a domain: 2.0 s. -/
def maxDelay (dom : Nat) : Nat := 96000 * 2 ^ dom

/-- The fields of a delay ring in three words from index i on. -/
def delayOk (r : List Word) (i dom : Nat) : Bool :=
  let base := (rw0 r i).toNat
  let len := (rw0 r (i + 1)).toNat
  let d := (rw0 r (i + 2)).toNat
  1 ≤ len && len ≤ 524288 && base + len ≤ 16777216 && d + 1 ≤ len && d ≤ maxDelay dom

/-- Table 9.3. -/
def instripOk (r : List Word) (dom : Nat) : Bool :=
  getBits (rw0 r 0) 28 12 == 0 && delayOk r 2 dom && zeroWords r 5 7 && zeroWords r 68 71

/-- Table 9.4. -/
def outstripOk (r : List Word) : Bool :=
  getBits (rw0 r 0) 28 23 == 0 && getBits (rw0 r 0) 22 16 ≤ 64 && zeroWords r 2 7

/-- Table 9.5. -/
def dynOk (r : List Word) (dom : Nat) (out : Bool) : Bool :=
  let la := getBits (rw0 r 0) 20 16
  let th := (rw0 r 1).toInt
  getBits (rw0 r 0) 29 21 == 0 && getBits (rw0 r 0) 15 0 == 0
    && (if out then decide (la ≤ 2 * samplesOf dom) && delayOk r 6 dom else la == 0)
    && decide (-536870912 ≤ th ∧ th ≤ 0) && decide ((rw0 r 2).toNat ≤ 65536)
    && decide ((rw0 r 3).toNat ≤ 134217728) && decide ((rw0 r 4).toNat ≤ 2 ^ 31)
    && decide ((rw0 r 5).toNat ≤ 2 ^ 31) && zeroWords r 9 15

/-- Table 9.10. -/
def firOk (r : List Word) (taps : Nat) : Bool :=
  let base := (rw0 r 1).toNat
  let len := (rw0 r 2).toNat
  (rw0 r 0).toNat == taps && taps ≤ len && len ≤ 524288 && base + len ≤ 16777216 && zeroWords r 3 7
    && zeroWords r (8 + taps) (r.length - 1)

/-- R253. -/
def bridgeOk (r : List Word) (m : Nat) : Bool :=
  rw0 r 0 == 0 && zeroWords r 1 7 && zeroWords r (8 + bridgeLen m) (r.length - 1)

/-- Table 12.2. -/
def meterOk (r : List Word) : Bool :=
  getBits (rw0 r 0) 29 24 == 0 && getBits (rw0 r 0) 15 8 == 0 && decide ((rw0 r 1).toNat ≤ 2 ^ 31)
    && decide ((rw0 r 2).toNat ≤ 2 ^ 31) && zeroWords r 3 7

/-- A crosspoint entry, as two words (Table 9.8). -/
def entryOk (audio buses : Nat) (e : Word × Word) : Bool :=
  decide (getBits e.1 31 20 < audio) && decide (getBits e.1 19 8 < buses) && decide (getBits e.1 6 0 ≤ 64)

/-- Words in pairs. -/
def pairsOf : List Word → List (Word × Word)
  | a :: b :: r => (a, b) :: pairsOf r
  | _ => []

/-- The number of audio inputs of a slice (R282). -/
def audioInputs (h : List Word) (inCount w : Nat) : Nat :=
  inCount - getBits (rw0 h 0) 27 24 * getBits (rw0 h 0) 11 0 * w

end Sys2Proof.Machine
end

