-- ==== Sys2Proof/Machine/Time.lean ====
section
/-! DEFINITION. Network time: the local clock, time-stamps and the pulse generators (04). -/

namespace Sys2Proof.Machine

/-- The anchor in force at an FRC count: c_A, T_A and RATE (R109, R113). -/
def State.anchorAt (s : State) (count : Nat) : Nat × Nat × Int :=
  let a := (s.time.ancC, s.time.ancT, s.time.rate)
  if s.time.ancC ≤ count then a else (s.time.before.find? (fun b => decide (b.1 ≤ count))).getD a

/-- Local time at an FRC count and a part of it in units of 2^-16 ns (R109). -/
def State.localAt (s : State) (count frac : Nat) : Nat :=
  let a := s.anchorAt count
  let d : Int := ((count : Int) - (a.1 : Int)) * 81920 + (frac : Int)
  ((a.2.1 : Int) + floorDiv (d * ((2 : Int) ^ 48 + a.2.2)) (2 ^ 48)).toNat

/-- Local time now. -/
def State.now (s : State) : Nat := s.localAt s.time.frc.toNat 0

/-- Local time at an instant. -/
def State.timeAt (s : State) (i : Instant) : Nat := s.localAt i.frc.toNat i.frac.toNat

/-- Seconds, nanoseconds and fraction of a local time (R110). -/
def secOf (t : Nat) : Nat := t / (1000000000 * 65536)
def nsOf (t : Nat) : Nat := (t / 65536) % 1000000000
def fracOf (t : Nat) : Nat := t % 65536

/-- The 64-bit seconds that a 48-bit value stands for: the nearest to the present (R115). -/
def extendSec (now w : Nat) : Nat :=
  let base := now / 2 ^ 48 * 2 ^ 48 + w
  if base + 2 ^ 47 < now then base + 2 ^ 48
  else if now + 2 ^ 47 < base ∧ 2 ^ 48 ≤ base then base - 2 ^ 48 else base

-- The local clock.

/-- The step that TSU_STEP_SEC, TSU_STEP_NS and TSU_STEP_CTRL hold, in units of 2^-16 ns (R112). -/
def stepValue (s : State) : Int :=
  (ofBits 32 (s.rd pgTsu F.tsuStepSecSec) * 1000000000 + (s.rd pgTsu F.tsuStepNsNs : Int)) * 65536
    + (s.rd pgTsu F.tsuStepCtrlFrac : Int)

/-- A generator's unit of time: local time, or 2^-16 cycles of CLK_MOD counted from tick 0 (R128). -/
def genNow (s : State) (g : GenSt) : Nat := if g.base then s.time.tick * 16384 * 65536 else s.now

/-- The target of pulse k of a generator (R128). -/
def genTarget (g : GenSt) (k : Nat) : Nat :=
  let start := if g.base then ((g.start1 + 2 ^ 32 * (g.start2 % 65536)) * 16384 + g.start0 % 16384) * 65536
    else ((g.start1 + 2 ^ 32 * g.start2) * 1000000000 + g.start0) * 65536
  start + k * (g.period * 65536 + g.frac)

/-- The first pulse from k on whose target lies ahead (R132). -/
def genAhead (s : State) (g : GenSt) (k : Nat) : Nat :=
  let now := genNow s g
  let t := genTarget g k
  let p := g.period * 65536 + g.frac
  if now < t ∨ (now = t ∧ !g.base) then k
  else if g.periodic ∧ p ≠ 0 then k + (now - t + (if g.base then p else p - 1)) / p
  else k + 1

/-- Generator n is past its last pulse. -/
def genSpent (g : GenSt) : Bool :=
  if g.periodic then g.count != 0 && g.count ≤ g.next else 1 ≤ g.next

def State.gen (s : State) (n : Nat) : GenSt := s.time.gens.get {} n
def State.setGen (s : State) (n : Nat) (f : GenSt → GenSt) : State :=
  let s := { s with time := { s.time with gens := s.time.gens.put n (f (s.gen n)) } }
  let s := s.setB pgTpg (F.tpgGenCtrlActive.at 0x20 n) (s.gen n).active
  s.setB pgTpg (F.tpgGenCtrlLevel.at 0x20 n) (s.gen n).level

/-- A generator has finished: ARM clears and GENn_DONE sets (R130). -/
def genDone (s : State) (n : Nat) : State :=
  let s := s.setGen n (fun g => { g with active := false })
  let s := s.setF pgTpg (F.tpgGenCtrlArm.at 0x20 n) 0
  event s pgTpg (8 + n)

/-- An armed generator skips the pulses whose targets have passed (R132); a pulse in progress is not one of them, and
where it is the last the generator ends with it (R130). -/
def genSkip (s : State) (n : Nat) : State :=
  let g := s.gen n
  let k := genAhead s g g.next
  if !g.active || genSpent g || k = g.next then s
  else
    let s := s.setGen n (fun g => { g with next := k })
    let s := event s pgTpg (16 + n)
    if genSpent (s.gen n) && !g.level then genDone s n else s

/-- TSU's local tick boundary: a rate change and a step take effect (R111 to R113, R119). DESIGN CHOICE: a new RATE whose
step is refused at the same boundary applies, and STEP_ERR sets without STEP_DONE; the context of the CFG_RANGE is the
byte address of TSU_STEP_CTRL (log 19). -/
def tsuBoundary (s : State) : State :=
  let go := s.is pgTsu F.tsuStepCtrlGo
  if !s.running pgTsu || (s.time.rateReq.isNone && !go) then s
  else
    let c := s.time.frc.toNat
    let t := s.now
    let stepped : Int := (t : Int) + stepValue s
    let bad := go && decide (stepped < 0)
    let t' := if go && !bad then stepped.toNat else t
    let rate := s.time.rateReq.getD s.time.rate
    let old := (s.time.ancC, s.time.ancT, s.time.rate)
    let s := { s with time := { s.time with ancC := c, ancT := t', rate := rate, rateReq := none,
                                            before := (old :: s.time.before).take 4 } }
    let s := s.setF pgTsu F.tsuStepCtrlGo 0
    let s := if bad then raise (eventF s pgTsu F.tsuEvtStepErr) pgTsu 2 (regAddr pgTsu F.tsuStepCtrlGo.ofs)
      else eventF s pgTsu F.tsuEvtStepDone
    if go && !bad && decide (t < t') then
      (List.range 8).foldl (fun s n => if (s.gen n).base then s else genSkip s n) s
    else s

/-- A refusal of a write to TSU (R112). -/
def tsuVeto (s : State) (ofs : Nat) (v : Word) : Option Veto :=
  if (ofs = 0x060 ∨ ofs = 0x064 ∨ ofs = 0x068) ∧ s.is pgTsu F.tsuStepCtrlGo then some .busy
  else if ofs = 0x064 ∧ 999999999 < getBits v 29 0 then some .range
  else none

/-- What a write to TSU does beyond the register (R111, R124). -/
def tsuWrote (s : State) (ofs : Nat) (v : Word) : State :=
  if ofs = 0x05C then
    let r := ofBits 40 (getBits v 7 0 * 2 ^ 32 + (s.reg pgTsu 0x058).toNat)
    { s with time := { s.time with rateReq := some r } }
  else if ofs = 0x0A4 ∧ v.getLsbD 0 then { s with time := { s.time with txts := s.time.txts.tail } }
  else s

/-- An entry for the TXTS queue (R123, R125); a disabled TSU takes no timestamps (R119). -/
def txtsPush (s : State) (e : TxtsEntry) : State :=
  if !s.running pgTsu then s
  else if 16 ≤ s.time.txts.length then
    eventAlways (s.bump pgTsu F.tsuTxtsStatDropped) pgTsu F.tsuEvtTxtsDrop.lo attTim
  else
    eventF { s with time := { s.time with txts := s.time.txts ++ [e] } } pgTsu F.tsuEvtTxtsAvail

/-- What a read of TSU by a master shows where the register is a view (R114, R124, R126, R127). -/
def tsuView (s : State) (m ofs : Nat) : Option Word :=
  let l := s.latch m
  let h := s.time.txts.head?
  match ofs with
  | 0x040 => some (w32 s.time.frc.toNat)
  | 0x044 => some l.frcHi
  | 0x048 => some (w32 (nsOf s.now))
  | 0x04C => some (w32 (fracOf l.nowT))
  | 0x050 => some (w32 (secOf l.nowT))
  | 0x054 => some (w32 (secOf l.nowT / 2 ^ 32))
  | 0x090 => some (match h with
      | some e => w32 (2 ^ 31 + (if e.err then 2 ^ 30 else 0) + (if e.nonPtp then 2 ^ 29 else 0)
          + e.port % 4 * 2 ^ 24 + e.msgType % 16 * 2 ^ 16 + e.seqId % 65536)
      | none => 0)
  | 0x094 => some (w32 (nsOf ((h.map (·.time)).getD 0)))
  | 0x098 => some (w32 (fracOf ((h.map (·.time)).getD 0)))
  | 0x09C => some (w32 (secOf ((h.map (·.time)).getD 0)))
  | 0x0A0 => some (w32 (secOf ((h.map (·.time)).getD 0) / 2 ^ 32))
  | 0x0A8 => some (setBits (s.reg pgTsu 0x0A8) 20 16 s.time.txts.length)
  | 0x0B0 => some (w32 s.time.tick)
  | 0x0B4 => some (w32 (l.tickNum / 2 ^ 32 % 65536))
  | 0x0B8 => some (w32 (nsOf l.tickT))
  | 0x0BC => some (w32 (fracOf l.tickT))
  | 0x0C0 => some (w32 (secOf l.tickT))
  | 0x0C4 => some (w32 (secOf l.tickT / 2 ^ 32))
  | 0x0C8 => some (w32 (nsOf s.time.ppsIn))
  | 0x0CC => some (w32 (fracOf l.ppsT))
  | 0x0D0 => some (w32 (secOf l.ppsT))
  | 0x0D4 => some (w32 (secOf l.ppsT / 2 ^ 32))
  | _ => none

/-- What a read of TSU latches for its master (R114, R126, R127). -/
def tsuRead (s : State) (m ofs : Nat) : State :=
  match ofs with
  | 0x040 => s.setLatch m (fun l => { l with frcHi := w32 (s.time.frc.toNat / 2 ^ 32) })
  | 0x048 => s.setLatch m (fun l => { l with nowT := s.now })
  | 0x0B0 => s.setLatch m (fun l => { l with tickNum := s.time.tick, tickT := s.time.tickT })
  | 0x0C8 => s.setLatch m (fun l => { l with ppsT := s.time.ppsIn })
  | _ => s

/-- A rising edge of PPS_IN (R127). -/
def ppsEdge (s : State) (frac : Nat) : State :=
  let t := s.localAt s.time.frc.toNat frac
  let s := { s with time := { s.time with ppsIn := t } }
  eventF (s.roll pgTsu F.tsuPpsinCntCount) pgTsu F.tsuEvtPpsin

-- Pulse generators.

/-- The fields of generator n as its registers hold them. -/
def genLoad (s : State) (n : Nat) : GenSt :=
  let a := fun f => s.act pgTpg (f.at 0x20 n)
  { active := true, armReq := none, base := a F.tpgGenCtrlBase != 0, periodic := a F.tpgGenCtrlPeriodic != 0,
    start0 := a F.tpgGenStart0, start1 := a F.tpgGenStart1, start2 := a F.tpgGenStart2,
    period := a F.tpgGenPeriodPeriod, frac := a F.tpgGenPeriodFracFrac, width := a F.tpgGenWidthWidth,
    count := a F.tpgGenCountCount, next := 0, level := (s.gen n).level,
    ends := (s.gen n).ends, endsMedia := (s.gen n).endsMedia }

/-- One generator at TPG's boundary: it is armed or disarmed (R130, R132). -/
def genBoundary (s : State) (n : Nat) : State :=
  match (s.gen n).armReq with
  | some true => genSkip (s.setGen n (fun _ => genLoad s n)) n
  | some false => s.setGen n (fun g => { g with active := false, armReq := none })
  | none => s

/-- TPG's local tick boundary. -/
def tpgBoundary (s : State) : State := (List.range 8).foldl genBoundary s

/-- The generators stop: at EN = 0 and at a block reset (R14, R51; log 8). -/
def tpgStop (s : State) : State :=
  (List.range 8).foldl (fun s n => s.setGen n (fun g => { g with active := false, level := false, armReq := none })) s

/-- The code of a pin's source is reserved (R133). -/
def badPinSel (v : Word) : Bool := (List.range 8).any (fun k => 8 < getBits v (4 * k + 3) (4 * k))

/-- A refusal of a write to TPG (R131, R133). -/
def tpgVeto (s : State) (ofs : Nat) (v : Word) : Option Veto :=
  if ofs = 0x140 then vetoUnless (getBits v 3 0 ≤ 8) .range
  else if ofs = 0x144 ∨ ofs = 0x148 then vetoUnless (!badPinSel v) .range
  else if 0x040 ≤ ofs ∧ ofs < 0x140 ∧ ofs % 0x20 = 0 ∧ v.getLsbD 0 then
    let n := (ofs - 0x40) / 0x20
    let width := s.rd pgTpg (F.tpgGenWidthWidth.at 0x20 n)
    let p := s.rd pgTpg (F.tpgGenPeriodPeriod.at 0x20 n) * 65536 + s.rd pgTpg (F.tpgGenPeriodFracFrac.at 0x20 n)
    let low := if v.getLsbD 2 then 8 * 65536 else 20 * 65536
    vetoUnless (width != 0 && (!v.getLsbD 1 || (width * 65536 < p && low ≤ p))) .range
  else none

/-- The bits of a register of TPG that are reserved on the media base (R135). -/
def mediaReserved (ofs : Nat) : Word :=
  if ofs < 0x040 ∨ 0x140 ≤ ofs then 0
  else match ofs % 0x20 with
    | 0x04 => 0x3FFFC000
    | 0x0C => 0xFFFF0000
    | _ => 0

/-- The generator whose registers hold an offset of TPG is set to the media base. -/
def onMedia (s : State) (ofs : Nat) : Bool := s.is pgTpg (F.tpgGenCtrlBase.at 0x20 ((ofs - 0x40) / 0x20))

/-- A generator set to the media base reads its reserved bits as 0 (R46, R135); what they held is not kept (log 8). -/
def mediaMask (s : State) (ofs : Nat) : State :=
  if !onMedia s ofs then s
  else [ofs + 0x04, ofs + 0x0C].foldl (fun s o => s.setReg pgTpg o (s.reg pgTpg o &&& ~~~mediaReserved o)) s

/-- What a write to TPG does beyond the register: arming and disarming wait for the boundary (R130).
A draining TPG arms nothing (log 12). -/
def tpgWrote (s : State) (ofs : Nat) (v : Word) : State :=
  if 0x040 ≤ ofs ∧ ofs < 0x140 ∧ ofs % 0x20 = 0 then
    let s := mediaMask s ofs
    if v.getLsbD 0 && s.actIs pgTpg F.ctrlDrain then s
    else s.setGen ((ofs - 0x40) / 0x20) (fun g => { g with armReq := some (v.getLsbD 0) })
  else s

/-- A time of a generator's base has come: local time, or a CLK_MOD cycle counted from tick 0, of which the present one is
cycle `cyc` of the tick (R129). -/
def genReached (s : State) (media : Bool) (cyc t : Nat) : Bool :=
  if media then decide (t / 65536 ≤ s.time.tick * 16384 + cyc) else decide (t ≤ s.now)

/-- A pulse of generator n begins, once its target has come (R129, R132). -/
def pulseBegin (s : State) (n cyc : Nat) : State :=
  let g := s.gen n
  if g.active && !g.level && !genSpent g && genReached s g.base cyc (genTarget g g.next) then
    s.setGen n (fun g => { g with level := true, next := g.next + 1, endsMedia := g.base,
                                  ends := genTarget g g.next + g.width * 65536 })
  else s

/-- A pulse of generator n ends, WIDTH after its target; after the last one the generator is done (R129, R130). -/
def pulseFinish (s : State) (n cyc : Nat) : State :=
  let g := s.gen n
  if !g.level || !genReached s g.endsMedia cyc g.ends then s
  else
    let s := s.setGen n (fun g => { g with level := false })
    if g.active && genSpent g then genDone s n else s

/-- The level of PPS_OUT (R133). -/
def ppsOut (s : State) : Bool :=
  let c := s.act pgTpg F.tpgPpsSelSrc
  if c = 0 then false
  else
    let pol := s.actIs pgTpg (F.tpgGenCtrlPol.at 0x20 (c - 1))
    if s.running pgTpg && (s.gen (c - 1)).level then !pol else pol

/-- The level of EVk; none where its driver is off (R133). -/
def evOut (s : State) (k : Nat) : Option Bool :=
  let f := if k < 8 then F.tpgEvSelLoSrc else F.tpgEvSelHiSrc
  let c := (s.act pgTpg f >>> (4 * (k % 8))) % 16
  if c = 0 then none
  else
    let pol := s.actIs pgTpg (F.tpgGenCtrlPol.at 0x20 (c - 1))
    some (if s.running pgTpg && (s.gen (c - 1)).level then !pol else pol)

end Sys2Proof.Machine
end

