-- ==== Sys2Proof/Machine/Mac.lean ====
section
/-! DEFINITION. Network ports: link states, statistics, PAUSE and preemption (03). Links 0 to 3 are MAC0 to MAC3, 4 is
PLK, whose fields lie at the offsets of the MAC map (R107). -/

namespace Sys2Proof.Machine

/-- Link states (Table 3.2): 0 DOWN, 1 ACQUIRE, 2 UP. -/
def linkState (s : State) (l : Nat) : Nat := s.rd (pgLink l) F.macLinkState

-- Statistics.

/-- The counters that run in Service mode (Tables 3.4 and 3.5). -/
def inService (l n : Nat) : Bool := l == 4 || [17, 25, 28, 29, 30, 31, 35, 39, 43, 44, 45, 47].contains n

/-- The counters of a link. -/
def nCounters (l : Nat) : Nat := if l = 4 then 8 else 48

/-- Counter n of a link counts once (R99). -/
def count (s : State) (l n : Nat) : State :=
  let p := pgLink l
  let f := F.macCntCount.at 4 n
  if s.is p F.macStatsModeMode then
    let old := s.rd p f
    let s := s.roll p f
    if old = 2 ^ 31 - 1 then
      let h := if n < 32 then Fld.bit F.macCntHalfLoBits.ofs n else Fld.bit F.macCntHalfHiBits.ofs (n - 32)
      event (s.setB p h true) p F.macEvtCntHalf.lo
    else s
  else if inService l n then s.bump p f else s

/-- Counter n counts k times. -/
def countN (s : State) (l n : Nat) : Nat → State
  | 0 => s
  | k + 1 => countN (count s l n) l n k

/-- Counters of a list. -/
def countAll (s : State) (l : Nat) (ns : List Nat) : State := ns.foldl (fun s n => count s l n) s

/-- The mode that R100 gives a link's statistics: Survey. -/
def surveyDue (s : State) (l : Nat) : Bool :=
  let p := pgLink l
  match s.act p F.macStatsModeOverride with
  | 1 => false
  | 2 => true
  | _ => !s.net.ranOnce || s.act p F.macTestLoopback != 0 || s.actIs p F.macTestPrbsEn
      || s.net.recovery.get false l

/-- Every counter of a link is cleared. -/
def clearCounters (s : State) (l : Nat) : State :=
  (List.range (nCounters l)).foldl (fun s n => s.setF (pgLink l) (F.macCntCount.at 4 n) 0) s

/-- A window of R102 begins at the tick numbers divisible by 2,400. -/
def stormWindow (s : State) (l : Nat) : State :=
  if s.time.tick % 2400 = 0 then s.setPort l (fun x => { x with fcsCount := 0, fcsRaised := false }) else s

/-- A pause quantum of a port, in units of 10 ps (Table 3.1). -/
def quantumOf (s : State) (l : Nat) : Nat :=
  match s.act (pgLink l) F.macPhyMode with
  | 0 => 2048
  | 1 => 5120
  | _ => 51200

/-- MAC_PAUSE_STAT: RX_REMAIN follows the pause timer, and until PAUSE_TIMER_EXPIRY something of it is left (R97,
Table 3.6). -/
def macView (s : State) (l ofs : Nat) : Option Word :=
  if ofs ≠ 0x070 ∨ l = 4 ∨ !s.is (pgLink l) F.macPauseStatRxPaused then none
  else
    let x := s.port l
    let gone := (s.time.frc.toNat - x.pauseC) * 125 / quantumOf s l
    some (setBits (s.reg (pgLink l) ofs) 31 16 (max 1 (x.pauseQ - gone)))

/-- A link's local tick boundary: the mode of its statistics, and the window of R102. -/
def macBoundary (s : State) (l : Nat) : State :=
  let p := pgLink l
  let s := stormWindow s l
  let due := surveyDue s l
  if due = s.is p F.macStatsModeMode then s
  else
    let s := (List.range (nCounters l)).foldl (fun s n =>
      s.setF p (F.macSnapCount.at 4 n) (s.rd p (F.macCntCount.at 4 n))) s
    let s := clearCounters s l
    let s := s.setReg p F.macCntHalfLoBits.ofs 0
    let s := if l = 4 then s else s.setReg p F.macCntHalfHiBits.ofs 0
    event (s.setB p F.macStatsModeMode due) p F.macEvtModeChange.lo

/-- A recovery window opens on every link (R100). -/
def openRecovery (s : State) : State :=
  let r := (List.range 5).foldl (fun r l => SMap.put r l true) s.net.recovery
  { s with net := { s.net with recovery := r } }

-- Link states.

/-- Auto-negotiation is part of the link's conditions (Table 3.2, Table 3.6). -/
def anNeeded (s : State) (l : Nat) : Bool :=
  l != 4 && s.act (pgLink l) F.macPhyMode == 2 && s.actIs (pgLink l) F.macPhyAnEn

/-- The conditions of the row from ACQUIRE to UP hold (Table 3.2). -/
def upConditions (s : State) (l : Nat) : Bool :=
  (s.port l).lock && !s.is (pgLink l) F.macLinkLocalFault
    && (!anNeeded s l || s.is (pgLink l) F.macLinkAnDone)

/-- Preemption is active without verification (R89). -/
def preForced (s : State) (l : Nat) : Bool :=
  s.actIs (pgLink l) F.macPrePreEn && s.actIs (pgLink l) F.macPreVerifyDis

/-- The verify protocol does not run: STATE is DISABLED, and ACTIVE follows VERIFY_DIS (R89). DESIGN CHOICE: the spec does
not state what the two read after a success, from a change to DOWN until the link next reaches UP; they read 0 where
VERIFY_DIS = 0 (log 45). -/
def preIdle (s : State) (l : Nat) : State :=
  if l = 4 then s else (s.setB (pgLink l) F.macPreStatActive (preForced s l)).setF (pgLink l) F.macPreStatState 0

/-- The link enters UP (R76, R89). -/
def linkUp (s : State) (l : Nat) : State :=
  let p := pgLink l
  let s := s.setF p F.macLinkState 2
  let s := cease s p F.macFltLinkDown.lo
  let s := event s p F.macEvtLinkUp.lo
  if l = 4 || !s.actIs p F.macPrePreEn || preForced s l then s
  else (s.setF p F.macPreStatState 1).setPort l (fun x => { x with verifies := 0 })

/-- A link in ACQUIRE whose conditions hold enters UP (R75). -/
def tryUp (s : State) (l : Nat) : State :=
  if linkState s l = 1 && upConditions s l then linkUp s l else s

/-- With HOLDUP = 0 the link enters UP as soon as the conditions hold (R75). -/
def tryUpAtOnce (s : State) (l : Nat) : State :=
  if s.act (pgLink l) F.macLinkCfgHoldup = 0 then tryUp s l else s

/-- The link enters ACQUIRE. -/
def linkAcquire (s : State) (l : Nat) : State := tryUpAtOnce (s.setF (pgLink l) F.macLinkState 1) l

/-- The link leaves for DOWN; from UP it raises LINK_DOWN (R76). -/
def linkDown (s : State) (l : Nat) : State :=
  let p := pgLink l
  let up := linkState s l = 2
  let s := preIdle (s.setF p F.macLinkState 0) l
  if up then
    let s := count s l (if l = 4 then 7 else 47)
    let s := raise s p F.macFltLinkDown.lo (w32 l)
    event s p F.macEvtLinkDown.lo
  else s

-- Preemption (R89).

/-- The verify protocol ends: 2 SUCCEEDED or 3 FAILED. -/
def verifyEnd (s : State) (l v : Nat) : State :=
  let p := pgLink l
  let s := s.setF p F.macPreStatState v
  let s := s.setB p F.macPreStatActive (v = 2)
  eventF s p F.macEvtPreVerifyDone

-- PAUSE.

/-- The station address of a port. -/
def stationOf (s : State) (q : Nat) : Nat := s.rd (pgLink q) F.macAddrHiAddr * 2 ^ 32 + s.rd (pgLink q) F.macAddrLoAddr

/-- A PAUSE frame (R98). -/
def pauseFrame (s : State) (q quanta : Nat) : TxFrame :=
  { express := false, rank := 4,
    bytes := bytesBE 6 0x0180C2000001 ++ bytesBE 6 (stationOf s q) ++ bytesBE 2 0x8808 ++ bytesBE 2 1
      ++ bytesBE 2 quanta }

/-- A frame becomes ready on a link. -/
def ready (s : State) (l : Nat) (f : TxFrame) : State :=
  s.setPort l (fun x => { x with ready := x.ready ++ [{ f with since := x.serial }], serial := x.serial + 1 })

/-- Cells of the pool in use (R368). -/
def poolUsed (s : State) : Nat := 65536 - s.rd pgQmg F.qmgPoolFreeCells

/-- One port after a change of the pool's occupancy (R98). DESIGN CHOICE: where TX_EN is written 0 while the pool is above
XOFF, TX_XOFF keeps what it reads until TX_EN is 1 again and the pool falls, or the port stops (log 45). -/
def pausePort (s : State) (q : Nat) : State :=
  let p := pgLink q
  let occ := poolUsed s
  if !s.running p || !s.actIs p F.macPauseTxEn then s
  else if !(s.port q).xoff && s.act p F.macPauseThrXoff < occ then
    let s := (s.setF p F.macPauseStatTxXoff 1).setPort q (fun x => { x with xoff := true })
    ready s q (pauseFrame s q (s.act p F.macPauseTxQuanta))
  else if (s.port q).xoff && occ ≤ s.act p F.macPauseThrXon then
    let s := (s.setF p F.macPauseStatTxXoff 0).setPort q (fun x => { x with xoff := false })
    ready s q (pauseFrame s q 0)
  else s

/-- Every port after a change of the pool's occupancy. -/
def pauseUpdate (s : State) : State := (List.range 4).foldl pausePort s

/-- Half of TX_QUANTA has elapsed while the occupancy stays above XON (R98). -/
def pauseAgain (s : State) (q : Nat) : State :=
  let p := pgLink q
  if s.running p && (s.port q).xoff && s.actIs p F.macPauseTxEn && s.act p F.macPauseThrXon < poolUsed s then
    ready s q (pauseFrame s q (s.act p F.macPauseTxQuanta))
  else s

/-- A PAUSE received at an FRC count (R97). -/
def pauseSet (s : State) (q quanta c : Nat) : State :=
  let p := pgLink q
  if s.actIs p F.macPauseRxEn then
    let s := s.setPort q (fun x => { x with pauseQ := quanta, pauseC := c })
    (s.setF p F.macPauseStatRxRemain quanta).setB p F.macPauseStatRxPaused (quanta != 0)
  else s

-- Registers.

/-- A refusal of a write to a MAC (R73, R98, R106). -/
def macVeto (ofs : Nat) (v : Word) : Option Veto :=
  let b := fun h l => getBits v h l
  match ofs with
  | 0x040 => vetoUnless (b 1 0 ≠ 3 && b 3 2 ≠ 3 && (b 3 2 ≠ 2 || b 1 0 == 0) && (b 3 2 == 0 || b 1 0 ≠ 2)) .range
  | 0x044 => vetoUnless (64 ≤ b 13 0 && b 13 0 ≤ 9216) .range
  | 0x060 => vetoUnless (1 ≤ b 19 16 && 1 ≤ b 15 8 && b 15 8 ≤ 128) .range
  | 0x068 => vetoUnless (b 31 16 ≠ 0) .range
  | 0x06C => vetoUnless (b 31 16 < b 15 0) .range
  | 0x088 => vetoUnless (1 ≤ b 15 8 && b 1 0 ≠ 3) .range
  | 0x098 => vetoUnless (b 1 0 ≠ 3) .range
  | _ => none

/-- A refusal of a write to PLK (R103, R107). -/
def plkVeto (ofs : Nat) (v : Word) : Option Veto :=
  let b := fun h l => getBits v h l
  match ofs with
  | 0x040 => vetoUnless (b 3 2 ≠ 3) .range
  | 0x088 => vetoUnless (1 ≤ b 15 8 && b 1 0 ≠ 3) .range
  | 0x098 => vetoUnless (b 1 0 ≠ 3) .range
  | _ => none

/-- CLEAR acts: in Survey mode every counter is cleared (R99). -/
def macOp (s : State) (l : Nat) : State := if s.is (pgLink l) F.macStatsModeMode then clearCounters s l else s

/-- What a write to a link's page does at once beyond the register (Table 3.6). -/
def macWrote (s : State) (l ofs : Nat) (v : Word) : State :=
  if ofs = 0x098 ∧ v.getLsbD 2 then s.setF (pgLink l) F.macTestPrbsErrors 0
  else if ofs = 0x060 ∧ l ≠ 4 then preIdle s l
  else s

/-- A link's page starts: with lock it acquires (R89, Table 3.2). -/
def macStart (s : State) (l : Nat) : State :=
  let s := preIdle s l
  if linkState s l = 0 && (s.port l).lock then linkAcquire s l else s

/-- What a link loses when it stops or is reset (R14, R51, R106). -/
def macIdle (s : State) (l : Nat) : State :=
  let s := s.setPort l (fun x => { x with
    ready := [], headExp := .none, headPre := .none, rxOpen := none, xoff := false, respond := false })
  let s := s.setF (pgLink l) F.macLinkRemoteFault 0
  if l = 4 then s
  else
    let p := pgLink l
    let s := (s.setF p F.macPauseStatTxXoff 0).setF p F.macPauseStatRxPaused 0
    s.setF p F.macPauseStatRxRemain 0

/-- A block reset returns the PCS to its reset state: lock, local fault and auto-negotiation are to come again (R14, R106);
the window of R102 goes on, in which FCS_STORM is raised once. -/
def pcsReset (s : State) (l : Nat) : State :=
  let s := s.setPort l (fun x => { x with lock := false })
  let s := s.setF (pgLink l) F.macLinkLocalFault 0
  if l = 4 then s else s.setF (pgLink l) F.macLinkAnDone 0

-- Host transmit items.

/-- A host transmit item, read by its header (Table 3.3). -/
structure TxItem where
  /-- It is of the express class: CLASS = 1, or a PTP event message (R88). -/
  cls    : Bool := false
  csum   : Bool := false
  launch : Option Nat := none
  tsReq  : Bool := false
  bytes  : List Byte := []
  deriving DecidableEq, Repr

/-- The local time that a launch time stands for: seconds bits above 31 from the present (R93). -/
def launchTime (s : State) (ns sec : Nat) : Nat :=
  ((secOf s.now / 2 ^ 32 * 2 ^ 32 + sec) * 1000000000 + ns) * 65536

/-- The item that words spell (R92). -/
def txItemOf (s : State) (it : List Word) : TxItem :=
  let h := nth 0 it 0
  let lt := h.getLsbD 18
  let b := (unpackWords (it.drop (if lt then 3 else 1))).take (getBits h 13 0)
  { cls := h.getLsbD 16 || isPtpEvent b, csum := h.getLsbD 19, tsReq := h.getLsbD 17,
    launch := if lt then some (launchTime s (getBits (nth 0 it 1) 29 0) (nth 0 it 2).toNat) else none,
    bytes := b }

/-- The host queue of a port: EXP_Q, or PRE_Q. -/
def hostQueue (s : State) (q : Nat) (express : Bool) : Option Nat :=
  let p := pgLink q
  if express then (if s.actIs p F.macTxqExpEn then some (s.act p F.macTxqExpQ) else none)
  else if s.actIs p F.macTxqPreEn then some (s.act p F.macTxqPreQ) else none

/-- A timestamp in TXTS for a host item that asked for it (R123). -/
def txtsFor (s : State) (q : Nat) (b : List Byte) (t : Option Nat) : State :=
  let o := ptpOfs b
  txtsPush s { err := t.isNone, nonPtp := o.isNone, port := q, time := t.getD 0,
               msgType := (o.map (fun x => beAt b x 1 % 16)).getD 0,
               seqId := (o.map (fun x => beAt b (x + 30) 2)).getD 0 }

/-- Where the head item of a host queue stands. -/
def headSt (s : State) (q : Nat) (ex : Bool) : HeadSt := if ex then (s.port q).headExp else (s.port q).headPre

def setHead (s : State) (q : Nat) (ex : Bool) (h : HeadSt) : State :=
  s.setPort q (fun x => if ex then { x with headExp := h } else { x with headPre := h })

/-- The head item of a host queue is ready to start (R88). -/
def headReady (s : State) (q : Nat) (ex : Bool) : State :=
  (setHead s q ex (.ready (s.port q).serial)).setPort q (fun x => { x with serial := x.serial + 1 })

/-- Its launch time lies more than 1 s ahead of the present (R94). -/
def launchFar (s : State) (i : TxItem) : Bool :=
  match i.launch with
  | none => false
  | some l => decide (s.now + 1000000000 * 65536 < l)

end Sys2Proof.Machine
end

