-- ==== Sys2Proof/Machine/Queues.lean ====
section
/-! DEFINITION. The queue manager (13). The words of an item lie in its cells of B3; cells of internal holders are counted
and not placed (log 10). -/

namespace Sys2Proof.Machine

/-- The page and a field of the descriptor of queue q (R369). -/
def descPage (q : Nat) : Nat := 0x19 + q / 256
def descF (f : Fld) (q : Nat) : Fld := f.at 16 (q % 256)

def qdRd (s : State) (q : Nat) (f : Fld) : Nat := s.rd (descPage q) (descF f q)
def qdAct (s : State) (q : Nat) (f : Fld) : Nat := s.act (descPage q) (descF f q)
def qdSet (s : State) (q : Nat) (f : Fld) (v : Nat) : State := s.setF (descPage q) (descF f q) v

/-- QMG serves requests. -/
def qmgOn (s : State) : Bool := s.running pgQmg && !s.resetting pgQmg

/-- The queue takes and gives items (R380). -/
def queueOn (s : State) (q : Nat) : Bool := qmgOn s && qdAct s q F.qdescW0En == 1

/-- Cells of k words (R365). -/
def cellsOf (k : Nat) : Nat := (k + 15) / 16

/-- Cells of the open items addressed to a queue. -/
def openCells (s : State) (q : Nat) : Nat :=
  (s.qmg.ports.map (fun e => match e.2.open_ with
    | some o => if o.queue = q then o.cells.length else 0
    | none => 0)).sum

/-- Occupancy of a queue (R367). -/
def occOf (s : State) (q : Nat) : Nat :=
  ((s.queue q).items.map (fun i => i.cells.length)).sum - (s.queue q).popped / 16 + openCells s q

/-- The byte address of word i of an item in its cells of B3 (R365). -/
def cellAddr (cells : List Nat) (i : Nat) : Nat := bankBase 3 + 64 * nth 0 cells (i / 16) + 4 * (i % 16)

/-- The words of an item as B3 holds them. -/
def itemWords (s : State) (it : PoolItem) : List Word :=
  (List.range it.words).map (fun i => s.memWord (cellAddr it.cells i))

/-- The address lies in one of some cells. -/
def inCells (cells : List Nat) (a : Nat) : Bool := decide (bankBase 3 ≤ a) && cells.contains ((a - bankBase 3) / 64)

/-- Cells that items hold, linked or open. A cell read to its end is free again (R379). -/
def usedCells (s : State) : List Nat :=
  s.qmg.queues.flatMap (fun e => (e.2.items.flatMap (·.cells)).drop (e.2.popped / 16))
    ++ s.qmg.ports.flatMap (fun e => match e.2.open_ with
      | some o => o.cells
      | none => [])

/-- The first cell from a number on that is not used. -/
def freeFrom (used : List Nat) (c : Nat) : Nat → Nat
  | 0 => c
  | k + 1 => if used.contains c then freeFrom used ((c + 1) % 65536) k else c

/-- Cells with n new ones behind them: which of the free cells the list of free cells gives is a free value (log 10). -/
def newCells (s : State) (l : List Nat) : Nat → List Nat × State
  | 0 => (l, s)
  | k + 1 =>
    let (v, s) := s.fresh
    newCells s (l ++ [freeFrom (usedCells s ++ l) (v.toNat % 65536) 65536]) k

/-- Words of an item from word i on are written into its cells (R365). -/
def storeWords (s : State) (cells : List Nat) (i : Nat) : List Word → State
  | [] => s
  | w :: ws => storeWords (s.setMemWord (cellAddr cells i) w) cells (i + 1) ws

/-- Cells taken from the pool. -/
def poolTake (s : State) (n : Nat) : State :=
  let f := s.rd pgQmg F.qmgPoolFreeCells - n
  (s.setF pgQmg F.qmgPoolFreeCells f).setF pgQmg F.qmgPoolMinCells (min f (s.rd pgQmg F.qmgPoolMinCells))

/-- Cells returned to the pool. -/
def poolGive (s : State) (n : Nat) : State :=
  s.setF pgQmg F.qmgPoolFreeCells (min 65536 (s.rd pgQmg F.qmgPoolFreeCells + n))

/-- A producer on a numbered queue may take n cells (R368). -/
def poolAllows (s : State) (n : Nat) : Bool :=
  s.act pgQmg F.qmgRsvInternal - s.rd pgQmg F.qmgIntUsedCells + n ≤ s.rd pgQmg F.qmgPoolFreeCells

/-- An internal holder takes n cells, where they are free (R368, R387). -/
def intTake (s : State) (n : Nat) : Option State :=
  if qmgOn s ∧ n ≤ s.rd pgQmg F.qmgPoolFreeCells then
    some (pauseUpdate ((poolTake s n).setF pgQmg F.qmgIntUsedCells (s.rd pgQmg F.qmgIntUsedCells + n)))
  else none

/-- An internal holder returns n cells. -/
def intGive (s : State) (n : Nat) : State :=
  let n := min n (s.rd pgQmg F.qmgIntUsedCells)
  pauseUpdate ((poolGive s n).setF pgQmg F.qmgIntUsedCells (s.rd pgQmg F.qmgIntUsedCells - n))

/-- The threshold of a queue against its occupancy (R381). -/
def thrEval (s : State) (q : Nat) : State :=
  let occ := occOf s q
  let on := qdAct s q F.qdescW2ThrEn = 1 ∧ qdAct s q F.qdescW2Thresh ≤ occ
  let high := qdRd s q F.qdescW0High = 1
  if on ∧ !high then
    let s := qdSet s q F.qdescW0High 1
    let s := s.setB pgQmg (Fld.bit (F.qmgThrMap.ofs + 4 * (q / 32)) (q % 32)) true
    eventAlways s pgQmg F.qmgEvtThresh.lo attQue
  else if !on ∧ high then qdSet s q F.qdescW0High 0
  else s

/-- Tags of the information word (Table 13.3). -/
abbrev tagTimeout : Nat := 5
abbrev tagDisabled : Nat := 6
abbrev tagBound : Nat := 8

/-- The information word (Table 13.3). -/
def infoWord (s : State) (tag remain q : Nat) : Word :=
  w32 (tag * 2 ^ 24 + remain % 4096 * 4096 + min 4095 (s.queue q).items.length)

/-- One word popped of a queue with an item ready (R377, R379): data, information, and the state. -/
def popReady (s : State) (m q : Nat) : Word × Word × State :=
  let x := s.queue q
  match x.items with
  | [] => (0, infoWord s 0 0 q, s)
  | it :: rest =>
    let i := x.popped
    let a := cellAddr it.cells i
    let w := s.memWord a
    let s := eccReads s (· == a)
    let left := it.words - (i + 1)
    let tag := if left = 0 then (if i = 0 then 4 else 3) else if i = 0 then 1 else 2
    let s := if left = 0 then s.setQueue q (fun x => { x with items := rest, popped := 0, holder := none })
      else s.setQueue q (fun x => { x with popped := i + 1, holder := some m })
    let s := if left = 0 || (i + 1) % 16 = 0 then poolGive s 1 else s
    let s := qdSet s q F.qdescW0Held (if left = 0 then 0 else 1)
    (w, infoWord s tag left q, s)

/-- The head item is there for a master (R378, R379). -/
def headFree (s : State) (m q : Nat) : Bool :=
  !(s.queue q).items.isEmpty && ((s.queue q).holder.isNone || (s.queue q).holder == some m)

/-- A read of the pop window by a master fails or succeeds with its data word and information word. -/
def popAnswer (s : State) (m : Nat) (info : Word) : State := s.setQport m (fun x => { x with info := info })

/-- A stalled read of a master returns a data word and its information word; the word of one that is drained is
discarded (R408). A lock that was to end with it ends (R407). -/
def stallEnd (s : State) (m : Nat) (d i : Word) : State :=
  let s := s.setQport m (fun x => { x with
    stall := none, stallRes := if x.drain = 0 then some d else none, info := i, drain := 0 })
  lockDone { s with qmg := { s.qmg with stalls := s.qmg.stalls.filter (· != m) } } m 8

/-- The pops left of a drained burst, as far as words are there (R408). -/
def drainPops (q m : Nat) (d i : Word) : Nat → State → State
  | 0, s => stallEnd s m d i
  | k + 1, s =>
    if headFree s m q then
      let (d, i, s) := popReady s m q
      drainPops q m d i k s
    else s.setQport m (fun x => { x with drain := k + 1 })

/-- A stalled read of a master fails under a tag of Table 13.3. -/
def stallFail (s : State) (m tag : Nat) : State :=
  match (s.qport m).stall with
  | some q => stallEnd s m 0 (infoWord s tag 0 q)
  | none => s

/-- Stalled reads on a queue are served in order of arrival (R378, R380). -/
def serveStall (q : Nat) (s : State) (m : Nat) : State :=
  if (s.qport m).stall ≠ some q then s
  else if !queueOn s q then stallFail s m tagDisabled
  else if qdRd s q F.qdescW0Bind = 1 then stallFail s m tagBound
  else if headFree s m q then
    let (d, i, s) := popReady s m q
    drainPops q m d i ((s.qport m).drain - 1) s
  else s

-- The head items of a MAC's host queues (R88, R93, R94).

/-- The head item of a host queue of a port, complete in the pool and held by no master (R379, R385); a draining MAC takes
none (log 12). -/
def hostHead (s : State) (q : Nat) (express : Bool) : Option TxItem :=
  match hostQueue s q express with
  | some n =>
    if queueOn s n && (s.queue n).holder.isNone && !s.actIs (pgLink q) F.ctrlDrain
    then ((s.queue n).items.head?).map (fun it => txItemOf s (itemWords s it)) else none
  | none => none

/-- The head item of a queue is read whole and leaves it, and its cells return. -/
def headTake (s : State) (q : Nat) : State :=
  match (s.queue q).items with
  | [] => s
  | it :: rest =>
    let s := eccReads s (inCells it.cells)
    poolGive (s.setQueue q (fun x => { x with items := rest, popped := 0, holder := none }))
      (it.cells.length - (s.queue q).popped / 16)

/-- An item that reaches the head of a host queue: discarded where its launch time lies more than 1 s ahead (R94), else
ready, or waiting for its launch time. At most the given number of items go. DESIGN CHOICE: on a port that is not UP such
an item meets R77 too, and counts in TX_LT_MISS (log 45). -/
def headReach (s : State) (q : Nat) (ex : Bool) : Nat → State
  | 0 => s
  | k + 1 =>
    match hostQueue s q ex, hostHead s q ex with
    | some n, some i =>
      if headSt s q ex ≠ .none then s
      else if launchFar s i then
        let s := count (headTake s n) q 45
        headReach (if i.tsReq then txtsFor s q i.bytes none else s) q ex k
      else if i.launch.isSome then setHead s q ex .waits else headReady s q ex
    | _, _ => if headSt s q ex = .none then s else setHead s q ex .none

/-- The heads of both host queues of a running port. -/
def headsReach (s : State) (q : Nat) : State :=
  if !s.running (pgLink q) then s
  else [true, false].foldl (fun s ex => headReach s q ex
    (match hostQueue s q ex with | some n => (s.queue n).items.length + 1 | none => 1)) s

/-- What a MAC knew of the head of a queue no longer holds. -/
def headsGone (s : State) (q n : Nat) : State :=
  [true, false].foldl (fun s ex => if hostQueue s q ex = some n then setHead s q ex .none else s) s

/-- After a change of a queue: stalled reads, the MAC that takes from it, the threshold, PAUSE (R384). -/
def qSettle (s : State) (q : Nat) : State :=
  let s := s.qmg.stalls.foldl (serveStall q) s
  let s := match (s.queue q).boundTo with
    | some p => if p - 0x20 < 4 then headsReach s (p - 0x20) else s
    | none => s
  pauseUpdate (thrEval s q)

/-- An item is refused with a cause of Table 13.2, on behalf of a producer's port or of the device (R374). -/
def refuseItem (s : State) (q cause : Nat) : State :=
  let s := (s.setF pgQmg F.qmgLastRefuseQueue q).setF pgQmg F.qmgLastRefuseCause cause
  let s := s.bump pgQmg F.qmgCntRefusedCount
  let s := eventF s pgQmg F.qmgEvtRefused
  if cause = 6 then
    match (s.queue q).boundTo with
    | some p => raise (count s (p - 0x20) 44) p F.macFltFrameSize.lo (w32 q)
    | none => s
  else s

/-- A flush completes when no item of its own set remains open (R382, R383). -/
def flushCheck (s : State) (q : Nat) : State :=
  let all := (s.queue q).sets
  let left := all.filter (!·.isEmpty)
  if left = all then s
  else
    let s := s.setQueue q (fun x => { x with sets := left })
    eventF (qdSet s q F.qdescW0FlushPend (if left.isEmpty then 0 else 1)) pgQmg F.qmgEvtFlushDone

/-- The open item of a master towards a queue is gone: it leaves the sets of the queue's flushes. -/
def flushLeave (s : State) (q m : Nat) : State :=
  if (s.queue q).sets.isEmpty then s
  else flushCheck (s.setQueue q (fun x => { x with sets := x.sets.map (·.filter (· != m)) })) q

/-- The open item of a master is refused: its cells return, and its later words are discarded (R374, R376). -/
def refuseOpen (s : State) (m cause : Nat) (more : Bool) : State :=
  match (s.qport m).open_ with
  | none => s
  | some o =>
    let s := poolGive s o.cells.length
    let s := s.setQport m (fun x => { x with open_ := none, discard := more, result := cause, resultQ := o.queue })
    let s := if o.marked then s.bump pgQmg F.qmgCntFlushedCount else s
    qSettle (flushLeave (refuseItem s o.queue cause) o.queue m) o.queue

/-- An open item is abandoned (R376). -/
def abandonOpen (s : State) (m : Nat) : State :=
  if (s.qport m).open_.isSome then refuseOpen (s.bump pgQmg F.qmgCntAbandonCount) m 7 true else s

/-- LENGTH of a transmit item is out of its range (R82, R375). -/
def badTxLength (s : State) (q : Nat) (w : Word) : Bool :=
  match (s.queue q).boundTo with
  | some p => getBits w 13 0 < 14 || s.act p F.macMaxlenMaxlen - 4 < getBits w 13 0
  | none => false

/-- The n words of a transmit item do not match its header (R375). -/
def badTxWords (h : Word) (n : Nat) : Bool :=
  n != 1 + (if h.getLsbD 18 then 2 else 0) + (getBits h 13 0 + 3) / 4

/-- The cause that a start word meets (R374), 0 for none; `own` marks the MAC that fills its receive queue. A
draining QMG takes no new item (log 12). -/
def startCause (s : State) (q : Nat) (w : Word) (cells : Nat) (own : Bool) : Nat :=
  if !queueOn s q || s.actIs pgQmg F.ctrlDrain then 4
  else if qdRd s q F.qdescW0Bind = 2 && !own then 5
  else if qdRd s q F.qdescW0Bind = 1 && badTxLength s q w then 6
  else if qdAct s q F.qdescW1Limit < occOf s q + cells then 2
  else if !poolAllows s cells then 3
  else 0

/-- At an end mark the cause SIZE stands before TOO_LONG, LIMIT and POOL (R374, R375). -/
def sizeFirst (s : State) (q : Nat) (last : Bool) (h : Word) (n c : Nat) : Nat :=
  if last && qdRd s q F.qdescW0Bind = 1 && (c == 2 || c == 3 || c == 8) && badTxWords h n then 6 else c

/-- An item is linked to its queue (R366). -/
def linkItem (s : State) (q : Nat) (it : PoolItem) : State :=
  qSettle (s.setQueue q (fun x => { x with items := x.items ++ [it] })) q

/-- The end mark of a master's open item (R366, R375, R382). -/
def endItem (s : State) (m : Nat) : State :=
  match (s.qport m).open_ with
  | none => s
  | some o =>
    if o.marked then
      let s := poolGive s o.cells.length
      let s := s.setQport m (fun x => { x with open_ := none })
      qSettle (flushLeave (s.bump pgQmg F.qmgCntFlushedCount) o.queue m) o.queue
    else if qdRd s o.queue F.qdescW0Bind = 1 && badTxWords (s.memWord (cellAddr o.cells 0)) o.words then refuseOpen s m 6 false
    else
      let s := s.setQport m (fun x => { x with open_ := none, result := 1, resultQ := o.queue })
      linkItem s o.queue { words := o.words, cells := o.cells }

/-- A word pushed by a master (R373, R374, R386). -/
def pushWord (s : State) (m : Nat) (last : Bool) (w : Word) : State :=
  let x := s.qport m
  if x.discard then s.setQport m (fun x => { x with discard := !last })
  else
    match x.open_ with
    | none =>
      let q := x.pushQ
      if s.resetting pgQmg then
        s.setQport m (fun x => { x with discard := !last, resetRefuse := x.resetRefuse ++ [q] })
      else
        let c := sizeFirst s q last w 1 (startCause s q w 1 false)
        if c ≠ 0 then
          let s := s.setQport m (fun x => { x with discard := !last, result := c, resultQ := q })
          refuseItem s q c
        else
          let (l, s) := newCells (poolTake s 1) [] 1
          let s := s.setMemWord (cellAddr l 0) w
          let s := s.setQport m (fun x => { x with open_ := some { queue := q, words := 1, cells := l } })
          if last then endItem s m else qSettle s q
    | some o =>
      let new := if o.words % 16 = 0 then 1 else 0
      let c := if !queueOn s o.queue then 4
        else if qdRd s o.queue F.qdescW0Bind = 2 then 5
        else if 4096 ≤ o.words then 8
        else if qdAct s o.queue F.qdescW1Limit < occOf s o.queue + new then 2
        else if new = 1 && !poolAllows s 1 then 3 else 0
      let c := if o.marked then c else sizeFirst s o.queue last (s.memWord (cellAddr o.cells 0)) (o.words + 1) c
      if c ≠ 0 then refuseOpen s m c (!last)
      else
        let (l, s) := newCells (poolTake s new) o.cells new
        let s := s.setMemWord (cellAddr l o.words) w
        let o' := { o with words := o.words + 1, cells := l }
        let s := s.setQport m (fun x => { x with open_ := some o' })
        if last then endItem s m else qSettle s o.queue

/-- A whole item pushed by the device (R385): whether it is linked, and the state. During a block reset of QMG it is
refused, and recorded when the reset completes (R386). -/
def pushItem (s : State) (q : Nat) (it : List Word) (own : Bool) : Bool × State :=
  if s.resetting pgQmg then (false, { s with qmg := { s.qmg with late := s.qmg.late ++ [q] } })
  else
    let n := cellsOf it.length
    let c := startCause s q (nth 0 it 0) n own
    let c := if c = 0 ∧ qdRd s q F.qdescW0Bind = 1 ∧ badTxWords (nth 0 it 0) it.length then 6 else c
    if c ≠ 0 then (false, refuseItem s q c)
    else
      let (l, s) := newCells (poolTake s n) [] n
      (true, linkItem (storeWords s l 0 it) q { words := it.length, cells := l })

/-- The head item taken whole, by the MAC that consumes the queue (R385). -/
def takeItem (s : State) (q : Nat) : State :=
  if (s.queue q).items.isEmpty then s else qSettle (headTake s q) q

/-- A read of the pop window at a doubleword: the data word, or none where the read stalls (R377 to R380). -/
def popWord (s : State) (m : Nat) : Option Word × State :=
  let q := (s.qport m).popQ
  let fail := fun tag => (some 0, popAnswer s m (infoWord s tag 0 q))
  if !queueOn s q then fail tagDisabled
  else if qdRd s q F.qdescW0Bind = 1 then fail tagBound
  else if headFree s m q then
    let (d, i, s) := popReady s m q
    (some d, qSettle (popAnswer s m i) q)
  else if qdAct s q F.qdescW1EmptyMode = 0 then fail (if (s.queue q).items.isEmpty then 0 else 7)
  else
    let s := s.setQport m (fun x => { x with stall := some q, stallRes := none })
    (none, { s with qmg := { s.qmg with stalls := s.qmg.stalls.filter (· != m) ++ [m] } })

/-- STALL_TMO of a stalled read expires (R378). -/
def stallExpire (s : State) (m : Nat) : State :=
  if (s.qport m).stall.isNone then s else (stallFail s m tagTimeout).bump pgQmg F.qmgCntTimeoutCount

/-- A held item whose holder does not read on is discarded (R379). -/
def heldExpire (s : State) (q : Nat) : State :=
  let x := s.queue q
  match x.holder, x.items with
  | some _, it :: rest =>
    let s := poolGive s (it.cells.length - x.popped / 16)
    let s := s.setQueue q (fun x => { x with items := rest, popped := 0, holder := none })
    let s := qdSet s q F.qdescW0Held 0
    qSettle (s.bump pgQmg F.qmgCntAbandonCount) q
  | _, _ => s

/-- What MACs know of the head of a queue whose items are discarded. -/
def headLost (s : State) (q : Nat) : State :=
  match (s.queue q).boundTo with
  | some p => headsGone s (p - 0x20) q
  | none => s

/-- Every item of a queue is discarded, the open ones too (R371); a FLUSH that was requested is still to be accepted. -/
def emptyQueue (s : State) (q : Nat) : State :=
  let x := s.queue q
  let lost := occOf s q
  let opened := s.qmg.ports.filter (fun e => match e.2.open_ with
    | some o => o.queue == q
    | none => false)
  let s := opened.foldl (fun s e => s.setQport e.1 (fun x => { x with open_ := none, discard := true })) s
  let s := s.setQueue q (fun x => { x with items := [], popped := 0, holder := none, sets := x.sets.map (fun _ => []) })
  let s := poolGive s lost
  let s := s.bumpBy pgQmg F.qmgCntFlushedCount (x.items.length + opened.length)
  let s := headLost (qdSet s q F.qdescW0Held 0) q
  qSettle (flushCheck s q) q

/-- A flush is accepted (R382). -/
def flushAccept (s : State) (q : Nat) : State :=
  let x := s.queue q
  let keep := if x.holder.isSome then x.items.take 1 else []
  let drop := if x.holder.isSome then x.items.drop 1 else x.items
  let s := poolGive s (drop.map (fun i => i.cells.length)).sum
  let opened := s.qmg.ports.filter (fun e => match e.2.open_ with
    | some o => o.queue == q
    | none => false)
  let s := s.setQueue q (fun x => { x with items := keep, flush := false, sets := x.sets ++ [opened.map (·.1)] })
  let s := s.bumpBy pgQmg F.qmgCntFlushedCount drop.length
  let mark := fun (o : OpenItem) => { o with marked := true }
  let s := opened.foldl (fun s e => s.setQport e.1 (fun x => { x with open_ := x.open_.map mark })) s
  qSettle (flushCheck (qdSet (if x.holder.isSome then s else headLost s q) q F.qdescW0FlushPend 1) q) q

/-- QMG's local tick boundary, running or not: EN changes, then flushes (R371, R382, R384). The held words still show the
old EN. -/
def qmgBoundary (s : State) : State :=
  let offs := (List.range 1024).filter (fun q =>
    match s.held.find (keyOf (descPage q) (descF F.qdescW0En q).ofs) with
    | some w => w.getLsbD 31 && qdRd s q F.qdescW0En == 0
    | none => false)
  let s := offs.foldl (fun s q =>
    emptyQueue { s with held := s.held.del (keyOf (descPage q) (descF F.qdescW0En q).ofs) } q) s
  let fl := (s.qmg.queues.filter (fun e => e.2.flush)).map (·.1)
  fl.foldl flushAccept s

/-- A corrected or uncorrectable error in the link memory (R386). -/
def linkError (s : State) (q : Option Nat) (uncorr : Bool) (lost : Nat) : State :=
  if !s.running pgQmg then s
  else
    let ctx : Word := match q with | some q => w32 q | none => 0xFFFFFFFF
    if !uncorr then raise s pgQmg F.qmgFltEccCorr.lo ctx
    else
      let s := raise s pgQmg F.qmgFltEccUncorr.lo ctx
      let s := match q with
        | some q => emptyQueue (qdSet (qdSet s q F.qdescW0Broken 1) q F.qdescW0En 0) q
        | none => s
      let n := min lost (s.rd pgQmg F.qmgPoolFreeCells)
      pauseUpdate ((poolTake s n).setF pgQmg F.qmgLostCells (s.rd pgQmg F.qmgLostCells + n))

/-- QMG stops with work in progress (R51): each open item is refused, its later words discarded, and each stalled read
returns DISABLED (R374, R380, R387). -/
def qmgStop (s : State) : State :=
  let s := s.qmg.ports.foldl (fun s e => refuseOpen s e.1 4 true) s
  s.qmg.stalls.foldl (fun s m => stallFail s m tagDisabled) s

/-- A block reset of QMG empties every queue and returns every cell (R386); the ports, which hold no configuration, return to
their reset values (R14, R372; DEDUCED, log 10). -/
def qmgReset (s : State) : State :=
  let s := s.qmg.ports.foldl (fun s e =>
    s.setQport e.1 (fun x => { x with
      pushQ := 0, popQ := 0, info := 0, result := 0, resultQ := 0, open_ := none, discard := x.discard || x.open_.isSome,
      resetRefuse := match x.open_ with | some o => x.resetRefuse ++ [o.queue] | none => x.resetRefuse })) s
  let qs := (s.qmg.queues.map (·.1))
  let s := qs.foldl (fun s q =>
    let s := headLost (s.setQueue q (fun x => { x with items := [], popped := 0, holder := none, flush := false, sets := [] })) q
    (qdSet (qdSet (qdSet s q F.qdescW0Held 0) q F.qdescW0FlushPend 0) q F.qdescW0High 0)) s
  let s := (List.range 1024).foldl (fun s q =>
    if qdRd s q F.qdescW0Broken = 1 then qdSet s q F.qdescW0Broken 0 else s) s
  let s := (List.range 32).foldl (fun s i => s.setReg pgQmg (F.qmgThrMap.ofs + 4 * i) 0) s
  let s := (s.setF pgQmg F.qmgPoolFreeCells 65536).setF pgQmg F.qmgIntUsedCells 0
  let s := s.setF pgQmg F.qmgLostCells 0
  let s := (s.setReg pgQmg F.qmgLastRefuseQueue.ofs 0)
  pauseUpdate (s.qmg.stalls.foldl (fun s m => stallFail s m tagDisabled) s)

/-- When QMG's reset completes, the items it cut off are recorded as refused (R386). -/
def qmgResetDone (s : State) : State :=
  let late := s.qmg.late
  let s := s.qmg.ports.foldl (fun s e =>
    (s.qport e.1).resetRefuse.foldl (fun s q =>
      refuseItem (s.setQport e.1 (fun x => { x with resetRefuse := [], result := 4, resultQ := q })) q 4) s) s
  late.foldl (fun s q => refuseItem s q 4) { s with qmg := { s.qmg with late := [] } }

/-- Reads of QMG that are views of a master's port (R372, Table 13.4). -/
def qmgView (s : State) (m ofs : Nat) : Option Word :=
  let x := s.qport m
  match ofs with
  | 0x060 => some (w32 x.pushQ)
  | 0x070 => some (w32 x.popQ)
  | 0x068 => some (w32 ((if x.open_.isSome then 2 ^ 31 else 0) + x.result % 16 * 2 ^ 24 + x.resultQ % 1024 * 4096
      + min 4095 ((x.open_.map (·.words)).getD 0)))
  | _ => none

/-- Descriptor word 3 shows occupancy and items (Table 13.1). -/
def descView (s : State) (page ofs : Nat) : Option Word :=
  if ofs % 16 = 12 then
    let q := (page - 0x19) * 256 + ofs / 16
    some (w32 (occOf s q % 65536 * 65536 + min 65535 (s.queue q).items.length))
  else none

/-- A refusal of a write to a descriptor (R369, R370). -/
def descVeto (s : State) (page ofs : Nat) (v : Word) : Option Veto :=
  let q := (page - 0x19) * 256 + ofs / 16
  let en := qdRd s q F.qdescW0En == 1 || qdAct s q F.qdescW0En == 1
  let limit := qdRd s q F.qdescW1Limit
  let good := fun (w2 : Word) =>
    limit != 0 && (if qdRd s q F.qdescW1EmptyMode = 0 then limit ≤ 256 else 256 < limit)
      && getBits w2 30 16 != 0 && (!w2.getLsbD 31 || (getBits w2 15 0 != 0 && getBits w2 15 0 ≤ limit))
  match ofs % 16 with
  | 0 => if v.getLsbD 31 && !en then vetoUnless (good (s.reg page (ofs / 16 * 16 + 8))) .range else none
  | 4 => vetoUnless (!en) .frozen
  | 8 => if en then vetoUnless (good v) .range else none
  | _ => none

/-- What a write to a descriptor does beyond the register (R371, R382). -/
def descWrote (s : State) (page ofs : Nat) (v old : Word) : State :=
  let q := (page - 0x19) * 256 + ofs / 16
  if ofs % 16 = 0 then
    let s := if v.getLsbD 30 then s.setQueue q (fun x => { x with flush := true }) else s
    let off := !(s.is pgQmg F.ctrlEn || s.running pgQmg || s.resetting pgQmg)
    if old.getLsbD 31 && !v.getLsbD 31 && off then emptyQueue s q else s
  else if ofs % 16 = 8 then thrEval s q
  else s

/-- A refusal of a write to QMG's page (Table 13.4). -/
def qmgVeto (ofs : Nat) (v : Word) : Option Veto :=
  match ofs with
  | 0x048 => vetoUnless (getBits v 16 0 ≤ 32768) .range
  | 0x050 => vetoUnless (1 ≤ getBits v 15 0) .range
  | _ => none

/-- Writes to QMG's ports (R372, R373, R376). -/
def qmgWrote (s : State) (m ofs : Nat) (v : Word) : State :=
  if ofs = 0x060 then s.setQport m (fun x => { x with pushQ := getBits v 9 0 })
  else if ofs = 0x070 then s.setQport m (fun x => { x with popQ := getBits v 9 0 })
  else if ofs = 0x064 then (if v.getLsbD 0 then abandonOpen s m else s)
  else if 0x400 ≤ ofs ∧ ofs < 0x800 then pushWord s m (ofs = 0x7FC) v
  else s

-- Bindings of MAC queues (R385).

/-- The queues a MAC names: number, and 1 for transmit, 2 for receive. -/
def macQueues (s : State) (q : Nat) : List (Nat × Nat) :=
  let p := pgLink q
  (if s.actIs p F.macTxqPreEn then [(s.act p F.macTxqPreQ, 1)] else [])
    ++ (if s.actIs p F.macTxqExpEn then [(s.act p F.macTxqExpQ, 1)] else [])
    ++ (if s.actIs p F.macRxqHostEn then [(s.act p F.macRxqHostQ, 2)] else [])

/-- A write of EN = 1 to a MAC may bind its queues. -/
def macBindOk (s : State) (q : Nat) : Bool :=
  (macQueues s q).all (fun e => (s.queue e.1).boundTo.isNone || (s.queue e.1).boundTo == some (pgLink q))

/-- The queues are reserved for the MAC by its accepted write of EN = 1. -/
def macReserve (s : State) (q : Nat) : State :=
  (macQueues s q).foldl (fun s e => s.setQueue e.1 (fun x => { x with boundTo := some (pgLink q) })) s

/-- The MAC's EN takes the value 1: its queues are bound. -/
def macBind (s : State) (q : Nat) : State := (macQueues s q).foldl (fun s e => qdSet s e.1 F.qdescW0Bind e.2) s

/-- The MAC's EN takes the value 0: its bindings end. -/
def macUnbind (s : State) (q : Nat) : State :=
  let mine := (s.qmg.queues.filter (fun e => e.2.boundTo == some (pgLink q))).map (·.1)
  mine.foldl (fun s n => qdSet (s.setQueue n (fun x => { x with boundTo := none })) n F.qdescW0Bind 0) s

end Sys2Proof.Machine
end

