-- ==== Sys2Proof/Machine/Refs.lean ====
section
/-! DEFINITION. Reference selection, the DPLL, the tick number and the output grid (05). -/

namespace Sys2Proof.Machine

/-- A field of candidate n (Table 5.4). -/
def candF (f : Fld) (n : Nat) : Fld := f.at 0x20 n

/-- State of a candidate (Table 5.2): 0 DISABLED, 1 ABSENT, 2 QUALIFYING, 3 QUALIFIED, 4 DISQUALIFIED. -/
def candState (s : State) (n : Nat) : Nat := s.rd pgRefs (candF F.refsCandStatState n)
def setCandState (s : State) (n v : Nat) : State := s.setF pgRefs (candF F.refsCandStatState n) v
/-- PRIO of a candidate. -/
def candPrio (s : State) (n : Nat) : Nat := s.act pgRefs (candF F.refsCandCfgPrio n)
/-- The selected candidate; 15 for none. -/
def refSel (s : State) : Nat := s.rd pgRefs F.refsStatSel
/-- State of the DPLL (Table 5.3): 0 FREE_RUN, 1 ACQUIRE, 2 LOCKED, 3 HOLDOVER. -/
def dpll (s : State) : Nat := s.rd pgRefs F.refsStatDpll
/-- The further conditions of Table 5.1 let a candidate be active (R136). -/
def candUsable (s : State) (n : Nat) : Bool :=
  if n = 0 then s.actIs pgRefs F.refsPtpValid && !s.ref.ptpDead
  else if n = 1 then s.running pgWck
  else if n < 6 then s.running (pgAesi (n - 2)) && s.is (pgAesi (n - 2)) F.aesiStatLock
  else if n = 6 then
    let q := pgTdm (s.act pgRefs F.refsSrcTdmSel)
    s.running q && !s.is q F.tdmCfgMaster && !(s.aud q).lost
  else true

/-- The QUALIFIED candidate of the highest priority (R142, R143). -/
def candBest (s : State) : Option Nat :=
  (List.range 8).foldl (fun b n =>
    if candState s n = 3 then
      match b with
      | none => some n
      | some m => if candPrio s n < candPrio s m then some n else b
    else b) none

/-- The nearest of 48, 96 and 192 kHz to a frame rate, as its code (R136, R315). -/
def nearestRate (hz : Nat) : Nat := if hz < 72000 then 0 else if hz < 144000 then 1 else 2

/-- How many capture periods of a candidate a second holds (Table 5.1). -/
def captureRate (s : State) (n : Nat) : Nat :=
  if n = 0 ∨ n = 7 then 24000
  else 48000 * 2 ^ (
    if n = 1 then s.act pgWck F.wckInCfgNom
    else if n < 6 then nearestRate (s.rd (pgAesi (n - 2)) F.aesiRateHz)
    else s.act (pgTdm (s.act pgRefs F.refsSrcTdmSel)) F.tdmCfgRate)

/-- A phase modulo the period of a rate, in the half-open range from −P/2 to +P/2 (R147); a period is no whole number of
2^-16 ns, and what is left of a unit is dropped. -/
def wrapPhase (rate : Nat) (x : Int) : Int :=
  let m : Int := 65536000000000
  floorDiv ((x * rate + m / 2) % m - m / 2) rate

/-- The target start time of the current tick (R156), in thirds of 2^-16 ns past MCG_TICK_OFFSET, and how far it lies
after the tick's start. -/
def ptpPhase (s : State) : Int :=
  wrapPhase 24000 (floorDiv ((s.time.tick : Int) * 8192000000) 3 + s.ref.tickOfs - (s.time.tickT : Int))

/-- A phase step is to be pulled: it is recorded, and the grid moves by it (R150). -/
def phaseStep (s : State) (v : Int) : State :=
  let s := setInt s pgRefs F.refsLastStepStep v
  { s with ref := { s.ref with pull := s.ref.pull + v } }

/-- What was still to be pulled is dropped: another reference is selected, or the media clock goes on at the held frequency
(R146, R150). -/
def pullEnd (s : State) : State := { s with ref := { s.ref with pull := 0, pullBare := 0 } }

/-- The frequency with which HOLDOVER is entered (R148). DESIGN CHOICE: the spec does not say of a DPLL that was LOCKED for
11 s, fell back to ACQUIRE and then lost its candidate whether its time in LOCKED counts; it counts here. The mean is
rounded toward minus infinity to whole ppb (log 20). -/
def holdFreq (s : State) : Int :=
  let r := s.ref
  if r.everLocked ∧ 110 ≤ r.lockAge then floorDiv ((r.freqs.drop 10).take 100).sum 100
  else if r.acqAge < 10 then r.acqFreq
  else nth (s.rdInt pgRefs F.refsFreqPpb) r.freqs 9

/-- REF_DRIFT no longer stands (Table 17.8). -/
def driftEnd (s : State) : State :=
  let s := cease s pgRefs F.refsFltRefDrift.lo
  { s with ref := { s.ref with drift := false, driftOk := 0 } }

/-- REF_DRIFT ends where another candidate is selected than the one it was raised for (Table 17.8). -/
def driftOther (s : State) (n : Nat) : State :=
  if s.flt.levels.any (fun x => x.src == pgRefs && x.bit == F.refsFltRefDrift.lo && x.ctx == w32 n) then s else driftEnd s

/-- REFS selects a candidate: a switch begins and the DPLL acquires it (R143 to R146, R150). -/
def refSelect (s : State) (n : Nat) : State :=
  let f := s.rdInt pgRefs F.refsFreqPpb
  let s := if dpll s = 3 then cease s pgRefs F.refsFltHoldover.lo else s
  let s := pullEnd (driftOther s n)
  let s := s.setF pgRefs F.refsStatSel n
  let s := s.setF pgRefs F.refsStatSwitching 1
  let s := s.setF pgRefs F.refsStatDpll 1
  let r := { s.ref with stepDue := true, lockAge := 0, acqAge := 0, acqFreq := f, everLocked := false, everRan := true }
  eventAlways { s with ref := r } pgRefs F.refsEvtSelChange.lo attClk

/-- The DPLL enters HOLDOVER (R143, R148). -/
def refHoldover (s : State) : State :=
  let last := refSel s
  let f := holdFreq s
  let s := setInt (pullEnd s) pgRefs F.refsFreqPpb f
  let s := s.setF pgRefs F.refsStatDpll 3
  let s := s.setF pgRefs F.refsStatSwitching 0
  let s := s.setF pgRefs F.refsStatSel 15
  let s := s.setF pgRefs F.refsHoldTimeSec 0
  let s := { s with ref := { s.ref with holdAge := 0, stepDue := false } }
  let s := raise s pgRefs F.refsFltHoldover.lo (w32 last)
  let s := eventAlways s pgRefs F.refsEvtHoldover.lo attClk
  eventAlways s pgRefs F.refsEvtSelChange.lo attClk

/-- The selected candidate has left QUALIFIED (R143). -/
def refReselect (s : State) : State :=
  match candBest s with
  | some n => refSelect s n
  | none => refHoldover s

/-- A candidate enters a state with none of the counts of its last one. -/
def candEnter (s : State) (n v : Nat) (keep : Bool) : State :=
  let s := setCandState s n v
  s.setCand n (fun c => { c with
    active := keep, inWin := 0, wtr := 0, wtrLate := false, hist := if keep then c.hist else [] })

/-- A candidate leaves for DISQUALIFIED or ABSENT with a cause (R141). -/
def candFall (s : State) (n v cause : Nat) : State :=
  let st := candState s n
  let s := candEnter s n v (v = 4)
  let s := (s.setF pgRefs (candF F.refsCandStatEligible n) 0).setF pgRefs (candF F.refsCandStatWtrLeft n) 0
  if st = 2 ∨ st = 3 then
    let s := s.setF pgRefs (candF F.refsCandStatCause n) cause
    eventAlways (raise s pgRefs F.refsFltRefDisqual.lo (w32 (n + 256 * cause))) pgRefs F.refsEvtDisqual.lo attClk
  else s

/-- It does so, and another is selected where it was (R143). -/
def candDrop (s : State) (n v cause : Nat) : State :=
  let s := candFall s n v cause
  if n = refSel s then refReselect s else s

/-- An active candidate goes to ABSENT with the cause of R141. -/
def candGone (s : State) (n : Nat) : State := if 2 ≤ candState s n then candFall s n 1 1 else s

/-- Loss of activity of a candidate (R136, R138); WCK shows that of candidate 1 whether REFS runs or not (Table 5.6). -/
def candLose (s : State) (n : Nat) : State :=
  let s := if n = 1 then s.setF pgWck F.wckInStatActive 0 else s
  if s.running pgRefs && 2 ≤ candState s n then candDrop s n 1 1 else s

/-- A marker of a candidate arrives, `ph` after its grid point (R136, R138, R147, R150). That of candidate 0 is the target
of the tick, and what is given for it does not count; its phase error is the other way about (R156). DESIGN CHOICE:
REFS_LAST_STEP shows for candidate 0 too the step by which the grid moves, target minus start (log 46). -/
def refMarker (s : State) (n : Nat) (ph : Int) : State :=
  let s := if n = 1 && s.running pgWck then s.setF pgWck F.wckInStatActive 1 else s
  if !s.running pgRefs || candState s n = 0 || !candUsable s n then s
  else
    let ph := if n = 0 then ptpPhase s else wrapPhase (captureRate s n) ph
    let s := if candState s n = 1 then candEnter s n 2 true else s
    let s := setInt s pgRefs (candF F.refsCandPhPh n) ph
    if n = refSel s then
      let s := setInt s pgRefs F.refsPherrErr (if n = 0 then -ph else ph)
      if s.ref.stepDue then phaseStep { s with ref := { s.ref with stepDue := false } } ph else s
    else s

/-- The measured offset of candidate 0: the rate of local time against FRC (R137). -/
def ptpOffset (s : State) : Int := floorDiv (s.time.rate * 1000000000 + 2 ^ 47) (2 ^ 48)

/-- One candidate is measured (R137), and its time in QUALIFIED counts (R142). -/
def candRead (ofs : List Int) (s : State) (n : Nat) : State :=
  if candState s n < 2 then s
  else
    let corr := (if n = 0 then ptpOffset s else nth 0 ofs n) - s.actInt pgRefs F.refsRefclkOfsPpb
    let rate := match (s.cand n).hist[9]? with | some o => corr - o | none => 0
    let s := setInt s pgRefs (candF F.refsCandOfsPpb n) corr
    let s := setInt s pgRefs (candF F.refsCandRatePpbS n) rate
    let waits := candState s n == 3 && !s.is pgRefs F.refsStatSwitching
    s.setCand n (fun c => { c with hist := (corr :: c.hist).take 10, wtrLate := false,
                                   wtr := if waits && !c.wtrLate then c.wtr + 1 else c.wtr })

/-- A candidate's corrected offset lies within a window of so many tenths of 1 ppm. -/
def ofsWithin (s : State) (n : Nat) (w : Fld) : Bool :=
  decide ((s.rdInt pgRefs (candF F.refsCandOfsPpb n)).natAbs ≤ s.act pgRefs w * 100)

/-- Its drift rate lies within ±DRIFT_MAX. -/
def rateWithin (s : State) (n : Nat) : Bool :=
  decide ((s.rdInt pgRefs (candF F.refsCandRatePpbS n)).natAbs ≤ s.act pgRefs F.refsDriftMax * 10)

/-- A candidate moves at a measurement (R138, Table 5.2). DESIGN CHOICE: where hard window and drift rate both fail, the
cause of R141 is the hard window's (log 20). -/
def candMeasure (s : State) (n : Nat) : State :=
  let inHard := ofsWithin s n F.refsWinHard
  let good := inHard && rateWithin s n
  let cause := if inHard then 3 else 2
  match candState s n with
  | 2 =>
    if good then
      let s := s.setCand n (fun c => { c with inWin := c.inWin + 1 })
      if s.act pgRefs F.refsQualSec * 10 ≤ (s.cand n).inWin then eventF (candEnter s n 3 true) pgRefs F.refsEvtQualified
      else s
    else candDrop s n 4 cause
  | 3 => if good then s else candDrop s n 4 cause
  | 4 => if ofsWithin s n F.refsWinSoft && rateWithin s n then candEnter s n 2 true else s
  | _ => s

/-- The measured offset of a candidate at this measurement. -/
def candOfs (s : State) (n : Nat) : Int :=
  s.rdInt pgRefs (candF F.refsCandOfsPpb n) + s.actInt pgRefs F.refsRefclkOfsPpb

/-- Insert into a rising list. -/
def insertInt (x : Int) : List Int → List Int
  | [] => [x]
  | y :: ys => if x ≤ y then x :: y :: ys else y :: insertInt x ys

/-- The median of a list; the mean of the two middle values of an even number (R140). DESIGN CHOICE: the mean is rounded
toward minus infinity to whole ppb (log 20). -/
def medianInt (l : List Int) : Int :=
  let r := l.foldr insertInt []
  let k := r.length / 2
  if r.length % 2 = 1 then nth 0 r k else floorDiv (nth 0 r (k - 1) + nth 0 r k) 2

/-- The selected candidate has left ±SOFT at a measurement, by itself or against its peers (R139, R140). -/
def refDrift (s : State) (n : Nat) (out : Bool) : State :=
  if out then
    let told := s.ref.drift
    let s := { s with ref := { s.ref with drift := true, driftOk := 0 } }
    if told then s
    else eventAlways (raise s pgRefs F.refsFltRefDrift.lo (w32 n)) pgRefs F.refsEvtDrift.lo attClk
  else if s.ref.drift then
    let s := { s with ref := { s.ref with driftOk := s.ref.driftOk + 1 } }
    if 10 ≤ s.ref.driftOk then driftEnd s else s
  else s

/-- The selected candidate at a measurement: peer deviation and drift, then its own window (R138 to R140). A candidate
that both its window and its peers disqualify has the cause of its window (log 20). -/
def refPeer (s : State) : State :=
  let n := refSel s
  if n = 15 then setInt s pgRefs F.refsPeerPpb 0
  else
    let others := ((List.range 8).filter (fun m => m != n && candState s m == 3)).map (candOfs s)
    let dev := if others.isEmpty then 0 else candOfs s n - medianInt others
    let s := setInt s pgRefs F.refsPeerPpb dev
    let hard := s.act pgRefs F.refsWinHard * 100
    let soft := s.act pgRefs F.refsWinSoft * 100
    let r := others.foldr insertInt []
    let agree := (r.zip r.tail).any (fun x => decide ((x.2 - x.1).natAbs ≤ soft))
    let s := refDrift s n (decide (soft < dev.natAbs) || !ofsWithin s n F.refsWinSoft)
    let s := candMeasure s n
    if refSel s = n ∧ candState s n = 3 ∧ hard < dev.natAbs ∧ agree then candDrop s n 4 4 else s

/-- With none selected, the first candidate to become QUALIFIED is selected (R143). DESIGN CHOICE: of several that become so
at one measurement, the one of the highest priority (log 20). -/
def refFirst (s : State) : State :=
  if refSel s = 15 then (match candBest s with | some n => refSelect s n | none => s) else s

/-- A candidate's wait to restore (R142). DESIGN CHOICE: WTR_LEFT counts a part of a second as one (log 20). -/
def candWait (s : State) (n : Nat) : State :=
  if candState s n ≠ 3 then
    (s.setF pgRefs (candF F.refsCandStatEligible n) 0).setF pgRefs (candF F.refsCandStatWtrLeft n) 0
  else
    let w := s.act pgRefs F.refsWtrSec * 10
    let t := (s.cand n).wtr
    let s := s.setB pgRefs (candF F.refsCandStatEligible n) (w ≤ t && !s.is pgRefs F.refsStatSwitching)
    s.setF pgRefs (candF F.refsCandStatWtrLeft n) ((w - t + 9) / 10)

/-- A revertive switch (R144, R145). -/
def refRevert (s : State) : State :=
  let n := refSel s
  if n = 15 || !s.actIs pgRefs F.refsCtrlRevertive || s.is pgRefs F.refsStatSwitching then s
  else
    let better := (List.range 8).filter (fun m =>
      candState s m == 3 && s.is pgRefs (candF F.refsCandStatEligible m) &&
        (decide (candPrio s m < candPrio s n) || (candPrio s m == candPrio s n && decide (m < n))))
    match better.foldl (fun b m => match b with
        | none => some m
        | some k => if candPrio s m < candPrio s k then some m else b) none with
    | some m => refSelect s m
    | none => s

/-- A tenth of a second of HOLDOVER passes (Table 5.4). -/
def holdCount (s : State) : State :=
  if dpll s ≠ 3 then s
  else
    let s := { s with ref := { s.ref with holdAge := s.ref.holdAge + 1 } }
    s.setF pgRefs F.refsHoldTimeSec (min 65535 (s.ref.holdAge / 10))

/-- The DPLL is removing a phase error, of the reference or of a step (R147). -/
def pulling (s : State) : Bool :=
  dpll s == 1 || s.ref.pull != 0 || s.ref.pullBare != 0 || s.rdInt pgRefs F.refsPherrErr != 0

/-- The media clock's frequency, measured as `freq`: within ±100 ppm, and within SLEW of the selected reference while the
DPLL removes a phase error (R147). How the loop of bandwidth BW moves it between is the given measurement's (log 9). -/
def clockFreq (s : State) (ofs : List Int) (freq : Int) : Int :=
  let n := refSel s
  let at_ := if n = 0 then ptpOffset s else nth 0 ofs n
  let slew : Int := s.act pgRefs F.refsDpllSlew * 1000
  let f := if n < 8 && pulling s then max (at_ - slew) (min (at_ + slew) freq) else freq
  max (-100000) (min 100000 f)

/-- The measurement of each 100 ms (R137 to R144, R147, R148). A disabled REFS measures nothing (R160). -/
def refMeasure (s : State) (ofs : List Int) (freq : Int) : State :=
  let s := holdCount s
  if !s.running pgRefs then s
  else
    let s := if dpll s = 1 ∨ dpll s = 2 then setInt s pgRefs F.refsFreqPpb (clockFreq s ofs freq) else s
    let f := s.rdInt pgRefs F.refsFreqPpb
    let r := { s.ref with
      freqs := (f :: s.ref.freqs).take 111, acqAge := s.ref.acqAge + 1,
      lockAge := if dpll s = 2 then s.ref.lockAge + 1 else s.ref.lockAge }
    let s := { s with ref := r }
    let s := (List.range 8).foldl (candRead ofs) s
    let sel := refSel s
    let s := ((List.range 8).filter (· != sel)).foldl candMeasure s
    let s := refFirst (refPeer s)
    let s := (List.range 8).foldl candWait s
    refRevert s

/-- The phase error at the last marker of the selected candidate lies within ±LOCK_NS (Table 5.3). -/
def phaseNear (s : State) : Bool :=
  !s.ref.stepDue && decide ((s.rdInt pgRefs F.refsPherrErr).natAbs ≤ s.act pgRefs F.refsLockNs * 65536)

/-- The phase error has stayed beyond ±LOCK_NS for 100 ms (Table 5.3). -/
def dpllUnlocks (s : State) : State :=
  if dpll s = 2 ∧ !phaseNear s then s.setF pgRefs F.refsStatDpll 1 else s

/-- The DPLL reaches LOCKED (Table 5.3); a switch is then complete (R142, R145). -/
def dpllLocks (s : State) : State :=
  if !s.running pgRefs || dpll s ≠ 1 || !phaseNear s then s
  else
    let sw := s.is pgRefs F.refsStatSwitching
    let s := s.setF pgRefs F.refsStatDpll 2
    let s := { s with ref := { s.ref with lockAge := 0, everLocked := true } }
    let s := if sw then
        (List.range 8).foldl (fun s n => s.setCand n (fun c => { c with wtr := 0, wtrLate := true }))
          (s.setF pgRefs F.refsStatSwitching 0)
      else s
    eventF s pgRefs F.refsEvtLocked

/-- REFS stops or is reset: nothing is measured, and the DPLL holds (R14, R17, R160). DESIGN CHOICE: candidates that become
ABSENT so raise no REF_DISQUAL, and a HOLDOVER entered so no HOLDOVER and no SEL_CHANGE (log 20). -/
def refsStop (s : State) (disabled : Bool) : State :=
  let f := holdFreq s
  let run := dpll s = 1 ∨ dpll s = 2
  let s := (List.range 8).foldl (fun s n =>
    let s := candEnter s n (if disabled || candPrio s n != 0 then 1 else 0) false
    (s.setF pgRefs (candF F.refsCandStatEligible n) 0).setF pgRefs (candF F.refsCandStatWtrLeft n) 0) s
  let s := if run then
      let s := (setInt s pgRefs F.refsFreqPpb f).setF pgRefs F.refsHoldTimeSec 0
      { s with ref := { s.ref with holdAge := 0 } }
    else s
  let s := pullEnd (s.setF pgRefs F.refsStatDpll (if s.ref.everRan then 3 else 0))
  let s := s.setF pgRefs F.refsStatSel 15
  let s := s.setF pgRefs F.refsStatSwitching 0
  let s := s.setF pgRefs F.refsStatStepPending 0
  let r := { s.ref with drift := false, driftOk := 0, stepDue := false, phReq := none }
  { s with ref := r }

/-- REFS starts: a candidate of PRIO 0 is DISABLED (Table 5.2). -/
def refsStart (s : State) : State :=
  let s := { s with ref := { s.ref with tdmSel := s.act pgRefs F.refsSrcTdmSel } }
  (List.range 8).foldl (fun s n => if candPrio s n = 0 then candEnter s n 0 false else s) s

/-- PRIO of a candidate has come into force (R138, Table 5.2). -/
def prioTakes (s : State) (n : Nat) : State :=
  if candPrio s n = 0 then
    if candState s n = 0 then s
    else
      let s := candEnter s n 0 false
      (s.setF pgRefs (candF F.refsCandStatEligible n) 0).setF pgRefs (candF F.refsCandStatWtrLeft n) 0
  else if candState s n = 0 then candEnter s n 1 false
  else s

/-- PRIO of every candidate, TDM_SEL and REFS_PTP.VALID come into force together; then another candidate is selected where
the selected one has left QUALIFIED (R33, R136, R138, R143). -/
def refsTakes (s : State) : State :=
  let n := refSel s
  let s := (List.range 8).foldl prioTakes s
  let sel := s.act pgRefs F.refsSrcTdmSel
  let s := if sel = s.ref.tdmSel then s else candGone { s with ref := { s.ref with tdmSel := sel } } 6
  let s := if s.actIs pgRefs F.refsPtpValid then s else candGone s 0
  if n < 8 ∧ candState s n ≠ 3 then refReselect s else s

/-- REFS's local tick boundary: what was written comes into force, and a software step is applied (R152). A step whose
boundary finds the DPLL in HOLDOVER is not applied; it ends with STEP_DONE all the same (log 20). -/
def refsBoundary (s : State) : State :=
  let s := refsTakes s
  match s.ref.phReq with
  | some v =>
    let s := { s with ref := { s.ref with phReq := none } }
    let s := s.setF pgRefs F.refsStatStepPending 0
    let s := if dpll s = 1 ∨ dpll s = 2 then phaseStep s v else s
    eventF s pgRefs F.refsEvtStepDone
  | none => s

/-- The magnitude limit of steps and offsets, units of 2^-16 ns (R152, R159). -/
abbrev stepLimit : Nat := 1365333312

/-- A refusal of a write to REFS (R152, R160). -/
def refsVeto (s : State) (ofs : Nat) (v : Word) : Option Veto :=
  let b := fun h l => getBits v h l
  match ofs with
  | 0x044 => vetoUnless (b 11 0 ≤ 3600) .range
  | 0x048 => vetoUnless (1 ≤ b 7 0) .range
  | 0x04C => vetoUnless (2 ≤ b 31 16 && b 31 16 ≤ 800 && 1 ≤ b 15 0 && b 15 0 < b 31 16) .range
  | 0x050 => vetoUnless (1 ≤ b 15 0 && b 15 0 ≤ 10000) .range
  | 0x054 => vetoUnless ((ofBits 32 v.toNat).natAbs ≤ 100000) .range
  | 0x058 => vetoUnless (1 ≤ b 25 16 && b 25 16 ≤ 1000 && 1 ≤ b 7 0 && b 7 0 ≤ 20) .range
  | 0x05C => vetoUnless (10 ≤ b 15 0 && b 15 0 ≤ 10000) .range
  | 0x060 => vetoUnless (1 ≤ b 15 8) .range
  | 0x068 => vetoUnless (!s.is pgRefs F.refsStatStepPending) .busy
  | 0x06C =>
    orVeto (vetoUnless (!s.is pgRefs F.refsStatStepPending) .busy)
      (vetoUnless ((ofBits 40 (b 7 0 * 2 ^ 32 + (s.reg pgRefs 0x068).toNat)).natAbs ≤ stepLimit
        && dpll s != 0 && dpll s != 3) .range)
  | _ => none

/-- KEEPALIVE acts: the TMO count starts again (R136, Table 5.4). -/
def refsOp (s : State) : State := { s with ref := { s.ref with ptpDead := false } }

/-- What a write to REFS does at once beyond the register: a step is asked for (R152). -/
def refsWrote (s : State) (ofs : Nat) (v : Word) : State :=
  if ofs = 0x06C then
    let x := ofBits 40 (getBits v 7 0 * 2 ^ 32 + (s.reg pgRefs 0x068).toNat)
    { (s.setF pgRefs F.refsStatStepPending 1) with ref := { s.ref with phReq := some x } }
  else s

-- The media clock generator.

/-- The tick number that PTP time gives the tick that began at T: round((T − MCG_TICK_OFFSET) × 24,000) (R157). -/
def ptpNumber (s : State) : Int :=
  floorDiv (((s.time.tickT : Int) - s.ref.tickOfs) * 48000 + 1000000000 * 65536) (2 * 1000000000 * 65536)

/-- Candidate 0 is selected and the DPLL is LOCKED (R156 to R158). -/
def ptpLocked (s : State) : Bool := refSel s == 0 && dpll s == 2

/-- An event of MCG; with EN = 0 none sets (R161). -/
def mcgEvent (s : State) (f : Fld) : State := if s.running pgMcg then eventF s pgMcg f else s

/-- MCG_OUT_OFS shows the displacement in CLK_MOD cycles with 16 fraction bits (Table 5.5). -/
def showOutOfs (s : State) : State :=
  setInt s pgMcg F.mcgOutOfsOfs (floorDiv (s.ref.outOfs * 6144) 15625)

/-- The tick event (R31, R126, R157, R158): the next tick begins, `frac` past the present FRC count. DESIGN CHOICE: the
record of R126 goes on while TSU is disabled, and MCG_PTP_NERR.ERR shows an error beyond 16 bits as the nearest value of
its range (log 46). -/
def tickEventAct (s : State) (frac : Nat) : State :=
  let t := s.localAt s.time.frc.toNat frac
  let n := if s.time.ticking then (s.time.tick + 1) % 2 ^ 48 else 0
  let tm := { s.time with tick := n, ticking := true, tickT := t, tickC := s.time.frc.toNat }
  let s := { s with time := tm }
  let s := if s.ref.number then
      let s := { s with time := { s.time with tick := (ptpNumber s).toNat % 2 ^ 48 } }
      { (s.setF pgMcg F.mcgRealignNumber 0) with ref := { s.ref with number := false } }
    else s
  let s := s.setB pgMcg F.mcgPtpNerrValid (ptpLocked s)
  if ptpLocked s then
    let e := ptpNumber s - (s.time.tick : Int)
    let was := s.rd pgMcg F.mcgPtpNerrErr
    let s := s.setF pgMcg F.mcgPtpNerrErr (toBits 16 (satInt 16 e))
    if e ≠ 0 ∧ was = 0 then
      mcgEvent (raise s pgMcg F.mcgFltSyncSlip.lo (w32 (toBits 32 e))) F.mcgEvtNumSlip
    else s
  else s.setF pgMcg F.mcgPtpNerrErr 0

/-- How far the grid moves in one tick towards a step: a free value within what SLEW allows (R147, R150; log 9). -/
def pullAmount (s : State) (left : Int) : Int × State :=
  let most := min left.natAbs (s.act pgRefs F.refsDpllSlew * 2730)
  let (v, s) := s.fresh
  let d : Int := (v.toNat % (most + 1) : Nat)
  ((if left < 0 then -d else d), s)

/-- The DPLL pulls the grid in the tick that ended; the held outputs keep their timing (R150, R151, R154). DESIGN CHOICE:
AUTO_REALIGN sets where the displacement is found too large, a tick before the re-alignment (log 20). -/
def gridPull (s : State) : State :=
  if s.ref.pullBare ≠ 0 then
    let (d, s) := pullAmount s s.ref.pullBare
    { s with ref := { s.ref with pullBare := s.ref.pullBare - d } }
  else if s.ref.pull ≠ 0 then
    let (d, s) := pullAmount s s.ref.pull
    let s := { s with ref := { s.ref with pull := s.ref.pull - d, outOfs := s.ref.outOfs - d } }
    let s := showOutOfs s
    if 8192 * 65536 < (s.rdInt pgMcg F.mcgOutOfsOfs).natAbs ∧ !s.ref.realign then
      mcgEvent { s with ref := { s.ref with realign := true } } F.mcgEvtAutoRealign
    else s
  else s

/-- MCG_OUT_OFS rounded to the nearest CLK_MOD cycle (R151). -/
def outCycles (s : State) : Int := floorDiv (s.rdInt pgMcg F.mcgOutOfsOfs + 32768) 65536

/-- CLK_MOD cycles since the last rising edge of a held output with a period and a phase, at a cycle of the current tick
(R151, R153). After a re-alignment the first edge is that of the programmed phase past its boundary. An offset below 0
lengthens the period in progress: the edges of the last |MCG_OUT_OFS| cycles before that first edge are held back, from the
request on. -/
def outSince (s : State) (period phase cyc : Nat) : Nat :=
  let past := decide (s.ref.alignTick = some s.time.tick) && decide (cyc < phase)
  let o := if past then s.ref.oldOfs else outCycles s
  let x : Int := if past then cyc else (cyc : Int) - 16384
  if (past || s.ref.realign) && decide (o < 0 ∧ phase + o ≤ x) then (x - phase - o + period).toNat
  else ((x - o - phase) % (period : Int)).toNat

/-- The output whose RATE, DIV or PHASE changed at this tick's boundary has not yet come to the first rising edge of its new
period (R162): it is low until then. DESIGN CHOICE: the new period starts at the first edge of the output grid of the new
configuration (log 46). -/
def outStarts (s : State) (k period phase cyc : Nat) : Bool :=
  s.ref.wckNew.find k == some s.time.tick && decide ((cyc : Int) < (outCycles s + phase) % (period : Int))

/-- The level of held output k of 50 % duty; it is low where its driver is off (R162). -/
def outLevel (s : State) (k : Nat) (on inv : Bool) (period phase cyc : Nat) : Bool :=
  s.running pgWck && on
    && ((!outStarts s k period phase cyc && decide (outSince s period phase cyc < period / 2)) != inv)

/-- The level of WCLK_OUT at a CLK_MOD cycle of the current tick (R162). -/
def wclkOut (s : State) (cyc : Nat) : Bool :=
  outLevel s 0 (s.actIs pgWck F.wckOutCfgEn) (s.actIs pgWck F.wckOutCfgPol) (8192 / 2 ^ s.act pgWck F.wckOutCfgRate)
    (s.act pgWck F.wckOutCfgPhase) cyc

/-- The level of MCLKn at a CLK_MOD cycle of the current tick (R162). -/
def mclkOut (s : State) (n cyc : Nat) : Bool :=
  let f := fun (x : Fld) => x.at 4 n
  outLevel s (n + 1) (s.actIs pgWck (f F.wckMclkCfgEn)) (s.actIs pgWck (f F.wckMclkCfgInv))
    (8 * 2 ^ s.act pgWck (f F.wckMclkCfgDiv)) 0 cyc

/-- MCG's local tick boundary: a re-alignment, a new tick offset, the pull of a step (R150 to R154, R159). -/
def mcgBoundary (s : State) : State :=
  let s := if s.ref.realign then
      let r := { s.ref with realign := false, outOfs := 0, pullBare := s.ref.pullBare + s.ref.pull, pull := 0,
                            alignTick := some s.time.tick, oldOfs := outCycles s }
      mcgEvent (showOutOfs { (s.setF pgMcg F.mcgRealignOutputs 0) with ref := r }) F.mcgEvtRealignDone
    else s
  let s := match s.ref.tickOfsReq with
    | some v =>
      let d := v - s.ref.tickOfs
      let s := { s with ref := { s.ref with tickOfs := v, tickOfsReq := none } }
      if refSel s = 0 ∧ d ≠ 0 then phaseStep s (wrapPhase 24000 d) else s
    | none => s
  gridPull s

/-- DEV_RUN.RUN = 1 has been accepted: it closes the load of the tick number (R158, R521). -/
def runAsked (s : State) : Bool := s.dev.runReq || s.devState == 3

/-- A refusal of a write to MCG (R158, R159, R161). -/
def mcgVeto (s : State) (ofs : Nat) (v : Word) : Option Veto :=
  match ofs with
  | 0x04C => vetoUnless ((ofBits 40 (getBits v 7 0 * 2 ^ 32 + (s.reg pgMcg 0x048).toNat)).natAbs ≤ stepLimit) .range
  | 0x050 => vetoUnless (s.running pgMcg && (!v.getLsbD 1 || (!runAsked s && ptpLocked s))) .range
  | _ => none

/-- What a write to MCG does beyond the register (R153, R158, R159). -/
def mcgWrote (s : State) (ofs : Nat) (v : Word) : State :=
  if ofs = 0x04C then
    let x := ofBits 40 (getBits v 7 0 * 2 ^ 32 + (s.reg pgMcg 0x048).toNat)
    { s with ref := { s.ref with tickOfsReq := some x } }
  else if ofs = 0x050 then
    { s with ref := { s.ref with realign := s.ref.realign || v.getLsbD 0, number := s.ref.number || v.getLsbD 1 } }
  else s

/-- Reads of MCG that are views, and what they latch (R161). -/
def mcgView (s : State) (m ofs : Nat) : Option Word :=
  match ofs with
  | 0x040 => some (w32 s.time.tick)
  | 0x044 => some (s.latch m).mcgHi
  | _ => none
def mcgRead (s : State) (m ofs : Nat) : State :=
  if ofs = 0x040 then s.setLatch m (fun l => { l with mcgHi := w32 (s.time.tick / 2 ^ 32) }) else s

/-- A block reset of MCG (R14, R17): the re-alignments asked for are dropped; the grid, its displacement and the tick number
go on, and a tick offset that was written still acts after the reset (Table 2.11). -/
def mcgReset (s : State) : State :=
  let s := (s.setF pgMcg F.mcgRealignOutputs 0).setF pgMcg F.mcgRealignNumber 0
  { s with ref := { s.ref with realign := false, number := false } }

/-- WCK stops or is reset: candidate 1 loses its activity (R14, R136). -/
def wckStop (s : State) : State := candLose (s.setF pgWck F.wckInStatActive 0) 1

/-- RATE and PHASE of WCLK_OUT, then DIV of each MCLK, as they are in force. -/
def wckShape (s : State) : List Nat :=
  (s.act pgWck F.wckOutCfgRate + 4 * s.act pgWck F.wckOutCfgPhase)
    :: (List.range 4).map (fun n => s.act pgWck (F.wckMclkCfgDiv.at 4 n))

/-- WCK's boundary and its start: a change of NOM returns candidate 1 to ABSENT (R138), and an output of which RATE, DIV or
PHASE changed starts a new period (R162). -/
def wckTakes (s : State) : State :=
  let now := wckShape s
  let new_ := (List.range 5).filter (fun k => nth 0 now k != nth 0 s.ref.wckCfg k)
  let s := if new_.isEmpty then s
    else { s with ref := { s.ref with
      wckCfg := now, wckNew := new_.foldl (fun l k => l.put k s.time.tick) s.ref.wckNew } }
  let nom := s.act pgWck F.wckInCfgNom
  if nom = s.ref.nom then s else candLose { s with ref := { s.ref with nom := nom } } 1

/-- A refusal of a write to WCK (R162, Table 5.6). -/
def wckVeto (ofs : Nat) (v : Word) : Option Veto :=
  let b := fun h l => getBits v h l
  match ofs with
  | 0x040 => vetoUnless (b 1 0 ≠ 3) .range
  | 0x048 => vetoUnless (b 2 1 ≠ 3 && b 31 16 < 8192 / 2 ^ b 2 1) .range
  | 0x04C | 0x050 | 0x054 | 0x058 => vetoUnless (b 3 1 ≤ 4) .range
  | _ => none

end Sys2Proof.Machine
end

