-- ==== Sys2Proof/Machine/MacTx.lean ====
section
/-! DEFINITION. Transmission: which frame a link sends next, and what sending it does (03). -/

namespace Sys2Proof.Machine

/-- The head item is not held back by its launch time (R93). -/
def launchMet (s : State) (q : Nat) (express : Bool) (i : TxItem) : Bool :=
  i.launch.isNone || (match headSt s q express with | .ready _ => true | _ => false)

/-- The head item would start too late (R94). -/
def launchMiss (s : State) (q : Nat) (t : Nat) (i : TxItem) : Bool :=
  match i.launch with
  | none => false
  | some l => decide (l + s.act (pgLink q) F.macLtLateLimit * 65536 < t)

/-- The head item may start at a time: its launch time has come (R93), or it is late and leaves unsent (R94). -/
def launchOk (s : State) (q : Nat) (t : Nat) (express : Bool) (i : TxItem) : Bool :=
  launchMiss s q t i || (launchMet s q express i && decide (i.launch.getD 0 ≤ t))

/-- Rank of a host item (R88): PTP event first, host express items last; 5 in the preemptable class. -/
def hostRank (i : TxItem) : Nat := if isPtpEvent i.bytes then 0 else if i.cls then 3 else 5

/-- Where the next frame comes from. -/
inductive TxChoice where
  | none
  /-- A frame of the ready list, by its place. -/
  | listed (n : Nat)
  /-- The head item of EXP_Q, or of PRE_Q. -/
  | host (exp : Bool)
  deriving DecidableEq, Repr

/-- What could start next of a class on a link at a time, with its rank and its place in the order of readiness. While
the port is not UP nothing holds a frame back (R77); a PAUSE received holds the preemptable class, PAUSE frames apart
(R97, R98). -/
def txCands (s : State) (l t : Nat) (cls : Bool) : List (Nat × Nat × TxChoice) :=
  let up := linkState s l == 2
  let held := up && !cls && l != 4 && s.is (pgLink l) F.macPauseStatRxPaused
  let listed := ((s.port l).ready.zipIdx.filter (fun e => e.1.express == cls && (e.1.rank == 4 || !held))).map
    (fun e => (e.1.rank, e.1.since, TxChoice.listed e.2))
  let hosts := (if l = 4 then [] else [true, false]).filterMap (fun ex =>
    match hostHead s l ex with
    | some i =>
      if i.cls == cls && (!up || (launchOk s l t ex i && (launchMiss s l t i || !held))) then
        some (hostRank i, (match headSt s l ex with | .ready n => n | _ => (s.port l).serial), TxChoice.host ex)
      else none
    | none => none)
  listed ++ hosts

/-- The first by rank, then by readiness (R88). -/
def firstCand (l : List (Nat × Nat × TxChoice)) : TxChoice :=
  match l with
  | [] => .none
  | e :: r => (r.foldl (fun b x => if x.1 < b.1 ∨ (x.1 = b.1 ∧ x.2.1 < b.2.1) then x else b) e).2.2

/-- The frame to be sent next on a link: express frames strictly before preemptable ones (R88, R93, R97, R98). -/
def txChoose (s : State) (l t : Nat) : TxChoice :=
  match txCands s l t true with
  | [] => firstCand (txCands s l t false)
  | c => firstCand c

/-- The size counter of a frame length, from the first one (Table 3.4). -/
def sizeIdx (len : Nat) : Nat :=
  if len ≤ 64 then 0 else if len ≤ 127 then 1 else if len ≤ 255 then 2 else if len ≤ 511 then 3
  else if len ≤ 1023 then 4 else if len ≤ 1518 then 5 else 6

/-- 0 unicast, 1 multicast, 2 broadcast. -/
def castIdx (dst : Nat) : Nat := if dst = 2 ^ 48 - 1 then 2 else if dst / 2 ^ 40 % 2 = 1 then 1 else 0

/-- An incremental change of an Internet checksum (RFC 1624; R121). -/
def sumUpdate (hc : Nat) (old new_ : List Byte) : Nat :=
  65535 - fold16 (65535 - hc + sum16 (old.map (fun b => ~~~b)) + sum16 new_)

/-- The residence-time correction of a forwarded PTP event message (R120, R121): ingress and egress times. DESIGN CHOICE:
an update that makes a non-zero UDP checksum 0x0000 writes 0x0000, as RFC 1624 computes it; over IPv6 the UDP checksum
stays as it came, R121 naming IPv4 alone (log 45). -/
def tcCorrect (l : List Byte) (ing egr : Nat) : List Byte :=
  match ptpMsg l with
  | none => l
  | some o =>
    let old := (l.drop (o + 8)).take 8
    let lim : Int := 2 ^ 63 - 1
    let v := ofBits 64 (natBE old)
    let sum := v + ((egr : Int) - (ing : Int))
    let nv := if v = lim ∨ lim < sum then lim else sum
    let new_ := bytesBE 8 (toBits 64 nv)
    let l := patch l (o + 8) new_
    match udpOf l with
    | none => l
    | some u =>
      let c := beAt l (u + 6) 2
      if c = 0 then l else patch l (u + 6) (bytesBE 2 (sumUpdate c old new_))

/-- The frame of a choice taken off its list or queue. -/
def txRemove (s : State) (l : Nat) : TxChoice → State
  | .none => s
  | .listed n => s.setPort l (fun x => { x with ready := x.ready.eraseIdx n })
  | .host ex =>
    match hostQueue s l ex with
    | some n => takeItem (headsGone s l n) n
    | none => s

/-- The counters of a frame sent (Table 3.4). -/
def txCounters (l : Nat) (b : List Byte) (f : TxFrame) : List Nat :=
  if l = 4 then [5]
  else [7 + sizeIdx b.length, 22 + castIdx (dstOf b)] ++ (if f.express then [25] else [])
    ++ (if f.rank = 4 then [26] else []) ++ (if f.fwd.isSome then [27] else [])

/-- The byte counts at which a preemptable frame of a length is interrupted, where express frames become ready after the
given counts of its bytes (R90): at least 60 bytes of the fragment sent, and at least 64 of the frame left. -/
def cutsOf (len from_ : Nat) : List Nat → List Nat
  | [] => []
  | r :: rs =>
    let b := max r (from_ + 60)
    if from_ ≤ r ∧ b + 64 ≤ len then b :: cutsOf len b rs else cutsOf len from_ rs

/-- A frame leaves on a link at a time (R82, R90, R95, R116, R120, R122, R123): what was sent, the counters, the timestamp. -/
def txSend (s : State) (l : Nat) (f : TxFrame) (t : Nat) (deferred : Bool) (cuts : List Nat) (tsReq : Bool) : State :=
  let p := pgLink l
  let egr := ((t : Int) + s.actInt pgTsu (F.tsuTxlatLat.at 4 l)).toNat
  let b := if f.csum = 0 then f.bytes else withChecksums f.bytes (f.csum = 1)
  let tc := isPtpEvent b && s.actIs pgTsu F.tsuTcEn && s.running pgTsu && (f.fwd.getD none).isSome && l != 4
    && (match ptpMsg b with | some o => beAt b (o + 1) 1 % 16 == 2 | none => false)
  let b := if tc then tcCorrect b ((f.fwd.getD none).getD 0) egr else b
  let s := if tc then s.bump pgTsu F.tsuCntTcCount else s
  let out := sealFrame b
  let at_ := if !f.express && l != 4 && s.is p F.macPreStatActive then cutsOf out.length 0 cuts else []
  let s := s.setPort l (fun x => { x with sent := out, sentFrags := fragsOf out 0 at_ })
  let s := countAll s l (txCounters l out f)
  let s := if f.express && deferred && l != 4 then count s l 42 else s
  let s := countN s l 41 at_.length
  let s := if tsReq then txtsFor s l b (some egr) else s
  if 0 < f.cells then intGive s f.cells else s

/-- A frame is discarded for want of a link (R77); an item that asked for its timestamp gives an entry without one
(R123). -/
def txDrop (s : State) (l : Nat) (f : TxFrame) (tsReq : Bool) : State :=
  let s := count s l (if l = 4 then 6 else 46)
  let s := if tsReq && l != 4 then txtsFor s l f.bytes none else s
  if 0 < f.cells then intGive s f.cells else s

/-- The frame of a choice, and whether it asked for its timestamp. -/
def txFrameOf (s : State) (l : Nat) : TxChoice → Option (TxFrame × Bool)
  | .none => none
  | .listed n => ((s.port l).ready[n]?).map (fun f => (f, false))
  | .host ex => (hostHead s l ex).map (fun x =>
      ({ express := x.cls, rank := hostRank x, bytes := x.bytes, csum := if x.csum then 1 else 0 }, x.tsReq))

/-- The launch time of a choice was missed (R94). -/
def txMissed (s : State) (l t : Nat) : TxChoice → Bool
  | .host ex => ((hostHead s l ex).map (launchMiss s l t)).getD false
  | _ => false

/-- Test modes of a link in which it sends and receives no frames of its own: PRBS31 in place of traffic, and far-end
loopback (Tables 3.6, 3.7). -/
def lineTest (s : State) (l : Nat) : Bool :=
  s.actIs (pgLink l) F.macTestPrbsEn || s.act (pgLink l) F.macTestLoopback == 2

/-- What a link's transmitter sends between frames and beside them. -/
inductive LineOut where
  | idle
  | remoteFault
  /-- PRBS31 in place of traffic. -/
  | prbs
  /-- The line data received. -/
  | echo
  deriving DecidableEq, Repr

/-- What a link sends where no frame leaves (R77, Tables 3.6, 3.7): idle, or the remote-fault sequence while it is not UP
and detects a local fault. -/
def lineSends (s : State) (l : Nat) : LineOut :=
  if s.running (pgLink l) && s.actIs (pgLink l) F.macTestPrbsEn then .prbs
  else if s.running (pgLink l) && s.act (pgLink l) F.macTestLoopback == 2 then .echo
  else if linkState s l ≠ 2 ∧ s.is (pgLink l) F.macLinkLocalFault then .remoteFault
  else .idle

/-- FRAME_TRANSMIT: the next frame of a link is sent, or discarded where the link is not UP or its launch time was
missed (R77, R88 to R94). In a test of the line the frames of a link that is UP wait (log 45). -/
def transmit (s : State) (l : Nat) (i : Instant) (deferred : Bool) (cuts : List Nat) : State :=
  let t := s.timeAt i
  if !s.running (pgLink l) || (linkState s l = 2 && lineTest s l) then s
  else if (s.port l).respond && linkState s l = 2 then s.setPort l (fun x => { x with respond := false })
  else
    let s := if l = 4 then s else headsReach s l
    let c := txChoose s l t
    match txFrameOf s l c with
    | none => s
    | some (f, ts) =>
      let missed := txMissed s l t c
      let s := txRemove s l c
      if linkState s l ≠ 2 then txDrop s l f ts
      else if missed then
        let s := count s l 45
        if ts then txtsFor s l f.bytes none else s
      else (txSend s l f t deferred cuts ts).signal (pgLink l)

/-- A frame that began at an instant is in transmission when the link goes down: it is abandoned (R77). -/
def txCut (s : State) (l : Nat) (tx : Option Instant) : State :=
  match tx with
  | none => s
  | some i =>
    if linkState s l ≠ 2 then s
    else
      let c := txChoose s l (s.timeAt i)
      match txFrameOf s l c with
      | none => s
      | some (f, ts) => txDrop (txRemove s l c) l f ts

/-- Every frame ready on a link that stops reaches the head of its queue, and is discarded (R77). -/
def txFlush (s : State) (l : Nat) : State :=
  ((s.port l).ready).foldl (fun s f => txDrop s l f false) (s.setPort l (fun x => { x with ready := [] }))

/-- The first check that a received frame fails, as its counter (R84); none for a good frame. -/
def rxError (s : State) (q : Nat) (info : RxInfo) (b : List Byte) : Option Nat :=
  if info.pcsErr || linkState s q ≠ 2 then some 31
  else if s.act (pgLink q) F.macMaxlenMaxlen < b.length then some 30
  else if b.length < 64 then some 29
  else if !fcsOk b then some 28
  else if info.asmErr then some 39
  else if info.smdErr then some 38
  else
    let d := withoutFcs b
    match ipv4Of d with
    | some h => if !ipSumOk d h then some 32 else if !udpSumOk d then some 33 else none
    | none => if udp6SumOk d then none else some 33

/-- A frame with a failing FCS counts towards FCS_STORM, whichever counter of R84 has it (R102). -/
def fcsStorm (s : State) (q : Nat) : State :=
  let s := s.setPort q (fun x => { x with fcsCount := x.fcsCount + 1 })
  let th := s.act (pgLink q) F.macStormThresh
  if th ≠ 0 ∧ th ≤ (s.port q).fcsCount ∧ !(s.port q).fcsRaised then
    raise (s.setPort q (fun x => { x with fcsRaised := true })) (pgLink q) F.macFltFcsStorm.lo (w32 q)
  else s

/-- The destination address passes the host filter (R85). -/
def filterPass (s : State) (q : Nat) (dst : List Byte) : Bool :=
  let p := pgLink q
  let d := natBE dst
  let i := hashIndex dst
  d == stationOf s q || s.actIs p F.macRxfPromisc
    || (castIdx d == 2 && s.actIs p F.macRxfBcast)
    || (castIdx d == 1 && (s.actIs p F.macRxfMcastAll
      || (s.actIs p F.macRxfMcastHashEn
        && (s.inForce p (if i < 32 then F.macMhashLoBits.ofs else F.macMhashHiBits.ofs)).getLsbD (i % 32))))

/-- The receive item of a frame (Table 4.2). -/
def rxItem (s : State) (q : Nat) (b : List Byte) (ts : Option Nat) : List Word :=
  let _ := s
  let w0 := q % 4 * 2 ^ 28 + (if ts.isSome then 2 ^ 27 else 0) + (if (ptpOfs b).isSome then 2 ^ 26 else 0)
    + (if isTagged b then 2 ^ 25 else 0) + b.length
  let t := ts.getD 0
  [w32 w0, w32 (nsOf t), w32 (secOf t), w32 (fracOf t * 65536 + secOf t / 2 ^ 32 % 65536)] ++ packWords b

/-- The ingress timestamp of a frame; none while TSU is disabled (R116, R119). DESIGN CHOICE: the spec gives no timestamp
that the latency would make negative; it is 0 (log 19). -/
def ingressTs (s : State) (q : Nat) (info : RxInfo) : Option Nat :=
  if s.running pgTsu then some (((s.timeAt info.crossing : Int) - s.actInt pgTsu (F.tsuRxlatLat.at 4 q)).toNat) else none

/-- A frame is put before one port (R86); a port that is not enabled, and so is DOWN, drops it (R77). The answer is
false where the pool has no room. -/
def forwardTo (s : State) (b : List Byte) (ts : Option Nat) (o : Nat) : Bool × State :=
  let ptp := isPtpEvent b
  let n := cellsOf ((b.length + 3) / 4)
  if !s.running (pgLink o) then (true, count s o 46)
  else
    match intTake s n with
    | some s => (true, ready s o { express := ptp, rank := if ptp then 0 else 5, bytes := b, fwd := some ts,
                                   cells := n })
    | none => (false, s)

/-- Forwarding of a frame to ports (R86): false where no port has it. -/
def forward (s : State) (ports : List Nat) (b : List Byte) (ts : Option Nat) : Bool × State :=
  ports.foldl (fun r o =>
    let (ok, s) := forwardTo r.2 b ts o
    (r.1 || ok, s)) (false, s)

/-- A received frame is discarded under one counter (R84). -/
def rxDrop (s : State) (q n : Nat) : Bool × State := (false, count s q n)

/-- Steps 3 and 4 of R85: the host queue, or forwarding. The answer is false where the frame is discarded. -/
def hostOrForward (s : State) (q : Nat) (b : List Byte) (ts : Option Nat) : Bool × State :=
  let p := pgLink q
  let d := withoutFcs b
  if filterPass s q (d.take 6) then
    if s.actIs p F.macRxqHostEn then
      let (ok, s) := pushItem s (s.act p F.macRxqHostQ) (rxItem s q d ts) true
      if ok then (true, count (if ts.isNone then s.bump pgTsu F.tsuCntNotsCount else s) q 21) else rxDrop s q 35
    else rxDrop s q 34
  else
    let ptp := (ptpMsg d).isSome
    let fwd := if ptp then s.actIs p F.macFwdFwdPtp else s.actIs p F.macFwdFwdOther && dstOf d != stationOf s q
    let ports := (List.range 4).filter (fun o => o != q && (s.act p F.macFwdFwdMask).testBit o)
    if fwd && !ports.isEmpty then
      let (ok, s) := forward s ports d ts
      if ok then (true, s) else rxDrop s q 35
    else rxDrop s q 34

end Sys2Proof.Machine
end

