-- ==== Sys2Proof/Machine/Auxenos.lean ====
section
/-! DEFINITION. Auxenos frames: header, payload and tail as bytes (06). -/

namespace Sys2Proof.Machine

/-- The header of an Auxenos frame (Table 6.1, R166). -/
structure AuxHdr where
  version   : Nat := 1
  type      : Nat := 0
  spec      : Bool := false
  muted     : Bool := false
  lastSeg   : Bool := false
  ashOk     : Bool := false
  node      : Nat := 0
  stream    : Nat := 0
  seq       : Nat := 0
  tick      : Nat := 0
  chanCount : Nat := 0
  firstChan : Nat := 0
  claim     : Word := 0
  domain    : Nat := 0
  fmt32     : Bool := false
  chans     : Nat := 0
  payLen    : Nat := 0
  hi        : Word := 0
  lo        : Word := 0
  deriving DecidableEq, Repr

/-- Frame types (Table 6.2). -/
abbrev tMedia : Nat := 1
abbrev tCorrection : Nat := 2
abbrev tControl : Nat := 3
abbrev tHeartbeat : Nat := 4
abbrev tHealth : Nat := 5

/-- The header that 32 bytes spell. -/
def auxParse (b : List Byte) : AuxHdr :=
  let w := fun i => (w32 (beAt b (4 * i) 4) : Word)
  let f := fun i hi lo => getBits (w i) hi lo
  { version := f 0 31 28, type := f 0 27 24, spec := (w 0).getLsbD 23, muted := (w 0).getLsbD 22,
    lastSeg := (w 0).getLsbD 21, ashOk := (w 0).getLsbD 20, node := f 0 9 0, stream := f 1 31 20, seq := f 1 15 0,
    tick := (w 2).toNat * 65536 + f 3 31 16, chanCount := f 3 14 8, firstChan := f 3 5 0, claim := w 4,
    domain := f 5 31 30, fmt32 := (w 5).getLsbD 29, chans := f 5 22 16, payLen := f 5 10 0, hi := w 6, lo := w 7 }

/-- The 32 bytes of a header; reserved bits 0 (R164). -/
def auxBytes (h : AuxHdr) : List Byte :=
  let bit := fun (b : Bool) n => if b then 2 ^ n else 0
  let w0 := h.version * 2 ^ 28 + h.type * 2 ^ 24 + bit h.spec 23 + bit h.muted 22 + bit h.lastSeg 21 + bit h.ashOk 20
    + h.node
  let w1 := h.stream * 2 ^ 20 + h.seq
  let w3 := h.tick % 65536 * 65536 + h.chanCount * 256 + h.firstChan
  let w5 := h.domain * 2 ^ 30 + bit h.fmt32 29 + h.chans * 65536 + h.payLen
  bytesBE 4 w0 ++ bytesBE 4 w1 ++ bytesBE 4 (h.tick / 65536) ++ bytesBE 4 w3 ++ bytesBE 4 h.claim.toNat
    ++ bytesBE 4 w5 ++ bytesBE 4 h.hi.toNat ++ bytesBE 4 h.lo.toNat

/-- Bytes of a sample. -/
def smpBytes (fmt32 : Bool) : Nat := if fmt32 then 4 else 3

/-- A received sample as Q1.31 (R167). -/
def smpDecode (fmt32 : Bool) (b : List Byte) : Int :=
  if fmt32 then ofBits 32 (natBE b) else ofBits 24 (natBE b) * 256

/-- A Q1.31 sample as sent (R167). -/
def smpEncode (fmt32 : Bool) (x : Int) : List Byte :=
  if fmt32 then bytesBE 4 (toBits 32 x) else bytesBE 3 (toBits 24 (min (rne x 8) (2 ^ 23 - 1)))

/-- Channel j of a payload: n samples. -/
def payChan (fmt32 : Bool) (n : Nat) (pay : List Byte) (j : Nat) : List Int :=
  let b := smpBytes fmt32
  (List.range n).map (fun i => smpDecode fmt32 ((pay.drop ((j * n + i) * b)).take b))

/-- The payload of channels, each a block of samples. -/
def payBytes (fmt32 : Bool) (chans : List (List Int)) : List Byte := chans.flatMap (fun c => c.flatMap (smpEncode fmt32))

/-- CORR_MASK as a number. -/
def AuxHdr.mask (h : AuxHdr) : Nat := h.hi.toNat * 2 ^ 32 + h.lo.toNat

/-- A received frame's Auxenos part: header, payload and the 16 tail bytes, where the frame is as long as its header
implies (R173). -/
structure AuxFrame where
  hdr  : AuxHdr := {}
  raw  : List Byte := []
  pay  : List Byte := []
  tail : List Byte := []
  /-- The frame ends at the length that its header implies. -/
  fits : Bool := false
  deriving DecidableEq, Repr

/-- The Auxenos part of a frame given from its destination address to its last byte before the FCS. -/
def auxOf (d : List Byte) : AuxFrame :=
  let o := l3Ofs d
  let raw := (d.drop o).take 32
  let h := auxParse raw
  { hdr := h, raw := raw, pay := (d.drop (o + 32)).take h.payLen, tail := (d.drop (o + 32 + h.payLen)).take 16,
    fits := d.length == o + 48 + h.payLen }

/-- TAIL_CRC over header, payload and tail bytes 0 to 11 (R169). -/
def tailCrc (raw pay tail : List Byte) : List Byte := fcsBytes (raw ++ pay ++ tail.take 12)

/-- Length and TAIL_CRC of a frame are right (R173). -/
def AuxFrame.sound (f : AuxFrame) : Bool := f.fits && tailCrc f.raw f.pay f.tail == f.tail.drop 12

/-- The frame is a good one of its type (R170): a CONTROL frame has no TAIL_CRC (R169). -/
def AuxFrame.good (f : AuxFrame) : Bool := if f.hdr.type = tControl then f.fits else f.sound

/-- CONFIRM and RETRACT (Table 6.4). -/
def AuxFrame.confirm (f : AuxFrame) : Nat := beAt f.tail 0 1
def AuxFrame.retract (f : AuxFrame) : BitVec 64 := BitVec.ofNat 64 (beAt f.tail 4 8)

/-- The tail of a frame (R169). -/
def auxTail (raw pay : List Byte) (confirm : Nat) (retract : BitVec 64) : List Byte :=
  let t := bytesBE 1 confirm ++ [0, 0, 0] ++ bytesBE 8 retract.toNat
  t ++ tailCrc raw pay t

/-- A frame of EtherType STRG_CFG.ETYPE, its header complete. -/
def isAux (s : State) (d : List Byte) : Bool := etypeOf d == s.act pgStrg F.strgCfgEtype && l3Ofs d + 32 ≤ d.length

/-- A frame of the device on a network port: the sending port's station address and, where asked, its tag (R163). -/
def auxOnPort (s : State) (q dst : Nat) (express : Bool) (body : List Byte) : List Byte :=
  let p := pgLink q
  let f := bytesBE 6 dst ++ bytesBE 6 (stationOf s q) ++ bytesBE 2 (s.act pgStrg F.strgCfgEtype) ++ body
  if s.actIs p F.macVlanTagEn then
    withTag f (s.act p (if express then F.macVlanPcpExp else F.macVlanPcpPre)) (s.act p F.macVlanVid)
  else f

/-- Header, payload and tail of a frame with CONFIRM and RETRACT. -/
def auxBody (h : AuxHdr) (pay : List Byte) (confirm : Nat) (retract : BitVec 64) : List Byte :=
  let raw := auxBytes { h with payLen := pay.length }
  raw ++ pay ++ auxTail raw pay confirm retract

/-- A claim is higher than another (R480). -/
def claimHigher (x y : Word) : Bool :=
  let g := fun (c : Word) => getBits c 31 16
  let d := (g x + 65536 - g y) % 65536
  if d = 0 ∨ d = 32768 then
    if getBits x 15 8 = getBits y 15 8 then decide (getBits y 7 0 < getBits x 7 0)
    else decide (getBits y 15 8 < getBits x 15 8)
  else decide (d < 32768)

/-- A fade-out over one tick (R294). -/
def fadeOut (dom : Nat) (x : List Int) : List Int :=
  let n := samplesOf dom
  (x.zipIdx).map (fun e => sat32 (rne (e.1 * ((n : Int) - 1 - (e.2 : Int))) (dom + 1)))

/-- Tick t, 0 to 3, of a ramp-in over 4 ticks (R295). -/
def rampIn (dom t : Nat) (x : List Int) : List Int :=
  let n := samplesOf dom
  (x.zipIdx).map (fun e => sat32 (rne (e.1 * (((t * n + e.2 : Nat) : Int) + 1)) (dom + 3)))

/-- A frame is given to a MAC; one that does not run, and so is DOWN, drops it (R77). -/
def submit (s : State) (q : Nat) (f : TxFrame) : State := if s.running (pgLink q) then ready s q f else count s q 46

/-- Frames are given to the MACs of a port mask (R190). -/
def offer (s : State) (mask : Nat) (f : Nat → TxFrame) : State :=
  (List.range 4).foldl (fun s q => if mask.testBit q then submit s q (f q) else s) s

/-- A frame of a tick is of the tick of the last release of OUTSEL, or of the next (R490). -/
def releasedTick (s : State) (tick : Nat) : Bool :=
  match s.red.relTick with
  | some t => decide (tick ≤ t + 1)
  | none => false

/-- Pair egress of a tick is sent in RED's present state (R493, R495, Table 18.4): after a release for the tick in progress
and the next (R490), and in RELEASING from the second boundary as in the state that then follows. -/
def pairSends (s : State) (tick : Nat) : Bool :=
  let standby := !s.actIs pgRed F.redCfgMode
  match s.rd pgRed F.redStatState with
  | 0 | 3 => true
  | 2 => standby || releasedTick s tick
  | 4 => releasedTick s tick
      || (s.red.relLeft == 0 && standby && s.red.relCause != some .failover && s.red.relCause.isSome)
  | _ => releasedTick s tick

end Sys2Proof.Machine
end

