-- ==== Sys2Proof/Machine/Lattice.lean ====
section
/-! DEFINITION. The lattice at work (08, 09): tasks and their records, block stores, cones, reruns, and what a tick's end
does on a tile. A task is named by its tile and its list index. -/

namespace Sys2Proof.Machine

/-- Task kinds (Table 8.5). -/
abbrev kInstrip : Nat := 1
abbrev kMatrix : Nat := 2
abbrev kOutstrip : Nat := 3
abbrev kFir : Nat := 4
abbrev kBridge : Nat := 5
abbrev kDyn : Nat := 6
abbrev kMeter : Nat := 7
abbrev kConceal : Nat := 8

/-- The factor of a bridge (Table 8.5). -/
def Task.factor (k : Task) : Nat := if k.arg / 2 ^ 14 % 2 = 0 then 2 else 4
/-- A bridge interpolates. -/
def Task.interp (k : Task) : Bool := k.arg / 2 ^ 15 % 2 == 0
/-- A bridge reads its coefficients from B1. -/
def Task.custom (k : Task) : Bool := k.arg / 2 ^ 13 % 2 == 1

/-- The task at an index of a tile's list. -/
def State.taskAt (s : State) (t i : Nat) : TaskSt := nth {} (s.tile t).tasks i

/-- Change the task at an index of a tile's list. -/
def State.setTask (s : State) (t i : Nat) (f : TaskSt → TaskSt) : State :=
  s.setTile t (fun x => { x with tasks := putAt x.tasks i (f (nth {} x.tasks i)) })

/-- Every task of the active image. -/
def State.allTasks (s : State) : List (Nat × Nat) :=
  s.lat.tiles.flatMap (fun e => (List.range e.2.tasks.length).map (fun i => (e.1, i)))

/-- A tile runs tasks (R256, R257). -/
def tileRuns (s : State) (t : Nat) : Bool := s.running pgLatg && s.running (pgTile t)

-- Cones (R214).

/-- A task takes blocks from slots: every kind but INSTRIP and CONCEAL. -/
def Task.takes (k : Task) : Bool := k.kind != kInstrip && k.kind != kConceal

/-- Two ranges of slots meet. -/
def meets (a n b m : Nat) : Bool := decide (a < b + m) && decide (b < a + n) && n != 0 && m != 0

/-- A task posts to slots of which another takes; the slots of a CONCEAL task count for no cone (R214). -/
def feeds (s : State) (a b : Nat × Nat) : Bool :=
  let x := (s.taskAt a.1 a.2).task
  let y := (s.taskAt b.1 b.2).task
  x.kind != kConceal && y.takes && (a.1 == b.1 || x.ring.testBit b.1) && meets x.outSlot x.outCount y.inSlot y.inCount

/-- One round of the closure of a cone. -/
def coneGrow (s : State) (all cone : List (Nat × Nat)) : List (Nat × Nat) :=
  cone ++ all.filter (fun b => !cone.contains b && cone.any (fun a => feeds s a b))

/-- The taint cone of an input strip (R214); METER tasks are in none. -/
def coneOf (s : State) (strip : Nat) : List (Nat × Nat) :=
  let all := s.allTasks.filter (fun a => (s.taskAt a.1 a.2).task.kind != kMeter)
  let own := all.filter (fun a =>
    let k := (s.taskAt a.1 a.2).task
    (k.kind == kInstrip || k.kind == kConceal || (k.kind == kDyn && !k.side)) && k.object == strip)
  (List.range all.length).foldl (fun c _ => coneGrow s all c) own

/-- The cost of a set of tasks on a tile (R214). -/
def costOn (s : State) (cone : List (Nat × Nat)) (t : Nat) : Nat :=
  ((cone.filter (fun a => a.1 == t)).map (fun a => (s.taskAt a.1 a.2).task.budget + 16)).sum

/-- The cost of a cone on every tile that it has a cost on. -/
def coneCost (s : State) (cone : List (Nat × Nat)) : List (Nat × Nat) :=
  ((List.range 48).map (fun t => (t, costOn s cone t))).filter (fun e => e.2 != 0)

-- States of computed blocks (R199).

/-- A rerun of a tick that includes a task is pending or running. -/
def rerunsTask (s : State) (tick : Nat) (a : Nat × Nat) : Bool :=
  s.strm.reruns.any (fun r => r.tick == tick && r.tasks.contains a)

/-- A task is to run again in a tick, or takes blocks, directly or not, of one that is. -/
def rerunReaches (s : State) (tick : Nat) (a : Nat × Nat) : Bool :=
  let all := s.allTasks
  s.strm.reruns.any (fun r => r.tick == tick &&
    ((List.range all.length).foldl (fun c _ => coneGrow s all c) r.tasks).contains a)

/-- The state of what a task posts in a tick. -/
def nodeState (s : State) (tick : Nat) (a : Nat × Nat) : BlkState :=
  let bad := s.lat.ins.filter (fun e => e.2.tick == tick && e.2.st != .ivory && (coneOf s e.1).contains a)
  let rr := rerunReaches s tick a
  if rr || bad.any (fun e => e.2.st == .soot) then .soot
  else if bad.isEmpty then .ivory else .ash

-- The blocks a task takes.

/-- A domain's samples of a channel of TDM, AES3 or an ASRC feed an input strip; the strip of a block at its page. -/
def portFeeds (s : State) (p strip : Nat) : Bool :=
  match pageKind p with
  | .tdm => s.actIs p F.tdmRxRxEn && !s.actIs p F.tdmCfgAsrc && decide (s.act p F.tdmRxRxBase ≤ strip)
      && decide (strip < s.act p F.tdmRxRxBase + popCount 32 (s.act p F.tdmRxMaskSlots))
  | .aesi => !s.actIs p F.aesiCfgMode && ((s.actIs p F.aesiCfgAEn && s.act p F.aesiCfgStripBase == strip)
      || (s.actIs p F.aesiCfgBEn && s.act p F.aesiCfgStripBase + 1 == strip))
  | .asrc => (List.range 64).any (fun c =>
      s.actIs p (F.asrcChEnEn.at 16 c) && s.act p (F.asrcChCfgDir.at 16 c) == 0
        && s.act p (F.asrcChCfgStrip.at 16 c) == strip)
  | _ => false

/-- Channels of an ingress context, by its KIND (Tables 6.7 and 6.8). -/
def ingPage (c : Nat) : Nat := 0x31 + c / 128
def ingFld (f : Fld) (c : Nat) : Fld := f.at 32 (c % 128)
def ingGet (s : State) (c : Nat) (f : Fld) : Nat := s.act (ingPage c) (ingFld f c)
def ingKind (s : State) (c : Nat) : Nat := ingGet s c F.ing0W0Kind
def ingStrip (s : State) (c : Nat) : Nat :=
  if ingKind s c = 0 then ingGet s c F.ing0W1StripBase else ingGet s c F.ing1W3StripBase
def ingChans (s : State) (c : Nat) : Nat :=
  if ingKind s c = 0 then ingGet s c F.ing0W1Channels else ingGet s c F.ing1W3Chanm1 + 1

/-- An accepted ingress context of a KIND feeds an input strip. -/
def ctxFeeds (s : State) (kind strip : Nat) : Bool :=
  s.strm.ing.any (fun e => e.2.accepted && ingKind s e.1 == kind && decide (ingStrip s e.1 ≤ strip)
    && decide (strip < ingStrip s e.1 + ingChans s e.1))

/-- Pages that may feed input strips beside STRG. -/
def feedPages : List Nat := (List.range 16).map pgTdm ++ (List.range 4).map pgAesi ++ [pgAsrc]

/-- The block of a tick of an input strip: what was delivered; none while its producer may still deliver, as STRG does
for every accepted context (R171); absent while the port that feeds it is resetting (R16, R237); otherwise silence, as of a
DISABLED context, port or ASRC channel and of a strip that nothing feeds (Tables 6.5, 10.2 and 10.4, R325; DEDUCED, log
25). The tick of a port's stop is marked at the stop (`feedAbsent`). -/
def inputOf (s : State) (strip tick dom : Nat) : Option Blk :=
  match s.lat.ins.find strip with
  | some b => if b.tick = tick then some b else late
  | none => late
where
  late : Option Blk :=
    let waits := fun p => s.running p && (decide (s.arch.began.get 0 p < tick) || (s.aud p).pend.any (·.1 == tick))
    if ctxFeeds s 0 strip || ctxFeeds s 1 strip then none
    else if feedPages.any (fun p => waits p && portFeeds s p strip) then none
    else some { tick := tick, absent := feedPages.any (fun p => s.resetting p && portFeeds s p strip), st := .ivory,
                data := List.replicate (samplesOf dom) 0 }

/-- A block as a task of a domain takes it from its strip: one delivered in another domain stands for silence, as
R302 has it for a port (DESIGN CHOICE for a context, log 26). -/
def inDomain (dom : Nat) (b : Blk) : Blk :=
  if b.absent || b.data.length == samplesOf dom then b else { b with data := List.replicate (samplesOf dom) 0 }

/-- The blocks a task takes in the tick of its tile; none where one is missing (R237). -/
def inputsOf (s : State) (t i : Nat) : Option (List Blk) :=
  let k := (s.taskAt t i).task
  let tick := (s.tile t).tick
  if k.kind = kInstrip then (inputOf s k.object tick k.domain).map (fun b => [inDomain k.domain b])
  else if k.kind = kConceal then some []
  else (List.range k.inCount).mapM (fun j =>
    match (s.tile t).store.find (k.inSlot + j) with
    | some b => if b.tick = tick then some b else none
    | none => none)

/-- The barrier a task awaits has its posts (R237). -/
def barrierMet (s : State) (t i : Nat) : Bool :=
  let b := (s.taskAt t i).task.waitBar
  b == 0 || (s.lat.postTick == (s.tile t).tick && decide (nth 0 s.lat.bars b ≤ s.lat.posts.get 0 b))

/-- A task may use a block: not the output of a task that awaits a rerun, for a task of the cone that has not started
runs once, with the replacement (R217); for a METER task, only as Ivory (R202). -/
def mayUse (s : State) (tick : Nat) (meter : Bool) (b : Blk) : Bool :=
  match b.src with
  | some a => !rerunsTask s tick a && (!meter || nodeState s tick a == .ivory)
  | none => !meter || b.st == .ivory

/-- A task is ready (R237). -/
def taskReady (s : State) (t i : Nat) : Bool :=
  let x := s.taskAt t i
  x.phase == .waiting && barrierMet s t i &&
    match inputsOf s t i with
    | none => false
    | some bs => bs.all (mayUse s (s.tile t).tick (x.task.kind == kMeter))

/-- A post of a barrier in a tick (R238). -/
def postBarrier (s : State) (tick b : Nat) : State :=
  if b = 0 then s
  else
    let posts := if s.lat.postTick = tick then s.lat.posts else []
    { s with lat := { s.lat with postTick := tick, posts := posts.put b (posts.get 0 b + 1) } }

-- Outputs.

/-- A block lands in a slot of a tile; an Indigo partial sum fills two (R234). -/
def landBlock (s : State) (t slot : Nat) (b : Blk) (two : Bool) : State :=
  s.setTile t (fun x =>
    let st := x.store.put slot b
    { x with store := if two then st.put (slot + 1) b else st })

/-- The slots that one output of a task takes. -/
def outWidth (s : State) (t i : Nat) : Nat :=
  let x := s.taskAt t i
  if x.task.kind = kMatrix ∧ x.task.domain = 2 ∧ (rw0 x.copy 0).getLsbD 30 then 2 else 1

/-- The task is the last of its strip's chain (R261): the strip's number, plus 1,024 for an input strip. -/
def chainEnd (s : State) (a : Nat × Nat) : Option Nat :=
  let k := (s.taskAt a.1 a.2).task
  let any := fun (f : Task → Bool) => s.allTasks.any (fun b => f (s.taskAt b.1 b.2).task)
  let dyn := any (fun x => x.kind == kDyn && x.side && x.object == k.object)
  let fir := any (fun x => x.kind == kFir && x.object == k.object)
  if k.kind = kOutstrip then (if dyn || fir then none else some k.object)
  else if k.kind = kFir then (if dyn then none else some k.object)
  else if k.kind = kDyn then (if k.side then some k.object else some (1024 + k.object))
  else if k.kind = kInstrip then
    (if any (fun x => x.kind == kDyn && !x.side && x.object == k.object) then none else some (1024 + k.object))
  else none

/-- A task's outputs are posted: to its own slots, over the ring, and as a strip's output (R236, R238). A rerun's results
replace those of the run before at once, copies still on the ring with them (R217). -/
def postOutputs (s : State) (t i : Nat) (outs : List (List Int)) (absent direct : Bool) : State :=
  let x := s.taskAt t i
  let w := outWidth s t i
  let tick := (s.tile t).tick
  let n := x.task.outCount / w
  let s := (List.range n).foldl (fun s j =>
    let b : Blk := { tick := tick, absent := absent, st := .ivory, data := nth [] outs j, src := some (t, i) }
    let slot := x.task.outSlot + j * w
    let s := landBlock s t slot b (w = 2)
    (List.range 48).foldl (fun s d =>
      if d ≠ t ∧ x.task.ring.testBit d then
        if direct then
          landBlock (s.setTile d (fun y => { y with ring := y.ring.filter (fun e => !(e.1 == slot && e.2.src == some (t, i))) }))
            d slot b (w = 2)
        else s.setTile d (fun y => { y with ring := y.ring ++ [(slot, b)] })
      else s) s) s
  match chainEnd s (t, i) with
  | some k =>
    let b : Blk := { tick := tick, absent := absent, st := .ivory, data := nth [] outs 0, src := some (t, i) }
    { s with lat := { s.lat with outs := s.lat.outs.put k b } }
  | none => s

/-- RING_DELIVERY: the oldest block on the ring to a tile lands in its slot (R235, R236). -/
def ringLand (s : State) (t : Nat) : State :=
  match (s.tile t).ring with
  | [] => s
  | (slot, b) :: rest =>
    let two := match b.src with | some a => outWidth s a.1 a.2 = 2 | none => false
    landBlock (s.setTile t (fun x => { x with ring := rest })) t slot b two

-- The state of a task as it lies in memory (Tables 9.11 and 12.3).

/-- A number of 64 bits as two words. -/
def wordPair (v : Int) : List Word := let n := toBits 64 v; [w32 (n % 2 ^ 32), w32 (n / 2 ^ 32)]

/-- The first n of some numbers as words, 0 beyond their end. -/
def wordsOf (n : Nat) (l : List Int) : List Word := (List.range n).map (fun i => w32 (toBits 32 (at0 l i)))

/-- The words of a task's state, in the order of Table 9.11 or Table 12.3 (DEDUCED, log 47). -/
def stateWords (k : Task) (w : List Int) : List Word :=
  match k.kind with
  | 1 => wordsOf 50 w
  | 2 => wordPair (at0 w 0) ++ wordPair (at0 w 1) ++ wordsOf (2 * k.arg) (w.drop 2)
  | 3 => wordsOf 66 w
  | 4 => wordsOf 2 w
  | 5 => wordsOf (bridgeLen k.factor - 1) w
  | 6 => wordsOf 20 w
  | 7 => meterWords w ++ [0]
  | _ => wordsOf 192 (w.drop 8) ++ (w.take 8 ++ List.replicate (8 - w.length) 0).flatMap wordPair ++ wordsOf 2 [at0 w 8, 0]

/-- The state that words in B2 spell, as `stateWords` writes it. -/
def loadWords (k : Task) (ws : List Word) : List Int :=
  let sg := fun i n => (List.range n).map (fun j => (rw0 ws (i + j)).toInt)
  let pair := fun i => ofBits 64 ((rw0 ws i).toNat + (rw0 ws (i + 1)).toNat * 2 ^ 32)
  match k.kind with
  | 1 => sg 0 50
  | 2 => [pair 0, pair 2] ++ sg 4 (2 * k.arg)
  | 3 => sg 0 66
  | 4 => sg 0 2
  | 5 => sg 0 (bridgeLen k.factor - 1)
  | 6 => sg 0 19
  | 7 => meterLoad ws
  | _ => (List.range 8).map (fun j => pair (192 + 2 * j)) ++ sg 0 192

/-- A task whose state lies in B2 takes it from there, as checkpoint and working state (STATE_LOC, Table 8.4). -/
def loadState (s : State) (t i : Nat) : State :=
  let k := (s.taskAt t i).task
  if k.stateB2 then
    let n := (stateWords k []).length
    let s := eccReads s (inWords (bankBase 2 + k.stateOfs) n)
    let w := loadWords k (s.memWords (bankBase 2 + k.stateOfs) n)
    s.setTask t i (fun y => { y with work := w, ckpt := w })
  else s

/-- The state of a task is its numbers; one that lies in B2 is written there (STATE_LOC, Table 8.4). -/
def keepState (s : State) (t i : Nat) (w : List Int) : State :=
  let s := s.setTask t i (fun y => { y with work := w })
  let k := (s.taskAt t i).task
  if k.stateB2 then s.setMemWords (bankBase 2 + k.stateOfs) (stateWords k w) else s

/-- Base and length, in words of B0, of a task's delay or history ring, and the write pointer from which its runs of the
tick start (R270, R276, R292). -/
def ringOf (x : TaskSt) : Nat × Nat × Nat :=
  let r := fun i j => ((rw0 x.copy i).toNat, (rw0 x.copy (i + 1)).toNat, (at0 x.pre j).toNat)
  match x.task.kind with
  | 1 => r 2 48
  | 4 => r 1 0
  | 6 => if x.task.side then r 6 17 else (0, 0, 0)
  | _ => (0, 0, 0)

/-- The words of the ring that a run of the tick writes over, by address: what a second run starts from (R213, R217). -/
def rimOf (s : State) (x : TaskSt) : List (Nat × Word) :=
  let (base, len, w) := ringOf x
  (List.range (min len (samplesOf x.task.domain))).map (fun j =>
    let a := 4 * (base + (w + j) % len)
    (a, s.memWord a))

/-- The words kept of a ring go back. -/
def rimBack (s : State) (x : TaskSt) : State := x.rim.foldl (fun s e => s.setMemWord e.1 e.2) s

-- Records (R263 to R265).

/-- Words of a task's record. -/
def recWords (k : Task) : Nat :=
  match k.kind with
  | 1 => 72 | 2 => 8 | 3 => 88 | 4 => 8 + (k.arg % 2 ^ 15 + 7) / 8 * 8 | 6 => 16 | 7 => 8
  | 5 => if k.custom then 8 + (bridgeLen k.factor + 7) / 8 * 8 else 0
  | _ => 0

/-- Byte address in B1. -/
def b1At (ofs : Nat) : Nat := bankBase 1 + ofs

/-- The entries of a list of a slice: offset and count from the header (Table 9.7); ACTIVE names the list. -/
def listOfs (h : List Word) (l : Nat) : Nat := getBits (rw0 h (1 + 2 * l)) 22 0
def listCount (h : List Word) (l : Nat) : Nat := getBits (rw0 h (2 + 2 * l)) 15 0

/-- Why a list of a slice fails R285: 0 none; 2 COUNT; 3 LIST_OFS; 4 ENTRY. -/
def listCause (s : State) (k : Task) (h : List Word) (l : Nat) : Nat :=
  let ofs := listOfs h l
  let n := listCount h l
  let w := if k.domain = 2 then 2 else 1
  if ofs % 8 ≠ 0 ∨ bankSize 1 < ofs + 8 * n then 3
  else if k.arg < n then 2
  else if (pairsOf (s.memWords (b1At ofs) (2 * n))).all
      (entryOk (audioInputs h k.inCount w) (getBits (rw0 h 0) 11 0)) then 0
  else 4

/-- The load port reads a list of a slice (R285, R393). -/
def listRead (s : State) (h : List Word) (l : Nat) : State := eccReads s (inWords (b1At (listOfs h l)) (2 * listCount h l))

/-- The range check of a record read for a task (R263, R280). -/
def recordOk (s : State) (t i : Nat) (r : List Word) : Bool :=
  let x := s.taskAt t i
  let k := x.task
  match k.kind with
  | 1 => instripOk r k.domain
  | 2 =>
    let w0 := rw0 r 0
    let ps := w0.getLsbD 30
    let buses := getBits w0 11 0
    getBits w0 29 28 == 0 && getBits w0 23 12 == 0 && decide (1 ≤ buses)
      && decide (buses ≤ (if ps && k.domain == 2 then k.outCount / 2 else k.outCount))
      && ps == s.lat.psOut.get false (t * 1024 + i)
      && listCause s k r (at0 x.work 0).toNat == 0
  | 3 => outstripOk r
  | 4 => firOk r (k.arg % 2 ^ 15)
  | 5 => bridgeOk r k.factor
  | 6 => dynOk r k.domain k.side
  | 7 => meterOk r
  | _ => true

/-- The write that cleared a record's WRITE_PENDING came after the boundary that began the tick (R263): in a later tick
of the device, or in this one and after the unit's boundary. -/
def clearedLate (s : State) (ofs tick bit : Nat) : Bool :=
  match s.lat.cleared.find ofs with
  | some e => decide (tick < e.1) || (tick == e.1 && e.2.getLsbD bit)
  | none => false

/-- The tile takes the copy for the tick at a task's first start in it (R263, R265). -/
def takeCopy (s : State) (t i : Nat) : State :=
  let x := s.taskAt t i
  let tick := (s.tile t).tick
  let n := recWords x.task
  if n = 0 ∨ x.taken = some tick then s
  else
    let s := eccReads (s.setTask t i (fun x => { x with taken := some tick })) (inWords (b1At x.task.paramOfs) n)
    let r := s.memWords (b1At x.task.paramOfs) n
    let s := if x.task.kind = kMatrix then listRead s r (at0 x.work 0).toNat else s
    if (rw0 r 0).getLsbD 31 || clearedLate s x.task.paramOfs tick t then s
    else if recordOk s t i r then
      let act := (at0 x.work 0).toNat
      let list := if x.task.kind = kMatrix then s.memWords (b1At (listOfs r act)) (2 * listCount r act) else []
      s.setTask t i (fun x => { x with copy := r ++ list, raised := false })
    else if x.raised then s
    else raise (s.setTask t i (fun x => { x with raised := true })) (pgTile t) 2 (w32 x.task.paramOfs)

-- Route transactions (R284 to R288).

/-- COMMIT_TICK of a slice header. -/
def commitTickOf (h : List Word) : Nat := getBits (rw0 h 6) 15 0 * 2 ^ 32 + (rw0 h 5).toNat

/-- The tile writes STATUS (Table 9.9). -/
def putStatus (s : State) (k : Task) (active st cause tick : Nat) : State :=
  s.setMemWord (b1At (k.paramOfs + 28)) (w32 (active * 2 ^ 31 + st * 2 ^ 28 + cause * 2 ^ 24 + tick % 65536))

/-- Glide states of a new list: the k-th entry with a SRC and DST takes that of the k-th such entry of the old list
(R286). -/
def carryGlides : List (Word × Word) → List ((Nat × Nat) × Int × Int) → List Int
  | [], _ => []
  | e :: es, old =>
    let key := (getBits e.1 31 20, getBits e.1 19 8)
    match old.find? (fun o => o.1 == key) with
    | some o => o.2.1 :: o.2.2 :: carryGlides es (old.erase o)
    | none => 0 :: 0 :: carryGlides es old

/-- The glide states of the entries of a list. -/
def glidesOf (list : List (Word × Word)) (work : List Int) : List ((Nat × Nat) × Int × Int) :=
  (list.zipIdx).map (fun e =>
    ((getBits e.1.1 31 20, getBits e.1.1 19 8), at0 work (2 + 2 * e.2), at0 work (3 + 2 * e.2)))

/-- A slice's route transaction at its first start in a tick (R285 to R287). -/
def routeStart (s : State) (t i : Nat) : State :=
  let x := s.taskAt t i
  let k := x.task
  let tick := (s.tile t).tick
  let h := x.copy.take 8
  let act := (at0 x.work 0).toNat
  let last := (at0 x.work 1).toNat
  let ct := commitTickOf h
  let arm := (rw0 h 6).getLsbD 31
  let setLast := fun (v : Nat) (y : TaskSt) =>
    { y with pre := [at0 y.pre 0, (v : Int)] ++ y.pre.drop 2, waiting := none }
  let fail := fun (s : State) cause =>
    let s := s.setTask t i (setLast ct)
    let s := putStatus s k act 3 cause ct
    raise s (pgTile t) 3 (w32 k.paramOfs)
  let commit := fun (s : State) =>
    let inact := 1 - act
    let s := listRead s h inact
    let c := listCause s k h inact
    if c ≠ 0 then fail s c
    else
      let new_ := s.memWords (b1At (listOfs h inact)) (2 * listCount h inact)
      let g := carryGlides (pairsOf new_) (glidesOf (pairsOf (x.copy.drop 8)) x.work)
      let s := s.setTask t i (fun y =>
        { y with pre := [(inact : Int), (ct : Int)] ++ g, alt := some new_, waiting := none })
      putStatus s k inact 2 0 ct
  if !arm then
    match x.waiting with
    | some w => putStatus (s.setTask t i (setLast w)) k act 4 0 w
    | none => s
  else if ct ≤ last then s
  else if x.waiting = some ct then (if ct ≤ tick then commit s else s)
  else if ct < tick then fail s 1
  else
    let s := if ct = tick then s else listRead s h (1 - act)
    let c := listCause s k h (1 - act)
    if c ≠ 0 then fail s c
    else if ct = tick then commit s
    else putStatus (s.setTask t i (fun y => { y with waiting := some ct })) k act 1 0 ct

-- What a task computes.

/-- INSTRIP on one block (R267 to R270): memory 48 numbers, W, F. -/
def runInstrip (s : State) (r : List Word) (pre x : List Int) : List Int × List Int × State :=
  let g := if (rw0 r 0).getLsbD 29 then 0 else signedGain ((rw0 r 0).getLsbD 30) (rw0 r 1)
  let en := getBits (rw0 r 0) 11 0
  let (y, m) := mapState (fun mem u => bqChain r 8 12 en mem (sat32 (rne (u * g) 28))) (pre.take 48) x
  let (z, d) := mapState (delaySample (rw0 r 2).toNat (rw0 r 3).toNat (rw0 r 4).toNat)
    (s, (at0 pre 48).toNat, (at0 pre 49).toNat) y
  (z, m ++ [(d.2.1 : Int), (d.2.2 : Int)], d.1)

/-- OUTSTRIP on one block (R272 to R274): CUR, REM, then 64 numbers. -/
def runOutstrip (r : List Word) (n : Nat) (pre x : List Int) : List Int × List Int :=
  let tgt := if (rw0 r 0).getLsbD 29 then 0 else signedGain ((rw0 r 0).getLsbD 30) (rw0 r 1)
  let gl := getBits (rw0 r 0) 22 16
  let en := getBits (rw0 r 0) 15 0
  let (y, g) := mapState (fun (m : Int × Nat) u =>
    let m := glideStep gl n tgt m
    (sat32 (rne (u * m.1) 28), m)) (at0 pre 0, (at0 pre 1).toNat) x
  let (z, mem) := mapState (bqChain r 8 16 en) (pre.drop 2) y
  (z, [g.1, (g.2 : Int)] ++ mem)

/-- DYN on one block (R276, R279): envelope, 16 samples, W, F. -/
def runDyn (s : State) (r : List Word) (out : Bool) (pre x : List Int) : List Int × List Int × State :=
  let (y, m) := if r.isEmpty then (x, (at0 pre 0, ((x.reverse ++ (pre.drop 1).take 16)).take 16))
    else mapState (dynSample r) (at0 pre 0, (pre.drop 1).take 16) x
  let pad := fun (l : List Int) => l ++ List.replicate (16 - l.length) 0
  if out then
    let (z, d) := mapState (delaySample (rw0 r 6).toNat (rw0 r 7).toNat (rw0 r 8).toNat)
      (s, (at0 pre 17).toNat, (at0 pre 18).toNat) y
    (z, m.1 :: pad m.2 ++ [(d.2.1 : Int), (d.2.2 : Int)], d.1)
  else (y, m.1 :: pad m.2 ++ [0, 0], s)

/-- One sample of a FIR (R292). -/
def firSample (r : List Word) (taps : Nat) (m : State × Nat × Nat) (x : Int) : Int × (State × Nat × Nat) :=
  let (s, w, f) := m
  let base := (rw0 r 1).toNat
  let len := (rw0 r 2).toNat
  if len = 0 then (0, m)
  else
    let s := s.setMemWord (4 * (base + w)) (w32 (toBits 32 x))
    let f := min (f + 1) len
    let at_ := fun k => 4 * (base + (w + len - k) % len)
    let s := eccReads s (fun a => (List.range (min taps f)).any (fun k => at_ k == a))
    let prods := (List.range (min taps f)).map (fun k => (rw0 r (8 + k)).toInt * (s.memWord (at_ k)).toInt)
    (sat32 (rne (accSum prods) 31), (s, (w + 1) % len, f))

/-- One sample of a slice: the sums of its buses and the glides of its entries (R282). -/
def sliceSample (n : Nat) (list : List (Word × Word)) (x : Nat → Int) (accs : List Int) (g : List Int) :
    List Int × List Int :=
  (list.zipIdx).foldl (fun (a : List Int × List Int) e =>
    let tgt := signedGain (e.1.1.getLsbD 7) e.1.2
    let m := glideStep (getBits e.1.1 6 0) n tgt (at0 g (2 * e.2), (at0 g (2 * e.2 + 1)).toNat)
    let d := getBits e.1.1 19 8
    (putAt a.1 d (satInt 72 (at0 a.1 d + x (getBits e.1.1 31 20) * m.1)), a.2 ++ [m.1, (m.2 : Int)])) (accs, [])

/-- A slice on one tick: for each bus its block, and the state (R280, R282). -/
def runSlice (k : Task) (h : List Word) (list : List (Word × Word)) (pre : List Int) (ins : List Blk) :
    List (List Int) × List Int :=
  let n := samplesOf k.domain
  let w := if k.domain = 2 then 2 else 1
  let buses := getBits (rw0 h 0) 11 0
  let psIn := getBits (rw0 h 0) 27 24
  let a := audioInputs h k.inCount w
  let smp := fun slot j => at0 (nth ({} : Blk) ins slot).data j
  let r := (List.range n).foldl (fun (st : List (List Int) × List Int) j =>
    let accs := (List.range buses).map (fun b =>
      accSum ((List.range psIn).map (fun p => smp (a + (p * buses + b) * w) j)))
    let q := sliceSample n list (fun src => smp src j) accs st.2
    (st.1 ++ [q.1], q.2)) ([], pre.drop 2)
  let fin := fun v => if (rw0 h 0).getLsbD 30 then v else sat32 (rne v 28)
  ((List.range buses).map (fun b => r.1.map (fun accs => fin (at0 accs b))), [at0 pre 0, at0 pre 1] ++ r.2)

/-- A bridge on one tick (R252 to R254). -/
def runBridge (k : Task) (r : List Word) (pre x : List Int) : List Int × List Int :=
  let m := k.factor
  let c := if k.custom then (List.range (bridgeLen m)).map (fun i => (rw0 r (8 + i)).toInt)
    else bridgeCoefs k.interp m
  if k.interp then interpBlock c m pre x else decimBlock c m 0 pre x

/-- A task's outputs, its state and the device after a run from the state `pre` on the blocks given. -/
def runTask (s : State) (t i : Nat) (ins : List Blk) : List (List Int) × List Int × State :=
  let x := s.taskAt t i
  let k := x.task
  let d := (nth ({} : Blk) ins 0).data
  match k.kind with
  | 1 => let (y, w, s) := runInstrip s x.copy x.pre d; ([y], w, s)
  | 2 =>
    let list := match x.alt with | some l => pairsOf l | none => pairsOf (x.copy.drop 8)
    if x.copy.isEmpty then
      (List.replicate k.outCount (List.replicate (samplesOf k.domain) 0), x.pre, s)
    else
      let (ys, w) := runSlice k (x.copy.take 8) list x.pre ins
      (ys ++ List.replicate (k.outCount - ys.length) (List.replicate (samplesOf k.domain) 0), w, s)
  | 3 => let (y, w) := runOutstrip x.copy (samplesOf k.domain) x.pre d; ([y], w, s)
  | 4 =>
    let (y, m) := mapState (firSample x.copy (k.arg % 2 ^ 15)) (s, (at0 x.pre 0).toNat, (at0 x.pre 1).toNat) d
    ([y], [(m.2.1 : Int), (m.2.2 : Int)], m.1)
  | 5 => let (y, w) := runBridge k x.copy x.pre d; ([y], w, s)
  | 6 => let (y, w, s) := runDyn s x.copy k.side x.pre d; ([y], w, s)
  | 7 => ([], meterStep x.copy x.pre d, s)
  | _ => ([concealment 0 k.domain x.pre], x.pre, s)

/-- Base and length of the delay or history ring in a copy of a task's record; none in the null record. -/
def ringGeo (k : Task) (r : List Word) : List Word :=
  if r.isEmpty then []
  else
    match k.kind with
    | 1 => [rw0 r 2, rw0 r 3]
    | 4 => [rw0 r 1, rw0 r 2]
    | 6 => if k.side then [rw0 r 6, rw0 r 7] else []
    | _ => []

/-- The state from which a tick's runs of a task start: a delay or history ring of another base or length than the one to
which the state belongs restarts empty (R270, R292). -/
def preOf (k : Task) (geo : List Word) (r : List Word) (work : List Int) : List Int :=
  if geo.isEmpty || geo == ringGeo k r then work
  else
    match k.kind with
    | 1 => work.take 48 ++ [0, 0]
    | 4 => [0, 0]
    | 6 => work.take 17 ++ [0, 0]
    | _ => work

-- The tick on a tile.

/-- TASK_START: the sequencer of a tile starts its first ready task; one with an absent input is skipped (R237, R238,
R253, R263). -/
def taskBegin (s : State) (t : Nat) : State :=
  let x := s.tile t
  if !tileRuns s t || !x.begun || x.cur.isSome || memStalled s then s
  else
    match (List.range x.tasks.length).find? (taskReady s t) with
    | none => s
    | some i =>
      let ins := (inputsOf s t i).getD []
      let k := (s.taskAt t i).task
      if ins.any (·.absent) then
        let s := s.setTask t i (fun y => { y with phase := .skipped })
        postBarrier (postOutputs s t i [] true false) x.tick k.postBar
      else
        let s := loadState s t i
        let s := takeCopy (s.setTask t i (fun y => { y with copyOld := y.copy })) t i
        let s := s.setTask t i (fun y =>
          { y with phase := .running, pre := preOf k y.geo y.copy y.ckpt, alt := none, rim := [], ins := ins })
        let s := if k.kind = kMatrix then routeStart s t i else s
        s.setTile t (fun y => { y with cur := some i })

/-- Reads of a tile's local memory by a task meet an error at a byte of it (R233): a corrected one is Amber; an
uncorrectable one is Crimson and resets the tile (Tables 8.8, 17.1). -/
def tileEcc (s : State) (t : Nat) (x : TileErr) : State :=
  let p := pgTile t
  let ctx := w32 x.ofs.toNat
  if x.uncorr then
    let s := s.bump p F.tileEccUncorr
    raiseSev { s with red := { s.red with eccUncorr := satAdd 16 s.red.eccUncorr 1 } } p F.tileFltEccUncorr.lo ctx true reactBlock
  else
    let s := s.bump p F.tileEccCorr
    raise { s with red := { s.red with eccCorr := satAdd 16 s.red.eccCorr 1 } } p F.tileFltEccCorr.lo ctx

/-- The running task of a tile writes its outputs, computed from the blocks it took at its start, and posts its barrier
(R226, R238, R240). -/
def taskDone (s : State) (t i cycles : Nat) : State :=
  let k := (s.taskAt t i).task
  let rim := rimOf s (s.taskAt t i)
  let (ys, w, s) := runTask s t i (s.taskAt t i).ins
  let s := keepState s t i w
  let s := s.setTask t i (fun y =>
    { y with phase := .finished, rim := rim, ins := [], copy := match y.alt with | some l => y.copy.take 8 ++ l | none => y.copy })
  let s := s.setTile t (fun y => { y with cur := none })
  let s := postOutputs s t i ys false false
  let s := if k.budget < cycles then s.bump (pgTile t) F.tileOverbudgetCount else s
  (postBarrier s (s.tile t).tick k.postBar).signal (pgTile t)

/-- TASK_FINISH: the running task of a tile finishes, unless it met an uncorrectable error (R233, R238, R257). -/
def taskEnd (s : State) (t : Nat) (r : TaskRun) : State :=
  match (s.tile t).cur with
  | none => s
  | some i =>
    if !tileRuns s t || memStalled s then s
    else
      match r.ecc with
      | some x => if x.uncorr then tileEcc s t x else taskDone (tileEcc s t x) t i r.cycles
      | none => taskDone s t i r.cycles

/-- A task has not finished as its tick ends: its state is as if it had not run, its ring included (R241). A route
transaction that it committed waits again, and commits when the task next runs (R286). -/
def taskUndone (s : State) (t i : Nat) : State :=
  let x := s.taskAt t i
  if x.phase = .waiting then s
  else
    let s := keepState (rimBack s x) t i x.ckpt
    let again := if x.alt.isSome then some (at0 x.pre 1).toNat else if x.waiting.isSome then x.waiting else x.waitCkpt
    s.setTask t i (fun y => { y with waiting := again })

/-- The task that a replacement by an absent block leaves without an input is as one that was skipped: it keeps C(N) and
its copy, and posts absent outputs (R217, R220, R237). -/
def taskSkipped (s : State) (t i : Nat) : State :=
  let cur := (s.taskAt t i).phase == .running
  let s := (taskUndone s t i).setTask t i (fun y => { y with phase := .skipped, copy := y.copyOld, alt := none, rim := [], ins := [] })
  let s := postOutputs s t i [] true true
  if cur then postBarrier (s.setTile t (fun y => { y with cur := none })) (s.tile t).tick (s.taskAt t i).task.postBar else s

/-- A rerun of one task that has started: from the state its run of the tick started from, ring included, with the data
now present (R217). One still in its first run goes on with them. -/
def rerunTask (s : State) (a : Nat × Nat) : State :=
  let p := (s.taskAt a.1 a.2).phase
  match inputsOf s a.1 a.2 with
  | none => s
  | some ins =>
    if p != .finished && p != .running then s
    else if ins.any (·.absent) then taskSkipped s a.1 a.2
    else if p = .running then s.setTask a.1 a.2 (fun y => { y with ins := ins })
    else
      let (ys, w, s) := runTask (rimBack s (s.taskAt a.1 a.2)) a.1 a.2 ins
      postOutputs (keepState s a.1 a.2 w) a.1 a.2 ys false true

/-- The tasks of a rerun, each after those that feed it. -/
def rerunTasks (s : State) : Nat → List (Nat × Nat) → State
  | 0, _ => s
  | n + 1, l =>
    match l.find? (fun b => !l.any (fun a => a != b && feeds s a b)) with
    | none => s
    | some b => rerunTasks (rerunTask s b) n (l.erase b)

/-- The committed output blocks of a tick of the strips whose chain ends on a tile go to the history (R204). -/
def commitOuts (s : State) (t tick : Nat) : State :=
  (List.range (s.tile t).tasks.length).foldl (fun s i =>
    match chainEnd s (t, i) with
    | none => s
    | some k =>
      let done := (s.taskAt t i).phase == .finished
      let b := match s.lat.outs.find k with
        | some b => if done && b.tick == tick && !b.absent && nodeState s tick (t, i) == .ivory
            then ({ tick := tick, data := b.data } : OutBlk) else { tick := tick, absent := true }
        | none => { tick := tick, absent := true }
      { s with lat := { s.lat with past := s.lat.past.put k ((b :: s.lat.past.get [] k).take 26) } }) s

/-- The tick of a tile ends and the next begins: overrun, commit, checkpoints (R204, R213, R241). -/
def tileClose (s : State) (t n : Nat) : State :=
  let x := s.tile t
  if n ≤ x.tick && x.begun then s
  else
    let m := x.tick
    let idx := List.range x.tasks.length
    let ran := x.begun && tileRuns s t
    let open_ := idx.filter (fun i =>
      let p := (s.taskAt t i).phase
      p == .waiting || p == .running || s.strm.reruns.any (fun r => r.tick == m && r.tasks.contains (t, i)))
    let s := if x.begun then commitOuts s t m else s
    let s := if ran then s.setF (pgTile t) F.tileTasksDone (idx.length - open_.length) else s
    let (v, s) := s.fresh
    let s := if !ran then s
      else if open_.isEmpty then
        let c := v.toNat % 50000
        (s.setF (pgTile t) F.tileCycLastCycles c).setF (pgTile t) F.tileCycMaxCycles (max c (s.rd (pgTile t) F.tileCycMaxCycles))
      else
        let s := (s.setF (pgTile t) F.tileCycLastCycles 0xFFFF).setF (pgTile t) F.tileCycMaxCycles 0xFFFF
        let s := raise s (pgTile t) F.tileFltOverrun.lo (w32 (open_.headD 0))
        if s.lat.overrunTick = some m then s
        else
          let s := { s with lat := { s.lat with overrunTick := some m } }
          eventF (s.bump pgLatg F.latgCntOverrunCount) pgLatg F.latgEvtOverrun
    let s := if ran then
        let (r, s) := s.fresh
        (s.setF (pgTile t) F.tileRerunCount (min 65535 x.reruns)).setF (pgTile t) F.tileRerunCycles
          (if x.reruns = 0 then 0 else r.toNat % 50000)
      else s
    let s := if x.begun then open_.foldl (taskUndone · t ·) s else s
    s.setTile t (fun y => { y with
      tick := n, begun := tileRuns s t && !s.actIs (pgTile t) F.ctrlDrain, cur := none, reruns := 0, ring := [],
      tasks := (y.tasks.zipIdx).map (fun e => { e.1 with
        ckpt := e.1.work, waitCkpt := e.1.waiting, phase := .waiting, alt := none, rim := [], ins := [],
        geo := if e.1.phase == .finished && !open_.contains e.2 then ringGeo e.1.task e.1.copy else e.1.geo }) })

/-- A tile stops in the tick in progress: what has not finished is undone, and its list is not begun (R51, R241). -/
def tileHalt (s : State) (t : Nat) : State :=
  let x := s.tile t
  if !x.begun then s
  else
    let open_ := (List.range x.tasks.length).filter (fun i =>
      (s.taskAt t i).phase == .running || s.strm.reruns.any (fun r => r.tick == x.tick && r.tasks.contains (t, i)))
    (open_.foldl (taskUndone · t ·) s).setTile t (fun y => { y with begun := false, cur := none, ring := [] })

-- Committed blocks for the consumers (R204, Table 7.2).

/-- LATG stops or is reset: no tile runs, and every output that has not committed is absent (R16, R256). -/
def latgHalt (s : State) : State :=
  let s := (s.lat.tiles.map (·.1)).foldl tileHalt s
  let gone := fun (b : OutBlk) => if s.lat.open_ ≤ b.tick then { b with absent := true, data := [] } else b
  { s with lat := { s.lat with outs := [], past := s.lat.past.map (fun e => (e.1, e.2.map gone)) } }

/-- The committed output block of a tick: none where it is absent. The number is that of an output strip, or 1,024 and
an input strip's. -/
def committedOut (s : State) (k tick : Nat) : Option (List Int) :=
  match (s.lat.past.get [] k).find? (fun b => b.tick == tick) with
  | some b => if b.absent then none else some b.data
  | none =>
    match s.lat.outs.find k with
    | some b =>
      match b.src with
      | some a => if b.tick = tick ∧ !b.absent ∧ nodeState s tick a = .ivory then some b.data else none
      | none => none
    | none => none

/-- The domain of a strip of the active image: by its OUTSTRIP or, from 1,024, its INSTRIP. -/
def stripDomain (s : State) (k : Nat) : Option Nat :=
  (s.allTasks.find? (fun a =>
    let x := (s.taskAt a.1 a.2).task
    if k < 1024 then x.kind == kOutstrip && x.object == k
    else x.kind == kInstrip && x.object + 1024 == k)).map (fun a => (s.taskAt a.1 a.2).task.domain)

-- Concealment (R208).

/-- The CONCEAL task of an input strip. -/
def concealAt (s : State) (strip : Nat) : Option (Nat × Nat) :=
  s.allTasks.find? (fun a => (s.taskAt a.1 a.2).task.kind == kConceal && (s.taskAt a.1 a.2).task.object == strip)

/-- The CONCEAL task of an input strip on a tile that runs. -/
def concealTask (s : State) (strip : Nat) : Option (Nat × Nat) :=
  (concealAt s strip).filter (fun a => tileRuns s a.1)

/-- The concealment of a block of a strip in a mode; none where no CONCEAL task gives one. -/
def concealOf (s : State) (strip mode : Nat) : Option (List Int) :=
  (concealTask s strip).map (fun a =>
    concealment mode (s.taskAt a.1 a.2).task.domain ((loadState s a.1 a.2).taskAt a.1 a.2).work)

/-- A block of a strip commits: its CONCEAL task's history takes it. -/
def concealNote (s : State) (strip tick : Nat) (data : List Int) : State :=
  match concealTask s strip with
  | some a =>
    let y := (loadState s a.1 a.2).taskAt a.1 a.2
    let w := concealCommit y.task.domain tick y.work data
    keepState (s.setTask a.1 a.2 (fun y => { y with ckpt := w, pre := w })) a.1 a.2 w
  | none => s

/-- The committed history of a strip resets to zero, whether its tile runs or not (R208). -/
def concealClear (s : State) (strip : Nat) : State :=
  match concealAt s strip with
  | some a => keepState (s.setTask a.1 a.2 (fun y => { y with ckpt := [], pre := [] })) a.1 a.2 []
  | none => s

end Sys2Proof.Machine
end

