-- ==== Sys2Proof/Machine/Image.lean ====
section
/-! DEFINITION. Schedule images: reading, checking, staging and swapping them (08). -/

namespace Sys2Proof.Machine

/-- A tile's entry of the directory (Table 8.3), with its list as words. -/
structure TileDir where
  listOfs : Nat := 0
  planned : Nat := 0
  tasks   : Nat := 0
  slots   : Nat := 0
  bytes   : Nat := 0
  descs   : List (List Word) := []
  deriving DecidableEq, Repr

/-- A word of the image at a B1 offset. -/
def imgWord (s : State) (base ofs : Nat) : Word := s.memWord (b1At (base + ofs))

/-- The descriptor that eight words spell (Table 8.4). -/
def taskOf (w : List Word) : Task :=
  let f := fun i hi lo => getBits (rw0 w i) hi lo
  { kind := f 0 31 28, domain := f 0 27 26, waitBar := f 0 23 16, postBar := f 0 15 8, budget := f 1 31 16,
    side := (rw0 w 1).getLsbD 10, object := f 1 9 0, paramOfs := f 2 22 0, stateB2 := (rw0 w 3).getLsbD 31,
    stateOfs := f 3 21 0, inSlot := f 4 27 16, inCount := f 4 11 0, outSlot := f 5 27 16, outCount := f 5 11 0,
    ring := (rw0 w 6).toNat + f 7 15 0 * 2 ^ 32, arg := f 7 31 16 }

/-- The directory entry of a tile; `full` reads its list too. -/
def tileDir (s : State) (base t : Nat) (full : Bool) : TileDir :=
  let w := fun i => imgWord s base (0x40 + 16 * t + 4 * i)
  let n := getBits (w 1) 10 0
  let o := (w 0).toNat
  { listOfs := o, planned := getBits (w 1) 31 16, tasks := n, slots := getBits (w 2) 12 0, bytes := getBits (w 3) 17 0,
    descs := if full then (List.range n).map (fun i => s.memWords (b1At (base + o + 32 * i)) 8) else [] }

/-- The barrier table of an image (R242). -/
def barTable (s : State) (base : Nat) : List Nat :=
  (List.range 256).map (fun b => (Memory.read s.mem (b1At (base + 0x340 + b))).toNat)

/-- Bytes of state of a task (Table 9.11, Table 12.3). -/
def stateBytes (k : Task) : Nat :=
  match k.kind with
  | 1 => 200 | 2 => 16 + 8 * k.arg | 3 => 264 | 4 => 8 | 5 => if k.factor = 2 then 88 else 184
  | 6 => 80 | 7 => 224 | 8 => 840 | _ => 0

/-- Bits of KIND_ARG that a kind names (Table 8.5). -/
def argMask (kind : Nat) : Word :=
  match kind with
  | 2 => 0xFFFF | 4 => 0x7FFF | 5 => 0xE000 | _ => 0

/-- The TASK condition of Table 8.6 fails for a descriptor. -/
def badTask (w : List Word) : Bool :=
  let k := taskOf w
  let res := [(0, 0x030000FF), (1, 0x0000F800), (2, 0xFF800000), (3, 0x7FC00000), (4, 0xF000F000), (5, 0xF000F000)]
  res.any (fun e => (rw0 w e.1 &&& (e.2 : Word)) != 0)
    || k.kind == 0 || decide (8 < k.kind) || k.domain == 3
    || (w32 k.arg &&& ~~~ argMask k.kind) != 0
    || (k.side && k.kind != kDyn && k.kind != kMeter)
    || k.budget == 0 || decide (37484 < k.budget) || k.paramOfs % 32 != 0
    || (k.kind == kFir && (k.arg == 0 || decide (16384 < k.arg)))
    || (k.kind == kBridge && (k.domain == 0 || (k.domain == 1 && k.factor == 4)))

/-- Every task of an image with its tile and list index, in tile and then list order. -/
def imgTasks (dirs : List TileDir) : List ((Nat × Nat) × Task) :=
  (dirs.zipIdx).flatMap (fun d => (d.1.descs.zipIdx).map (fun e => ((d.2, e.2), taskOf e.1)))

-- The ring (R235, R236, R246).

/-- The domain of the blocks a task posts: a decimating bridge posts at its low-rate side (R244). -/
def outDomain (k : Task) : Nat :=
  if k.kind = kBridge ∧ !k.interp then k.domain - (if k.factor = 2 then 1 else 2) else k.domain

/-- Flits that one output slot of a task counts for; `ps` is PS_OUT of its header (R235, R246). -/
def slotFlits (k : Task) (ps : Bool) : Nat :=
  let d := outDomain k
  if k.kind = kMatrix ∧ ps then (if d = 0 then 3 else 6) else if d = 0 then 1 else if d = 1 then 2 else 4

/-- The links that a task's ring copies cross: clockwise links from 0, counter-clockwise ones from 48, each by the tile
it leaves. -/
def ringLinks (t : Nat) (k : Task) : List Nat :=
  if k.outCount = 0 then []
  else
    let hops := (List.range 48).filter (fun d => d != t && k.ring.testBit d)
    let cw := fun d => (d + 48 - t) % 48
    let far := fun (clock : Bool) => (hops.map (fun d =>
      if clock then (if cw d ≤ 24 then cw d else 0) else if cw d ≤ 24 then 0 else 48 - cw d)).foldl max 0
    (List.range (far true)).map (fun h => (t + h) % 48) ++ (List.range (far false)).map (fun h => 48 + (t + 48 - h) % 48)

/-- The load of a link in flits per tick. -/
def linkLoad (ts : List (List Nat × Nat)) (link : Nat) : Nat :=
  (ts.map (fun e => if e.1.contains link then e.2 else 0)).sum

-- The check (R245, Table 8.6).

/-- The first task at which a test fails, with a code. -/
def firstBad (code : Nat) (ts : List ((Nat × Nat) × Task)) (bad : (Nat × Nat) → Task → Bool) :
    Option (Nat × Nat × Nat) :=
  (ts.find? (fun e => bad e.1 e.2)).map (fun e => (code, e.1.1, e.1.2))

/-- A barrier depends on itself: a task that posts it awaits one that leads back (R245). -/
def barCycle (edges : List (Nat × Nat)) (b : Nat) : Bool :=
  let grow := fun (l : List Nat) =>
    l ++ ((edges.filter (fun e => l.contains e.1 && !l.contains e.2)).map (·.2)).eraseDups
  let start := ((edges.filter (fun e => e.1 == b)).map (·.2)).eraseDups
  ((List.range edges.length).foldl (fun l _ => grow l) start).contains b

/-- BARRIER fails: byte 0 set, a post count that differs, a barrier awaited and never posted, a cycle. -/
def barProblem (bars : List Nat) (ts : List ((Nat × Nat) × Task)) : Option (Nat × Nat × Nat) :=
  let posts := fun b => (ts.filter (fun e => e.2.postBar == b)).length
  let edges := ((ts.filter (fun e => e.2.postBar != 0 && e.2.waitBar != 0)).map
    (fun e => (e.2.postBar, e.2.waitBar))).eraseDups
  match firstBad 8 ts (fun _ k => k.waitBar != 0 && posts k.waitBar == 0) with
  | some r => some r
  | none =>
    if nth 0 bars 0 ≠ 0 || (List.range 256).any (fun b => b != 0 && nth 0 bars b != posts b)
        || (List.range 256).any (barCycle edges) then some (8, 0, 0) else none

/-- MEMORY fails for a task of a tile. -/
def badMemory (dirs : List TileDir) (spxBase spxSize : Nat) (a : Nat × Nat) (k : Task) : Bool :=
  let d := nth {} dirs a.1
  let fits := fun t => decide (k.outSlot + k.outCount ≤ (nth ({} : TileDir) dirs t).slots)
  let size := stateBytes k
  (k.takes && decide (d.slots < k.inSlot + k.inCount)) || !fits a.1
    || (List.range 48).any (fun t => t != a.1 && k.ring.testBit t && k.outCount != 0 && !fits t)
    || k.stateOfs % 8 != 0
    || (if k.stateB2 then
          decide (bankSize 2 < k.stateOfs + size)
            || (spxSize != 0 && decide (k.stateOfs < spxBase + spxSize) && decide (spxBase < k.stateOfs + size))
        else decide (d.bytes < k.stateOfs + size))

/-- STRIPS fails at a task: the strip of an earlier task again, one OUTSTRIP of Indigo or Ochre too many, one FIR too
many, or a FIR that is not Indigo. -/
def badStrips (ts : List ((Nat × Nat) × Task)) (a : Nat × Nat) (k : Task) : Bool :=
  let before := ts.takeWhile (fun e => e.1 != a)
  let same := before.any (fun e => e.2.kind == k.kind && e.2.object == k.object)
  if k.kind = kInstrip then same
  else if k.kind = kOutstrip then
    same || (k.domain != 1
      && decide (256 ≤ (before.filter (fun e => e.2.kind == kOutstrip && e.2.domain == k.domain)).length))
  else if k.kind = kFir then
    k.domain != 2 || decide (1048576 < ((before.filter (fun e => e.2.kind == kFir)).map (·.2.arg)).sum + k.arg)
  else false

/-- What the check of an image yields: RESULT, TILE and TASK. -/
def checkImage (s : State) (base : Nat) : Nat × Nat × Nat :=
  let h := fun i => imgWord s base (4 * i)
  let len := (h 2).toNat
  if h 0 ≠ 0x4C54494D || getBits (h 1) 31 24 != 0 || getBits (h 1) 15 0 != 1
      || (List.range 9).any (fun i => h (6 + i) != 0) then (1, 0, 0)
  else if getBits (h 1) 23 16 ≠ 1 then (2, 0, 0)
  else if len < 0x440 || len % 32 != 0 || decide (bankSize 1 < base + len) then (3, 0, 0)
  else
    let short := (List.range 48).map (fun t => tileDir s base t false)
    match (short.zipIdx).find? (fun d => d.1.tasks != 0
        && (d.1.listOfs % 32 != 0 || decide (d.1.listOfs < 0x440) || decide (len < d.1.listOfs + 32 * d.1.tasks))) with
    | some d => (3, d.2, 0)
    | none =>
      let bytes := (List.range len).map (fun i =>
        if 0x3C ≤ i ∧ i < 0x40 then (0 : Byte) else Memory.read s.mem (b1At (base + i)))
      if crc32 bytes ≠ h 15 then (4, 0, 0)
      else
        let dirs := (List.range 48).map (fun t => tileDir s base t true)
        let ts := imgTasks dirs
        let dirBad := fun (code : Nat) (f : Nat → TileDir → Bool) =>
          ((dirs.zipIdx).find? (fun d => f d.2 d.1)).map (fun d => ((code, d.2, 0) : Nat × Nat × Nat))
        let sum := fun (d : TileDir) => (d.descs.map (fun w => (taskOf w).budget + 16)).sum
        let sb := (h 4).toNat
        let ss := (h 5).toNat
        let links := ts.map (fun e =>
          (ringLinks e.1.1 e.2, e.2.outCount * slotFlits e.2 (imgWord s 0 e.2.paramOfs |>.getLsbD 30)))
        let heavy := (List.range 96).filter (fun l => decide (30000 < linkLoad links l))
        let order := fun (a b : Option (Nat × Nat × Nat)) => match a with | some r => some r | none => b
        let earlier := fun (a b : Option (Nat × Nat × Nat)) =>
          match a, b with
          | some x, some y => if x.2.1 < y.2.1 ∨ (x.2.1 = y.2.1 ∧ x.2.2 ≤ y.2.2) then a else b
          | some _, none => a
          | none, _ => b
        let budget := dirBad 5 (fun _ d => decide (37500 < d.planned) || d.planned != sum d)
        let memory := earlier
          (if sb % 4096 ≠ 0 || ss % 4096 != 0 || decide (bankSize 2 < sb + ss) then some (6, 0, 0) else none)
          (earlier
            (dirBad 6 (fun _ d => decide (1024 < d.tasks) || decide (4096 < d.slots) || d.bytes % 8 != 0
              || decide (262144 < 65536 + 48 * d.slots + 2 * d.bytes)))
            (firstBad 6 ts (badMemory dirs sb ss)))
        let task := ((dirs.zipIdx).findSome? (fun d =>
          ((d.1.descs.zipIdx).find? (fun w => badTask w.1)).map (fun w => ((7, d.2, w.2) : Nat × Nat × Nat))))
        let strips := firstBad 9 ts (badStrips ts)
        let ring := if heavy.isEmpty then none
          else firstBad 10 ts (fun a k => (ringLinks a.1 k).any (fun l => heavy.contains l))
        let off := dirBad 11 (fun t d => d.tasks != 0 && !s.is (pgTile t) F.ctrlEn)
        (order budget (order memory (order task (order (barProblem (barTable s base) ts)
          (order strips (order ring off)))))).getD (0, 0, 0)

-- Staging (R247).

/-- The shadow of LATG_IMG_BASE (R245). -/
def stagedBase (s : State) : Nat :=
  getBits ((s.shadow.find (keyOf pgLatg F.latgImgBaseOfs.ofs)).getD (s.reg pgLatg F.latgImgBaseOfs.ofs)) 22 0

/-- LATG_STAGE.READY follows its two parts. -/
def stageReady (s : State) : State :=
  s.setB pgLatg F.latgStageReady (s.is pgLatg F.latgStageConeReady && s.is pgLatg F.latgStagePreloadDone)

/-- What a memory lists of B1. -/
def b1Cells (m : List Host.Cell) : List Host.Cell := m.filter (fun c => bankOf c.1 == some 1)

/-- Words of B1 that were written since the check began. -/
def tornWords (s : State) : List Nat :=
  let now := b1Cells s.mem
  if now = s.lat.goMem then []
  else ((now.filter (fun c => !s.lat.goMem.contains c) ++ s.lat.goMem.filter (fun c => !now.contains c)).map
    (fun c => c.1 / 4 * 4)).eraseDups

/-- The memory as the check saw it: each word written while it ran is the old or the new one, as a free value has it
(R245; log 3). -/
def imageSeen (s : State) : List Host.Cell × State :=
  (tornWords s).foldl (fun (p : List Host.Cell × State) a =>
    let (v, t) := p.2.fresh
    if v.getLsbD 0 then (p.1, t)
    else ((List.range 4).foldl (fun m k => Memory.write m (a + k) (Memory.read s.lat.goMem (a + k))) p.1, t)) (s.mem, s)

/-- A write of LATG_CHECK.GO = 1 starts a check, on an engaged LATG (`later`) from its next boundary (R59, R245);
while one is in progress it is ignored. DEDUCED: BUSY reads 1 from the write (log 17). -/
def checkStart (s : State) (later : Bool) : State :=
  if s.is pgLatg F.latgCheckBusy then s
  else { (s.setF pgLatg F.latgCheckBusy 1) with lat := { s.lat with goMem := b1Cells s.mem, checkDue := later } }

/-- A check asked for begins at LATG's boundary (R59). -/
def checkBegin (s : State) : State :=
  if s.lat.checkDue then { s with lat := { s.lat with goMem := b1Cells s.mem, checkDue := false } } else s

/-- The tiles preload the list of the staged image into their inactive halves (R247). -/
def preload (s : State) : State :=
  let base := s.lat.stBase
  (List.range 48).foldl (fun s t =>
    let d := tileDir s base t true
    s.setTile t (fun x => { x with
      staged := d.descs.map taskOf, stSlots := d.slots, stBytes := d.bytes, stPlan := d.planned, preloaded := true })) s

/-- PRELOAD_DONE: every tile holds the staged list (R247), be LATG enabled or not; a restart of the Memory subsystem keeps
the tiles waiting (R17). -/
def preloadEnd (s : State) : State :=
  if !s.lat.staging || s.is pgLatg F.latgStagePreloadDone || memStalled s then s
  else
    let lists := (List.range 48).map (fun t => tileDir s s.lat.stBase t false)
    let s := eccReads s (fun a => lists.any (fun d => inWords (b1At (s.lat.stBase + d.listOfs)) (8 * d.tasks) a))
    stageReady ((preload s).setF pgLatg F.latgStagePreloadDone 1)

/-- The cone table of the lists that the tiles run: for each input strip with tasks of its own, the cost of its cone on
every tile (R214, R215). -/
def coneTable (s : State) : SMap (List (Nat × Nat)) :=
  let own := (s.allTasks.map (fun a => (s.taskAt a.1 a.2).task)).filter (fun k =>
    k.kind == kInstrip || k.kind == kConceal || (k.kind == kDyn && !k.side))
  ((own.map (·.object)).eraseDups).foldl (fun m n => SMap.put m n (coneCost s (coneOf s n))) []

/-- The tiles as the staged image will have them. -/
def stagedTiles (s : State) : State :=
  { s with lat := { s.lat with tiles := s.lat.tiles.map (fun (e : Nat × TileSt) =>
      (e.1, { e.2 with tasks := e.2.staged.map (fun k => ({ task := k } : TaskSt)) })) } }

/-- The region of B2 that an image assigns to SPX takes the table; the form in which it lies there is not stated, so its
words are free (log 3). -/
def coneWrite (s : State) (base size : Nat) : State :=
  (List.range (size / 4)).foldl (fun s i =>
    let (v, s) := s.fresh
    s.setMemWord (bankBase 2 + base + 4 * i) (v.extractLsb' 0 32)) s

/-- CONE_TABLE_READY: SPX has built the table of the staged lists and written it to B2 (R215, R247). -/
def coneReady (s : State) : State :=
  if !s.strm.coneBusy || !s.running pgSpx || s.resetting pgSpx || memStalled s then s
  else
    let s := { s with strm := { s.strm with conesStaged := coneTable (stagedTiles (preload s)) } }
    let s := coneWrite s s.lat.stSpxBase s.lat.stSpxSize
    let s := (s.setF pgSpx F.spxStatConeBusy 0).setF pgLatg F.latgStageConeReady 1
    (eventF (stageReady { s with strm := { s.strm with coneBusy := false } }) pgSpx F.spxEvtConeReady).signal pgSpx

/-- The staging of an image ends: LATG_STAGE reads 0. -/
def unstage (s : State) : State :=
  let s := ((s.setF pgLatg F.latgStageReady 0).setF pgLatg F.latgStageConeReady 0).setF pgLatg F.latgStagePreloadDone 0
  let s := (List.range 48).foldl (fun s t =>
    if (s.tile t).preloaded then s.setTile t (fun x => { x with preloaded := false, staged := [] }) else s) s
  { (s.setF pgSpx F.spxStatConeBusy 0) with strm := { s.strm with coneBusy := false, conesStaged := [] },
                                            lat := { s.lat with staging := false } }

/-- LATG stages an image that passed its check, with what the check read of it (R247): `v` is the state with the memory
that the check saw. -/
def stage (s v : State) (base : Nat) : State :=
  let ts := imgTasks ((List.range 48).map (fun t => tileDir v base t true))
  let outs := fun d => (ts.filter (fun e => e.2.kind == kOutstrip && e.2.domain == d)).length
  let ps := fun (e : (Nat × Nat) × Task) => (imgWord v 0 e.2.paramOfs).getLsbD 30
  let links := ts.map (fun e => (ringLinks e.1.1 e.2, e.2.outCount * slotFlits e.2 (ps e)))
  let l := { s.lat with
    stBars := barTable v base, stSpxBase := (imgWord v base 0x10).toNat, stSpxSize := (imgWord v base 0x14).toNat,
    stBase := base, stId := imgWord v base 0x0C, stIndigo := outs 2, stOchre := outs 0,
    stRing := ((List.range 96).map (linkLoad links)).foldl max 0,
    stPsOut := (ts.filter (fun (e : (Nat × Nat) × Task) => e.2.kind == kMatrix)).foldl (fun (m : SMap Bool) (e : (Nat × Nat) × Task) =>
      SMap.put m (e.1.1 * 1024 + e.1.2) (ps e)) [] }
  let s := unstage s
  let s := s.setReg pgLatg F.latgStgIdId.ofs l.stId
  { (s.setF pgSpx F.spxStatConeBusy 1) with lat := { l with tiles := s.lat.tiles, staging := true },
                                            strm := { s.strm with coneBusy := true } }

/-- A check completes: VALID, RESULT, TILE and TASK, and the staging of an image that passed (R245, R247). A restart of
the Memory subsystem stalls it (R17). -/
def checkEnd (s : State) : State :=
  if !s.is pgLatg F.latgCheckBusy || s.lat.checkDue || s.resetting pgLatg || memStalled s then s
  else
    let base := stagedBase s
    let (m, s) := imageSeen s
    let v : State := { s with mem := m }
    let (r, t, i) := checkImage v base
    let s := eccReads s (inWords (b1At base) (if r = 1 ∨ r = 2 ∨ r = 3 then 16 else (imgWord v base 8).toNat / 4))
    let s := (s.setF pgLatg F.latgCheckBusy 0).setB pgLatg F.latgCheckValid (r = 0)
    let s := ((s.setF pgLatg F.latgCheckResult r).setF pgLatg F.latgCheckTile t).setF pgLatg F.latgCheckTask i
    let s := if r = 0 then stage s v base else s
    (eventF s pgLatg F.latgEvtCheckDone).signal pgLatg

/-- A write to LATG_IMG_BASE clears VALID and aborts a check in progress; what was staged is staged no more (R245). -/
def baseWritten (s : State) : State :=
  let s := (s.setF pgLatg F.latgCheckValid 0).setF pgLatg F.latgCheckBusy 0
  unstage { s with lat := { s.lat with checkDue := false } }

/-- LATG stops: a check in progress is abandoned (R51). -/
def checkAbandon (s : State) : State :=
  { (s.setF pgLatg F.latgCheckBusy 0) with lat := { s.lat with checkDue := false } }

/-- A block reset of LATG (R14): no check runs, nothing is staged, and the tick's digest is not valid (R496). -/
def latgReset (s : State) : State :=
  let s := baseWritten s
  let s := ((s.setF pgLatg F.latgCheckResult 0).setF pgLatg F.latgCheckTile 0).setF pgLatg F.latgCheckTask 0
  { s with lat := { s.lat with spoilt := true } }

-- Swapping (R248, R249).

/-- The image can be swapped in at the commit point (R248). -/
def swapOk (s : State) : Bool := s.is pgLatg F.latgStageReady && s.is pgLatg F.latgCheckValid

/-- The old task whose state a new one on the same tile takes over (R249). -/
def heirOf (old : List TaskSt) (k : Task) : TaskSt :=
  match old.find? (fun o => o.task.kind == k.kind && o.task.object == k.object && o.task.side == k.side
      && o.task.domain == k.domain && o.task.stateB2 == k.stateB2 && stateBytes o.task == stateBytes k) with
  | some o => { task := k, work := o.ckpt, ckpt := o.ckpt, copy := o.copy, pre := o.ckpt, waiting := o.waiting,
                waitCkpt := o.waiting, geo := o.geo, raised := o.raised && o.task.paramOfs == k.paramOfs }
  | none => { task := k }

/-- The first tile of the highest PLANNED (Table 8.7). -/
def planMax (s : State) : Nat :=
  (List.range 48).foldl (fun b t => if (s.tile b).plan < (s.tile t).plan then t else b) 0

/-- The image swap (R248, R249): the tick that begins is the first of the new image, of the first image as well. -/
def imageSwap (s : State) : State :=
  let s := (List.range 48).foldl (fun s t =>
    let s := (List.range (s.tile t).tasks.length).foldl (fun s i => loadState s t i) s
    let s := s.setTile t (fun x => { x with
      tasks := x.staged.map (heirOf x.tasks), slots := x.stSlots, bytes := x.stBytes, plan := x.stPlan,
      store := [], ring := [], cur := none, staged := [], preloaded := false, half := 1 - x.half })
    let s := if s.lat.active then s else s.setTile t (fun x => { x with
      tick := s.time.tick, begun := tileRuns s t && !s.actIs (pgTile t) F.ctrlDrain })
    let s := (List.range (s.tile t).tasks.length).foldl (fun s i => keepState s t i (s.taskAt t i).work) s
    let s := s.setF (pgTile t) F.tileTasksListed (s.tile t).tasks.length
    s.setF (pgTile t) F.tileMemBytes (65536 + 48 * (s.tile t).slots + 2 * (s.tile t).bytes)) s
  let l := s.lat
  let s := { s with lat := { l with
    bars := l.stBars, spxBase := l.stSpxBase, spxSize := l.stSpxSize, psOut := l.stPsOut, active := true,
    posts := [], outs := [] }, strm := { s.strm with cones := s.strm.conesStaged } }
  let best := planMax s
  let s := (s.setF pgLatg F.latgActBaseOfs l.stBase).setReg pgLatg F.latgActIdId.ofs l.stId
  let s := (s.setF pgLatg F.latgPlanMaxTile best).setF pgLatg F.latgPlanMaxCycles (s.tile best).plan
  let s := (s.setF pgLatg F.latgOutDomIndigo l.stIndigo).setF pgLatg F.latgOutDomOchre l.stOchre
  let s := s.setF pgLatg F.latgRingMaxFlits l.stRing
  (unstage s).bump pgLatg F.latgCntSwapCount

-- Tiles: self-test and reset (R257, R258).

/-- A refusal of a write to a tile's page. -/
def tileVeto (ofs : Nat) (v : Word) : Option Veto :=
  if ofs = 0x05C then vetoUnless (getBits v 1 0 != 3) .range else none

/-- RED runs self-test passes on every tile: those of a verdict check, and without end in STANDBY (R497, R499). -/
def redTests (s : State) (t : Nat) : Bool :=
  s.red.checkLeft.contains t || (s.actIs pgRed F.redCfgSelftest && s.rd pgRed F.redStatState == 2)

/-- The self-test follows MODE (R258). -/
def bistTake (s : State) (t : Nat) : State :=
  if (s.tile t).bistReq then
    let on := s.act (pgTile t) F.tileBistMode != 0 || redTests s t
    (s.setB (pgTile t) F.tileBistBusy on).setTile t (fun x => { x with bistReq := false })
  else s

/-- A write of MODE clears FAIL, and takes effect at the tile's boundary, at once on a disabled tile (R258, Table 2.11). -/
def tileWrote (s : State) (t ofs : Nat) (later : Bool) : State :=
  if ofs = 0x05C then
    let s := (s.setF (pgTile t) F.tileBistFail 0).setTile t (fun x => { x with bistReq := true })
    if later then s else bistTake s t
  else s

/-- A tile's local tick boundary: the list of the new tick begins (R241). -/
def tileBoundary (s : State) (t : Nat) : State := if s.lat.active then tileClose s t s.time.tick else s

/-- A tile's block reset is over: its passes repeat with MODE = 2, or where RED runs them (R14, R258, R499). -/
def tileBack (s : State) (t : Nat) : State :=
  if s.act (pgTile t) F.tileBistMode = 2 ∨ redTests s t then s.setF (pgTile t) F.tileBistBusy 1 else s

/-- A block reset of a tile (R257): its state is zero, the active list is read from B1 again, and its part of a staging
starts anew. -/
def tileReset (s : State) (t : Nat) : State :=
  let d := tileDir s (s.rd pgLatg F.latgActBaseOfs) t true
  let again := s.is pgLatg F.latgStagePreloadDone
  let s := s.setTile t (fun x => { x with
    tasks := if s.lat.active then d.descs.map (fun w => ({ task := taskOf w } : TaskSt)) else [],
    store := [], ring := [], cur := none, begun := false, bistReq := false, preloaded := false, staged := [] })
  let s := (List.range (s.tile t).tasks.length).foldl (fun s i => keepState s t i []) (s.setF (pgTile t) F.tileBistBusy 0)
  if again then stageReady (s.setF pgLatg F.latgStagePreloadDone 0) else s

/-- A refusal of a write to LATG's page (R256). -/
def latgVeto (ofs : Nat) (v : Word) : Option Veto :=
  if ofs = 0x040 then vetoUnless (getBits v 4 0 == 0) .range else none

end Sys2Proof.Machine
end

