-- ==== Sys2Proof/Machine/Streams.lean ====
section
/-! DEFINITION. Ingress streams and speculation: blocks and their states, admission, reruns, concealment, deadlines,
claims and the AES67 jitter buffer (06, 07). -/

namespace Sys2Proof.Machine

-- Context entries.

def ingRd (s : State) (c : Nat) (f : Fld) : Nat := s.rd (ingPage c) (ingFld f c)
def ingSet (s : State) (c : Nat) (f : Fld) (v : Nat) : State := s.setF (ingPage c) (ingFld f c) v
def ingBump (s : State) (c : Nat) (f : Fld) (n : Nat) : State := s.bumpBy (ingPage c) (ingFld f c) n
def ingBit (s : State) (c : Nat) (f : Fld) : Bool := ingGet s c f != 0

/-- Domain of an ingress context: its DOMAIN, or by its RATE. -/
def ingDom (s : State) (c : Nat) : Nat :=
  if ingKind s c = 0 then ingGet s c F.ing0W1Domain else ingGet s c F.ing1W3Rate

/-- The alignment group of an ingress context. -/
def ingGroup (s : State) (c : Nat) : Nat :=
  if ingKind s c = 0 then ingGet s c F.ing0W3Group else ingGet s c F.ing1W3Group

/-- The group has LOCKSTEP set (R184). -/
def lockstep (s : State) (g : Nat) : Bool :=
  g != 0 && (if g < 32 then (s.inForce pgStrg F.strgLockstepLoGrp.ofs).getLsbD g
    else (s.inForce pgStrg F.strgLockstepHiGrp.ofs).getLsbD (g - 32))

/-- The tick last begun at STRG: the current tick of a context. -/
def strgTick (s : State) : Nat := s.arch.began.get 0 pgStrg

/-- The accepted ingress contexts, in rising order. -/
def acceptedIng (s : State) : List Nat := (s.strm.ing.filter (fun e => e.2.accepted)).map (·.1)

/-- SPX serves admissions. -/
def spxOn (s : State) : Bool := s.running pgSpx && !s.resetting pgSpx

/-- A context runs cut-through (R174, R219, R222, R223). -/
def cutThrough (s : State) (c : Nat) : Bool :=
  (s.ing c).accepted && ingKind s c == 0 && ingBit s c F.ing0W0AshIn && decide (ingGet s c F.ing0W2Cdl ≤ 192)
    && spxOn s && s.actIs pgSpx F.spxCfgCutEn && (s.strm.holds.find c).isNone

-- Blocks (R198).

/-- The block of a channel in a due tick. -/
def blkAt (s : State) (c due ch : Nat) : BlockSt :=
  ((s.ing c).blocks.find? (fun b => b.due == due && b.chan == ch)).getD { due := due, chan := ch }

/-- A block stored. -/
def putBlk (s : State) (c : Nat) (b : BlockSt) : State :=
  s.setIng c (fun x => { x with
    blocks := x.blocks.filter (fun y => !(y.due == b.due && y.chan == b.chan)) ++ [b] })

/-- A block stands before the lattice as it is. -/
def present (s : State) (c : Nat) (b : BlockSt) : State :=
  let d : Blk := { tick := b.due, st := b.st, data := b.data }
  { (putBlk s c b) with lat := { s.lat with ins := s.lat.ins.put (ingStrip s c + b.chan) d } }

/-- A reservation of a tick returns to the ledgers of that tick (R216). -/
def giveBack (s : State) (tick : Nat) (resv : List (Nat × Nat)) : State :=
  if s.strm.ledgerTick = some tick then
    { s with strm := { s.strm with ledger := resv.foldl (fun l e => l.put e.1 (l.get 0 e.1 + e.2)) s.strm.ledger } }
  else s

/-- Cycles that a context's blocks hold reserved on a tile. -/
def heldCycles (s : State) (c t : Nat) : Nat :=
  (((s.ing c).blocks.flatMap (·.resv)).map (fun e => if e.1 = t then e.2 else 0)).sum

/-- The offending context of a refusal on a tile (R222). -/
def offender (s : State) (c t : Nat) : Nat :=
  let best := (acceptedIng s).foldl (fun b k => if heldCycles s b t < heldCycles s k t then k else b)
    ((acceptedIng s).headD c)
  if heldCycles s best t = 0 then c else best

/-- SPX refuses an admission, for want of cycles on a tile (R221, R222). -/
def refuse (s : State) (c t : Nat) : State :=
  let s := s.bump pgSpx F.spxCntRefusedCount
  if s.strm.refused then s
  else
    let k := offender s c t
    let s := { s with strm := { s.strm with refused := true, holdNext := some k } }
    let s := (s.setF pgSpx F.spxLastAbortTick (strgTick s % 65536)).setF pgSpx F.spxLastAbortCtx k
    raise (s.bump pgSpx F.spxCntAbortCount) pgSpx F.spxFltStreamAbort.lo (w32 k)

/-- Contexts held in store-and-forward, as SPX shows them. -/
def showHolds (s : State) : State :=
  let s := s.setF pgSpx F.spxStatHeld s.strm.holds.length
  (List.range 16).foldl (fun s w =>
    let m := ((s.strm.holds.filter (fun e => e.1 / 32 == w)).map (fun e => 2 ^ (e.1 % 32))).sum
    if s.rd pgSpx (F.spxSafMap.at 4 w) = m then s else s.setF pgSpx (F.spxSafMap.at 4 w) m) s

/-- A store-and-forward hold ends (R223). -/
def safRelease (s : State) (c : Nat) : State :=
  if (s.strm.holds.find c).isNone then s
  else eventF (showHolds { s with strm := { s.strm with holds := s.strm.holds.del c } }) pgSpx F.spxEvtSafExit

/-- A tick begins at SPX, with its boundary or with the first use that STRG makes of it in the tick, whichever comes
first: the lowest ledger left, the ledgers anew, holds that begin and end (R216, R222, R223). -/
def spxTick (s : State) (n : Nat) : State :=
  if (match s.strm.ledgerTick with | some m => decide (n ≤ m) | none => false) then s
  else
    let low := s.strm.ledger.foldl (fun (b : Nat × Nat) e => if e.2 < b.2 then e else b)
      (s.rd pgSpx F.spxLedgerMinTile, s.rd pgSpx F.spxLedgerMinCycles)
    let s := (s.setF pgSpx F.spxLedgerMinTile low.1).setF pgSpx F.spxLedgerMinCycles low.2
    let r := s.rd pgSpx F.spxReserveCycles
    let m := { s.strm with
      ledger := (List.range 48).map (fun t => (t, r)), ledgerTick := some n, refused := false, holdNext := none,
      safEnd := [], holds := s.strm.holds.map (fun (e : Nat × Nat) => (e.1, e.2 - 1)) }
    let ends := s.strm.safEnd
    let next := s.strm.holdNext
    let s := ends.foldl safRelease { s with strm := m }
    match next with
    | some c =>
      let s := { s with strm := { s.strm with holds := s.strm.holds.put c (s.rd pgSpx F.spxCfgHold) } }
      eventF (showHolds s) pgSpx F.spxEvtSafEnter
    | none => s

/-- SPX admits a block of a strip, or refuses it: its reservation, and the state (R216). -/
def admission (s : State) (c strip : Nat) : Option (List (Nat × Nat)) × State :=
  let s := spxTick s (strgTick s)
  let cost := s.strm.cones.get [] strip
  match cost.find? (fun e => decide (s.strm.ledger.get 0 e.1 < e.2)) with
  | some e => (none, refuse s c e.1)
  | none =>
    let l := cost.foldl (fun l e => SMap.put l e.1 (SMap.get 0 l e.1 - e.2)) s.strm.ledger
    (some cost, ({ s with strm := { s.strm with ledger := l } }).bump pgSpx F.spxCntAdmitCount)

-- Replacements and reruns (R217, R218).

/-- A block in use is replaced: it joins the rerun that this command forms. -/
def noteReplaced (s : State) (due strip : Nat) (resv : List (Nat × Nat)) : State :=
  let rs := s.strm.reruns
  let rs' := match rs.reverse with
    | r :: rest =>
      if r.forming then rest.reverse ++ [{ r with strips := r.strips ++ [strip], resv := r.resv ++ resv }]
      else rs ++ [{ tick := due, strips := [strip], resv := resv, forming := true }]
    | [] => [{ tick := due, strips := [strip], resv := resv, forming := true }]
  { s with strm := { s.strm with reruns := rs' } }

/-- A task has started in its tick. -/
def taskStarted (s : State) (a : Nat × Nat) : Bool :=
  let p := (s.taskAt a.1 a.2).phase
  p == .running || p == .finished

/-- The part of a reservation beyond the cost of a set of tasks, on each tile (R218). -/
def restOf (s : State) (resv cone : List (Nat × Nat)) : List (Nat × Nat) :=
  (List.range 48).filterMap (fun t =>
    let have_ := (resv.map (fun e => if e.1 = t then e.2 else 0)).sum
    if have_ = 0 then none else some (t, have_ - costOn s cone t))

/-- Page and fields of an egress context. -/
def egrPage (c : Nat) : Nat := 0x35 + c / 128
def egrFld (f : Fld) (c : Nat) : Fld := f.at 32 (c % 128)
def egrGet (s : State) (c : Nat) (f : Fld) : Nat := s.act (egrPage c) (egrFld f c)
def egrKind (s : State) (c : Nat) : Nat := egrGet s c F.egr0W0Kind
/-- The accepted egress contexts, in rising order. -/
def acceptedEgr (s : State) : List Nat := (s.strm.egr.filter (fun e => e.2.accepted)).map (·.1)

/-- The task that produces an output strip. -/
def producer (s : State) (strip : Nat) : Option (Nat × Nat) :=
  s.allTasks.find? (fun a => chainEnd s a == some strip)

/-- Channels of a KIND 0 egress context whose producer is among some tasks. -/
def chansFrom (s : State) (c : Nat) (tasks : List (Nat × Nat)) : BitVec 64 :=
  BitVec.ofNat 64 ((((List.range (egrGet s c F.egr0W2Channels)).filter (fun j =>
    match producer s (egrGet s c F.egr0W0StripBase + j) with
    | some a => tasks.contains a
    | none => false)).map (fun j => 2 ^ j)).sum)

/-- Channels already formed for a frame become stale by a rerun (R227). -/
def markStale (s : State) (tick : Nat) (tasks : List (Nat × Nat)) : State :=
  (acceptedEgr s).foldl (fun s c =>
    if (s.egr c).segs.any (fun e => e.formed && e.tick == tick) then
      let m := chansFrom s c tasks
      s.setEgr c (fun x => { x with
        segs := x.segs.map (fun e => if e.formed && e.tick == tick then { e with stale := e.stale ||| m } else e) })
    else s) s

/-- The replacements of a command are complete: the rerun covers the started tasks of their cones; where none had
started, none is needed (R217, R218). -/
def sealRerun (s : State) : State :=
  match s.strm.reruns.reverse with
  | r :: rest =>
    if !r.forming then s
    else
      let cone := (r.strips.flatMap (coneOf s)).eraseDups
      let tasks := cone.filter (taskStarted s)
      let back := restOf s r.resv cone
      if tasks.isEmpty then giveBack { s with strm := { s.strm with reruns := rest.reverse } } r.tick back
      else
        let r' := { r with tasks := tasks, resv := back, forming := false }
        markStale { s with strm := { s.strm with reruns := rest.reverse ++ [r'] } } r.tick tasks
  | [] => s

/-- Reruns that a reset of SPX dropped, and the others, oldest first. -/
def rerunSplit (s : State) : List Rerun × List Rerun := s.strm.reruns.partition (·.lost)

/-- RERUN_START: LATG starts the oldest rerun (R217). -/
def rerunBegin (s : State) : State :=
  match rerunSplit s with
  | (dead, r :: rest) =>
    if r.running || !s.running pgLatg then s
    else
      let s := { s with strm := { s.strm with reruns := dead ++ { r with running := true } :: rest } }
      let s := s.bump pgSpx F.spxCntRerunCount
      ((r.tasks.map (·.1)).eraseDups).foldl (fun s t => s.setTile t (fun x => { x with reruns := x.reruns + 1 })) s
  | _ => s

/-- RERUN_DONE: the tasks of the running rerun have run again, and the rest of its reservations returns (R217, R218); a
restart of the Memory subsystem stalls them (R17). -/
def rerunEnd (s : State) : State :=
  match rerunSplit s with
  | (dead, r :: rest) =>
    if !r.running || memStalled s then s
    else
      let s := rerunTasks s r.tasks.length r.tasks
      (giveBack { s with strm := { s.strm with reruns := dead ++ rest } } r.tick r.resv).signal pgSpx
  | _ => s

/-- A block in use becomes Ivory with its data; its reservation returns (R216). -/
def confirmBlk (s : State) (c : Nat) (b : BlockSt) : State :=
  giveBack (present s c { b with st := .ivory, resv := [] }) b.due b.resv

/-- A block in use is replaced by other data, and is Ivory (Table 7.1, R217). -/
def replaceBlk (s : State) (c : Nat) (b : BlockSt) (d : List Int) : State :=
  noteReplaced (present s c { b with st := .ivory, data := d, resv := [] }) b.due (ingStrip s c + b.chan) b.resv

/-- A block takes its committed value. -/
def ivoryBlk (s : State) (c : Nat) (b : BlockSt) (d : List Int) : State :=
  match b.st with
  | .none => present s c { b with st := .ivory, data := d }
  | .ivory => if b.data = d then s else replaceBlk s c b d
  | .ash | .awaiting | .predicted => if b.data = d then confirmBlk s c b else replaceBlk s c b d
  | .soot => replaceBlk s c b d

-- Context states (R181, R184).

/-- How the blocks of a tick are committed (Table 6.5). -/
inductive Law where
  | silence
  | plain
  | ramp (t : Nat)
  | fade
  | rampFade (t : Nat)
  deriving DecidableEq, Repr

/-- State, consecutive misses, consecutive good ticks and ramp ticks. -/
structure CtxPos where
  state  : Nat := 0
  misses : Nat := 0
  goods  : Nat := 0
  ramp   : Nat := 0
  deriving DecidableEq, Repr

/-- The change of state by a tick that missed or was good; `force` fades the context with its group (Table 6.5, R184). -/
def ingNext (x : CtxPos) (kind : Nat) (miss force : Bool) : CtxPos × Law :=
  match x.state with
  | 1 => if !miss then ({ state := 2 }, .plain) else if force then ({ state := 4 }, .silence) else ({ state := 1 }, .silence)
  | 2 | 3 =>
    if !miss then ({ state := 2 }, .plain)
    else if force || kind == 1 || decide (2 ≤ x.misses) then ({ state := 4 }, .fade)
    else ({ state := 3, misses := x.misses + 1 }, .plain)
  | 4 =>
    if miss then ({ state := 4 }, .silence)
    else if x.goods = 0 then ({ state := 4, goods := 1 }, .silence)
    else ({ state := 5, ramp := 1 }, .ramp 0)
  | 5 =>
    if miss then ({ state := 4 }, .rampFade x.ramp)
    else if 3 ≤ x.ramp then ({ state := 2 }, .ramp x.ramp)
    else ({ state := 5, ramp := x.ramp + 1 }, .ramp x.ramp)
  | _ => (x, .silence)

/-- A block under a law. -/
def underLaw (dom : Nat) (l : Law) (x : List Int) : List Int :=
  match l with
  | .silence => List.replicate (samplesOf dom) 0
  | .plain => x
  | .ramp t => rampIn dom t x
  | .fade => fadeOut dom x
  | .rampFade t => fadeOut dom (rampIn dom t x)

/-- Where a context stands in Table 6.5. -/
def posOf (x : IngSt) : CtxPos := { state := x.state, misses := x.misses, goods := x.goods, ramp := x.ramp }

/-- The members of a group. -/
def groupOf (s : State) (g : Nat) : List Nat := (acceptedIng s).filter (fun c => ingGroup s c == g)

/-- A tick that misses takes the members of a lockstep group to FADED: one of them fades by it (R184, R310). A KIND 1
member has no MISSING, so it fades at once (R181). -/
def groupFades (s : State) (g : Nat) : Bool :=
  (groupOf s g).any (fun c =>
    let x := s.ing c
    x.force || x.fade || x.state == 5 || (x.state == 3 && decide (2 ≤ x.misses))
      || (ingKind s c == 1 && (x.state == 2 || x.state == 3)))

-- Predictions and Soot (R224 to R226).

/-- The mode of concealment of a context. -/
def concealMode (s : State) (c : Nat) : Nat := ingGet s c F.ing0W3Conceal

/-- The block that a channel would commit if nothing more arrived by the CDL: its tick misses (R206, R207, R224). -/
def predictOf (s : State) (c ch : Nat) : Option (List Int) :=
  let g := ingGroup s c
  let force := (s.ing c).force || (lockstep s g && groupFades s g)
  match (ingNext (posOf (s.ing c)) 0 true force).2 with
  | .silence => some (List.replicate (samplesOf (ingDom s c)) 0)
  | law => (concealOf s (ingStrip s c + ch) (concealMode s c)).map (underLaw (ingDom s c) law)

/-- An admitted block turns Soot; its prediction substitutes for it (R198, R226). -/
def sootBlk (s : State) (c : Nat) (b : BlockSt) : State :=
  let d := (predictOf s c b.chan).getD b.data
  present (s.bump pgSpx F.spxCntSootCount) c { b with st := .soot, data := d, held := none }

/-- One channel at the PDL of its context (R224). -/
def predictChan (s : State) (c due ch : Nat) : State :=
  let b := blkAt s c due ch
  if b.st ≠ .none ∨ b.refused ∨ b.final.isSome then s
  else
    match predictOf s c ch with
    | none => s
    | some d =>
      match admission s c (ingStrip s c + ch) with
      | (some r, s) =>
        present (s.bump pgSpx F.spxCntPredCount) c { (blkAt s c due ch) with st := .predicted, data := d, resv := r }
      | (none, s) => putBlk s c { (blkAt s c due ch) with refused := true }

/-- PREDICTION_DEADLINE: SPX predicts the blocks of a context not yet presented (R224). -/
def pdlEvent (s : State) (c : Nat) : State :=
  let x := s.ing c
  if !cutThrough s c || !s.running pgStrg || !s.actIs pgSpx F.spxCfgPredEn || x.done = some (strgTick s)
      || !(x.state == 2 || x.state == 3) then s
  else (List.range (ingChans s c)).foldl (fun s ch => predictChan s c (strgTick s) ch) s

-- Final data (R198, R207).

/-- Every channel of a context has final data of a tick. -/
def allFinal (s : State) (c due : Nat) : Bool :=
  (List.range (ingChans s c)).all (fun ch => (blkAt s c due ch).final.isSome)

/-- How the final data of a context's current tick commit, where the outcome of the tick can change it no more (R181,
R206); in a lockstep group nothing is certain before the group commit point (R207). -/
def certainLaw (s : State) (c due : Nat) : Option Law :=
  let x := s.ing c
  if lockstep s (ingGroup s c) then none
  else if allFinal s c due then some (ingNext (posOf x) 0 false x.force).2
  else
    let good := (ingNext (posOf x) 0 false x.force).2
    let miss := (ingNext (posOf x) 0 true x.force).2
    if good = miss then some good else none

/-- A block in use is replaced by other data and stays Ash until its commit (Table 7.1, R207). -/
def useBlk (s : State) (c : Nat) (b : BlockSt) (d : List Int) : State :=
  noteReplaced (present s c { b with st := .ash, data := d, resv := [] }) b.due (ingStrip s c + b.chan) b.resv

/-- Final data of one channel of a context's current tick are used on their arrival (Table 7.1, R225): as Ivory under
the law by which they commit, or as Ash where that is not certain yet. -/
def settleChan (s : State) (c : Nat) (law : Option Law) (b : BlockSt) (d : List Int) : State :=
  match b.st, law with
  | .ivory, _ => s
  | .predicted, some l => replaceBlk (s.bump pgSpx F.spxCntSootCount) c b (underLaw (ingDom s c) l d)
  | _, some l => ivoryBlk s c b (underLaw (ingDom s c) l d)
  | .predicted, none => useBlk (s.bump pgSpx F.spxCntSootCount) c b d
  | .soot, none => useBlk s c b d
  | .none, none => s
  | _, none => if b.data = d then s else useBlk s c b d

/-- Final data of a context's current tick are used. -/
def settle (s : State) (c due : Nat) : State :=
  if due ≠ strgTick s ∨ (s.ing c).done = some due then s
  else
    let law := certainLaw s c due
    (List.range (ingChans s c)).foldl (fun s ch =>
      let b := blkAt s c due ch
      match b.final with
      | some d => settleChan s c law b d
      | none => s) s

/-- Final data of a channel arrive. -/
def finalData (s : State) (c due ch : Nat) (d : List Int) : State :=
  let b := blkAt s c due ch
  if b.final.isSome then s else putBlk s c { b with final := some d, held := none }

/-- Good data that await confirmation (R174, R175, R225). -/
def heldData (s : State) (c due ch : Nat) (d : List Int) : State :=
  let b := blkAt s c due ch
  if b.final.isSome then s
  else if b.st = .ash then present s c { b with st := .awaiting, held := some d }
  else putBlk s c { b with held := some d }

/-- A channel is retracted (R229). -/
def retractChan (s : State) (c due ch : Nat) : State :=
  let s := s.bump pgSpx F.spxCntRetractCount
  let b : BlockSt := { (blkAt s c due ch) with retracted := true, held := none }
  if b.final.isSome then s
  else if b.st = .ash ∨ b.st = .awaiting then sootBlk s c b
  else putBlk s c b

/-- A held channel is confirmed by LAST_SEG (R178). -/
def confirmHeld (s : State) (c due ch : Nat) : State :=
  match (blkAt s c due ch).held with
  | some d => finalData s c due ch d
  | none => s

-- Claims (R494).

/-- The accepted claim of a context for a due tick. -/
def claimFor (s : State) (c due : Nat) : Option Word :=
  ((s.ing c).claims.find? (fun e => decide (e.1 ≤ due))).map (·.2)

/-- A claim becomes the accepted one from a due tick. -/
def takeClaim (s : State) (c due : Nat) (k : Word) : State :=
  s.setIng c (fun x => { x with claims := (due, k) :: (x.claims.filter (fun e => decide (e.1 < due))).take 4 })

/-- A higher claim holds from a due tick: what a lower one gave those ticks is used no more, where it is not committed
(R494). -/
def lowerGone (s : State) (c due : Nat) : State :=
  s.setIng c (fun x => { x with blocks := x.blocks.map (fun b =>
    if due ≤ b.due && b.st != .ivory then { b with final := none, held := none } else b) })

/-- A segment of a claim is seen (R494). -/
def seeClaim (s : State) (c due : Nat) (k : Word) : State :=
  if ingBit s c F.ing0W3ClaimMode then
    match claimFor s c due with
    | none => takeClaim s c (if (s.ing c).claims.isEmpty then 0 else due) k
    | some a => if claimHigher k a then lowerGone (takeClaim s c due k) c due else s
  else s

/-- A segment's data are used as they come: it is of the accepted claim. -/
def claimUsed (s : State) (c : Nat) (g : SegSt) : Bool :=
  !ingBit s c F.ing0W3ClaimMode || claimFor s c g.due == some g.claim

-- Segments and their copies (R176 to R178).

/-- The number of a claim in a segment's key. -/
def claimKey (s : State) (c : Nat) (k : Word) : Word := if ingBit s c F.ing0W3ClaimMode then k else 0

/-- Channels a frame carries. -/
def frameChans (h : AuxHdr) : List Nat :=
  if h.type = tMedia then (List.range h.chanCount).map (· + h.firstChan) else bitList 64 h.mask

/-- The key of a frame's segment (R176, R178). -/
def frameKey (h : AuxHdr) : Nat := if h.type = tMedia then h.firstChan else (frameChans h).headD 64

/-- Two segments have one key. DESIGN CHOICE (log 22): the due tick is part of it, so that equal SEQUENCE and FIRST_CHAN with
another TICK name another segment, and a won key is remembered until its due tick is over. -/
def SegSt.same (g : SegSt) (due seq key : Nat) (corr : Bool) (claim : Word) : Bool :=
  g.due == due && g.seq == seq && g.key == key && g.corr == corr && g.claim == claim

def segFind (s : State) (c due seq key : Nat) (corr : Bool) (claim : Word) : Option SegSt :=
  (s.ing c).segs.find? (fun g => g.same due seq key corr claim)

def segPut (s : State) (c : Nat) (g : SegSt) : State :=
  s.setIng c (fun x => { x with
    segs := x.segs.filter (fun y => !y.same g.due g.seq g.key g.corr g.claim) ++ [g] })

/-- The due tick of a frame at a context (R177). -/
def dueOf (s : State) (c : Nat) (h : AuxHdr) : Nat := h.tick + ingGet s c F.ing0W1DueOfs

/-- A header check of R172 fails; a CORRECTION is checked for what R178 says of it. -/
def badHeader (s : State) (c : Nat) (h : AuxHdr) : Bool :=
  let chans := ingGet s c F.ing0W1Channels
  let dom := ingGet s c F.ing0W1Domain
  let n := samplesOf dom
  h.domain != dom || h.fmt32 != ingBit s c F.ing0W1Fmt || h.chans != chans
    || (if h.type = tMedia then h.chanCount == 0 || decide (chans < h.firstChan + h.chanCount)
        else h.chanCount != (frameChans h).length || h.firstChan != 0 || (frameChans h).any (fun j => decide (chans ≤ j)))
    || h.payLen != h.chanCount * n * smpBytes h.fmt32 || decide (1024 < h.payLen)
    || decide (strgTick s + 8 < dueOf s c h)

/-- The context that a MEDIA or CORRECTION frame matches (R171). -/
def auxMatch (s : State) (q : Nat) (h : AuxHdr) : Option Nat :=
  (acceptedIng s).find? (fun c => ingKind s c == 0 && ingGet s c F.ing0W0SrcNode == h.node
    && ingGet s c F.ing0W0SrcStream == h.stream && (ingGet s c F.ing0W0PortMask).testBit q)

/-- The header of a matched frame is complete: it is late, malformed, the leading copy, a trailing copy or a duplicate
(R172, R176, R177). -/
def headerSeen (s : State) (q c : Nat) (raw : List Byte) : State :=
  let h := auxParse raw
  let due := dueOf s c h
  let open_ := fun (s : State) role => s.setPort q (fun x => { x with
    rxOpen := some { hdr := raw, ctx := c, role := role } })
  if due < strgTick s ∨ (s.ing c).done = some due then open_ (ingBump s c F.ing0W5Late 1) 0
  else if badHeader s c h then open_ (ingBump s c F.ing0W7Malformed 1) 0
  else
    let k := claimKey s c h.claim
    let corr := h.type == tCorrection
    let s := seeClaim s c due h.claim
    match segFind s c due h.seq (frameKey h) corr k with
    | some g => open_ s (if g.won then 3 else 2)
    | none =>
      open_ (segPut s c { due := due, seq := h.seq, key := frameKey h, corr := corr, claim := k,
                          chans := frameChans h, lead := q, open_ := true }) 1

/-- Samples of channel j of a frame; MUTED samples are zero (R166, R167). -/
def frameData (s : State) (c : Nat) (h : AuxHdr) (pay : List Byte) (j : Nat) : List Int :=
  let n := samplesOf (ingGet s c F.ing0W1Domain)
  if h.muted then List.replicate n 0 else payChan h.fmt32 n pay j

/-- One channel of the leading copy in cut-through is handed on (R174, R216). -/
def handChan (s : State) (q c due ch : Nat) (d : List Int) (shut : Bool) : State :=
  let b := blkAt s c due ch
  if b.final.isSome || b.st != .none || b.refused then s
  else if due ≠ strgTick s then putBlk s c { b with held := some d }
  else if shut then (putBlk s c { b with refused := true }).bump pgSpx F.spxCntRefusedCount
  else
    match admission s c (ingStrip s c + ch) with
    | (some r, s) => present s c { (blkAt s c due ch) with st := .ash, data := d, resv := r }
    | (none, s) =>
      (putBlk s c { (blkAt s c due ch) with refused := true }).setPort q (fun x => { x with
        rxOpen := x.rxOpen.map (fun o => { o with shut := true }) })

/-- The channels of the frame in reception whose last byte has come are handed on (R174). -/
def handOff (s : State) (q : Nat) (d : List Byte) : State :=
  match (s.port q).rxOpen with
  | none => s
  | some o =>
    let h := auxParse o.hdr
    let c := o.ctx
    let n := samplesOf (ingGet s c F.ing0W1Domain)
    let got := d.length - (l3Ofs d + 32)
    let full := min h.chanCount (got / (n * smpBytes h.fmt32))
    if o.role ≠ 1 || h.type ≠ tMedia || !cutThrough s c || (s.ing c).done = some (dueOf s c h)
        || !claimUsed s c { due := dueOf s c h, claim := claimKey s c h.claim } then s
    else
      let pay := d.drop (l3Ofs d + 32)
      let s := ((List.range full).drop o.done).foldl (fun s j =>
        let shut := match (s.port q).rxOpen with | some o => o.shut | none => false
        handChan s q c (dueOf s c h) (h.firstChan + j) (frameData s c h pay j) shut) s
      s.setPort q (fun x => { x with rxOpen := x.rxOpen.map (fun o => { o with done := max o.done full }) })

/-- The data of a winning copy reach their blocks (R174, R175, R178, R229). -/
def applyCopy (s : State) (c : Nat) (g : SegSt) (p : CopySt) : State :=
  let s := (g.chans.zip p.data).foldl (fun s e =>
    if g.corr then finalData s c g.due e.1 e.2
    else if p.retract.getLsbD e.1 then retractChan s c g.due e.1
    else if p.ivory then finalData s c g.due e.1 e.2
    else heldData s c g.due e.1 e.2) s
  let s := if g.corr && p.last then
      (List.range (ingChans s c)).foldl (fun s ch => confirmHeld s c g.due ch) s
    else s
  settle s c g.due

/-- A copy wins its segment (R176, R177, R494). -/
def winSeg (s : State) (c : Nat) (g : SegSt) (p : CopySt) : State :=
  let g' := { g with won := true, open_ := false, trail := [], winner := some p }
  let s := segPut s c g'
  let s := if g.corr then s else ingBump s c (if p.port = 0 then F.ing0W6WinA else F.ing0W6WinB) 1
  let last := ingRd s c F.ing0W4LastSeq
  let d := (g.seq + 65536 - last) % 65536
  let s := if !g.corr && d != 0 && decide (d < 32768) then ingSet s c F.ing0W4LastSeq g.seq else s
  if claimUsed s c g then applyCopy s c g' p else s

/-- The leading copy of a segment has failed: its blocks turn Soot (R173, Table 7.1), and a trailing copy that ended
good wins (R176). -/
def leadFails (s : State) (c : Nat) (g : SegSt) : State :=
  let s := segPut s c { g with open_ := false, failed := true }
  let s := if !claimUsed s c g then s
    else g.chans.foldl (fun s ch =>
      let b := blkAt s c g.due ch
      if g.corr then
        (if b.final.isNone && b.st == .awaiting then sootBlk s c b else s)
      else if b.st = .ash && b.final.isNone then sootBlk s c b
      else if b.st = .none && b.final.isNone then putBlk s c { b with held := none }
      else s) s
  match g.trail with
  | p :: _ => winSeg s c { g with open_ := false, failed := true } p
  | [] => s

/-- A matched frame that is neither discarded on its header nor a duplicate fails: it counts once in SOOT (R173). -/
def frameFails (s : State) (o : RxOpen) : State :=
  if o.role = 1 ∨ o.role = 2 then ingBump s o.ctx F.ing0W7Soot 1 else s

/-- The segment of the frame in reception, where its due tick has not reached its CDL. -/
def openSeg (s : State) (o : RxOpen) : Option SegSt :=
  let h := auxParse o.hdr
  let due := dueOf s o.ctx h
  if (o.role ≠ 1 ∧ o.role ≠ 2) ∨ due < strgTick s ∨ (s.ing o.ctx).done = some due then none
  else segFind s o.ctx due h.seq (frameKey h) (h.type == tCorrection) (claimKey s o.ctx h.claim)

/-- A matched frame ends; `good` is the outcome of the MAC's checks (R173, R176). -/
def frameEnds (s : State) (q : Nat) (d : List Byte) (good : Bool) : State :=
  match (s.port q).rxOpen with
  | none => s
  | some o =>
    let f := auxOf d
    let c := o.ctx
    let sound := good && f.sound && (f.confirm == 1 || f.confirm == 2)
    let s := s.setPort q (fun x => { x with rxOpen := none })
    let s := if sound then s else frameFails s o
    match openSeg s o with
    | none => s
    | some g =>
      let p : CopySt := { port := q, ivory := f.confirm == 1, retract := f.retract, last := f.hdr.lastSeg,
                          data := (List.range f.hdr.chanCount).map (frameData s c f.hdr f.pay) }
      if !sound then (if o.role = 1 then leadFails s c g else s)
      else if o.role = 1 || (g.failed && !g.won) then winSeg s c g p
      else if g.won then s
      else segPut s c { g with trail := g.trail ++ [p] }

/-- A frame in reception is cut off (R77, R173). -/
def frameCut (s : State) (q : Nat) : State :=
  match (s.port q).rxOpen with
  | none => s
  | some o =>
    let s := frameFails (s.setPort q (fun x => { x with rxOpen := none })) o
    match openSeg s o with
    | some g => sealRerun (if o.role = 1 then leadFails s o.ctx g else s)
    | none => s

/-- The context takes its next state, with the events of R181. -/
def setPos (s : State) (c : Nat) (p : CtxPos) : State :=
  let old := (s.ing c).state
  let s := s.setIng c (fun x => { x with state := p.state, misses := p.misses, goods := p.goods, ramp := p.ramp })
  if old = 1 ∧ p.state = 2 then eventF s pgStrg F.strgEvtCtxStart
  else if old ≠ 4 ∧ p.state = 4 then eventF s pgStrg F.strgEvtCtxFaded
  else s

-- The commit deadline (R179 to R181, R206, R207, R230).

/-- A channel commits: a block, or none where no concealment is to be had. -/
def commitChan (s : State) (c due ch : Nat) (d : Option (List Int)) : State :=
  let b := blkAt s c due ch
  let strip := ingStrip s c + ch
  match d with
  | some x => concealNote (ivoryBlk s c b x) strip due x
  | none =>
    let s := putBlk s c { b with st := .ivory, data := [], resv := [] }
    let a : Blk := { tick := due, absent := true, st := .ivory }
    let s := { s with lat := { s.lat with ins := s.lat.ins.put strip a } }
    if b.st = .none then s else noteReplaced s due strip b.resv

/-- The block that stands for a channel without final data: its concealment, or for KIND 1 its last sample held, which
the fade takes to zero (R181, R206, R296). -/
def standIn (s : State) (c ch : Nat) : Option (List Int) :=
  if ingKind s c = 1 then some (List.replicate (samplesOf (ingDom s c)) (at0 (s.ing c).last ch))
  else concealOf s (ingStrip s c + ch) (concealMode s c)

/-- A context commits its tick (R181, R206); the fade of a KIND 1 context starts from its last samples, ramped or not
(R296). -/
def commitCtx (s : State) (c due : Nat) (miss all force : Bool) : State :=
  let dom := ingDom s c
  let n := ingChans s c
  let x := s.ing c
  let kind := ingKind s c
  let fin := fun ch => if all then none else (blkAt s c due ch).final
  let base := (List.range n).map (fun ch => match fin ch with
    | some d => some d
    | none => standIn s c ch)
  let lost := ((List.range n).filter (fun ch => (fin ch).isNone)).length
  let (p, law) := ingNext (posOf x) kind miss force
  let law := if x.fade then Law.fade else match law with
    | .rampFade t => if kind = 1 then Law.fade else .rampFade t
    | l => l
  let s := if kind = 0 ∧ (x.state = 2 ∨ x.state = 3 ∨ x.state = 5) then s.bumpBy pgSpx F.spxCntConcealCount lost else s
  let s := setPos s c p
  let out := base.map (fun d => if law = .silence then some (underLaw dom law []) else d.map (underLaw dom law))
  let s := s.setIng c (fun y => { y with
    await := false, force := false, fade := false, last := out.map (fun d => at0 (d.getD []) (samplesOf dom - 1)) })
  (out.zipIdx).foldl (fun s e => commitChan s c due e.2 e.1) s

/-- The receive sides of local ports that are members of a group (R310). -/
def groupPorts (s : State) (g : Nat) : List Nat :=
  ((List.range 16).map pgTdm).filter (fun p => s.running p && s.actIs p F.tdmRxRxEn && !s.actIs p F.tdmCfgAsrc
      && s.act p F.tdmCfgGroup == g)
    ++ ((List.range 4).map pgAesi).filter (fun p => s.running p && !s.actIs p F.aesiCfgMode
      && s.act p F.aesiCfgGroup == g)

/-- The state of a receive side (Table 10.2). -/
def rxState (s : State) (p : Nat) : Nat :=
  if pageKind p = .tdm then s.rd p F.tdmStatRxState else s.rd p F.aesiStatState

/-- Every local member of a group would deliver frames (R310). -/
def portsGood (s : State) (g : Nat) : Bool := (groupPorts s g).all (fun p => rxState s p == 3 || rxState s p == 4)

/-- Domain of a port: RATE, or the nominal rate of an AES3 receiver, after a loss of lock the last one (R297, R315,
R316). -/
def audDom (s : State) (p : Nat) : Nat :=
  match pageKind p with
  | .tdm => s.act p F.tdmCfgRate
  | .aesi => (s.aud p).nom
  | _ => s.act p F.aesoCfgRate

/-- The input strips of a receive side, in the order of its channels (R302, R315). -/
def rxStrips (s : State) (p : Nat) : List Nat :=
  if pageKind p = .tdm then
    (List.range (popCount 32 (s.act p F.tdmRxMaskSlots))).map (· + s.act p F.tdmRxRxBase)
  else
    (if s.actIs p F.aesiCfgAEn then [s.act p F.aesiCfgStripBase] else [])
      ++ (if s.actIs p F.aesiCfgBEn then [s.act p F.aesiCfgStripBase + 1] else [])

/-- The receive side takes a state; its FIFO is shown. -/
def rxSet (s : State) (p st : Nat) : State :=
  let n := (s.aud p).rx.length
  if pageKind p = .tdm then (s.setF p F.tdmStatRxState st).setF p F.tdmStatRxFill n
  else (s.setF p F.aesiStatState st).setF p F.aesiStatFill n

/-- Samples of a ramp-in, the first being number k (R295). -/
def rampFrom (dom k : Nat) (x : List Int) : List Int :=
  (x.zipIdx).map (fun e => sat32 (rne (e.1 * ((k + e.2 + 1 : Nat) : Int)) (dom + 3)))

/-- The blocks of a tick, one for each strip of a port, reach the lattice as Ivory; a strip that runs in another domain
carries silence, and CFG_RANGE is raised once per image (R302, R304). -/
def deliver (s : State) (p tick dom : Nat) (blocks : List (Nat × List Int)) : State :=
  blocks.foldl (fun s e =>
    let runs := (stripDomain s (1024 + e.1)).getD dom
    let d := if runs ≠ dom then List.replicate (samplesOf runs) 0 else e.2
    let s := if runs ≠ dom && !(s.aud p).told.contains e.1 then
        raise (s.setAud p (fun x => { x with told := e.1 :: x.told })) p 2 (w32 e.1)
      else s
    { s with lat := { s.lat with ins := s.lat.ins.put e.1 { tick := tick, st := .ivory, data := d } } }) s

/-- A fade-out from the last samples delivered (R296). -/
def rxFadeBlocks (s : State) (p dom chans : Nat) : List (List Int) × State :=
  ((List.range chans).map (fun c => fadeOut dom (List.replicate (samplesOf dom) (at0 (s.aud p).last c))),
    s.setAud p (fun x => { x with last := [] }))

/-- The blocks of a tick that a port had to deliver reach the lattice: ramped in RAMP, and after a fade of its group faded
out, then silent (R295, R310). -/
def rxGive (s : State) (p tick : Nat) (ramp : Bool) (raw : List (List Int)) : State :=
  let dom := audDom s p
  let n := samplesOf dom
  let strips := rxStrips s p
  let x := s.aud p
  if x.grp then
    let (out, s) := rxFadeBlocks s p dom strips.length
    deliver s p tick dom (strips.zip out)
  else
    let out := if ramp then raw.map (rampFrom dom (x.ramp * n)) else raw
    deliver (s.setAud p (fun y => { y with
      last := out.map (fun b => at0 b (n - 1)), ramp := if ramp then y.ramp + 1 else y.ramp })) p tick dom (strips.zip out)

/-- A group that was faded has committed a tick: the ports' blocks of the tick that waited for it ramp in where the group
left FADED, and are silent where it did not (R184, R310). -/
def portsReturn (s : State) (g tick : Nat) : State :=
  let back := !(groupOf s g).any (fun c => (s.ing c).state == 4)
  (groupPorts s g).foldl (fun s p =>
    match (s.aud p).pend with
    | some (t, raw) =>
      if t = tick then
        let s := s.setAud p (fun x => { x with pend := none, grp := x.grp && !back, ramp := if back then 0 else x.ramp })
        rxGive (if back then rxSet s p 3 else s) p tick true raw
      else s
    | none => s) s

/-- The local members of a group fade with it (R184, R310). -/
def portsFade (s : State) (g : Nat) : State :=
  (groupPorts s g).foldl (fun s p => s.setAud p (fun x => { x with grp := true, grpGood := 0 })) s

/-- The group commit point: every member that awaits it commits data, or every one conceals (R184, R207). A member of
KIND 1 that misses or conceals fades, and every member with it; a member in WAIT fades with the others, and joins a faded
group as FADED, so that all ramp in together. -/
def commitGroup (s : State) (g due : Nat) : State :=
  let ms := (groupOf s g).filter (fun c => (s.ing c).await)
  let miss := ms.any (fun c => (s.ing c).missed || (s.ing c).force || (s.ing c).fade)
    || (ms.any (fun c => (s.ing c).state == 4) && !portsGood s g)
  let fade := miss && groupFades s g
  let s := match ms.find? (fun c => (s.ing c).state == 4) with
    | some f => (ms.filter (fun c => (s.ing c).state == 1)).foldl (fun s c => setPos s c { state := 4, goods := (s.ing f).goods }) s
    | none => s
  let s := ms.foldl (fun s c => commitCtx s c due miss miss fade) s
  let s := portsReturn s g due
  if fade then portsFade s g else s

/-- Every member of a lockstep group has reached its commit of a tick: the group commits (R207). -/
def groupReached (s : State) (g due : Nat) : State :=
  if (groupOf s g).all (fun k => (s.ing k).done == some due) then commitGroup s g due else s

/-- MISSED grows, and STREAM_LATE follows its growth in the window (R179, R180). -/
def countMissed (s : State) (c n : Nat) : State :=
  if n = 0 then s
  else
    let s := ingBump s c F.ing0W5Missed n
    let s := s.setIng c (fun x => { x with late := x.late + n })
    let th := s.act pgStrg F.strgLateThresh
    if th ≠ 0 ∧ th ≤ (s.ing c).late ∧ !(s.ing c).lateRaised then
      raise (s.setIng c (fun x => { x with lateRaised := true })) pgStrg F.strgFltStreamLate.lo (w32 c)
    else s

/-- What R179 adds for a due tick: keys seen and not won, and one for channels that no copy covers. -/
def missedCount (s : State) (c due : Nat) : Nat :=
  let segs := (s.ing c).segs.filter (fun g => g.due == due && !g.corr)
  let keys := (segs.map (fun g => (g.seq, g.key))).eraseDups
  let lost := keys.filter (fun k => !segs.any (fun g => (g.seq, g.key) == k && g.won))
  let covered := fun ch => segs.any (fun g => g.chans.contains ch)
  lost.length + (if (List.range (ingChans s c)).all covered then 0 else 1)

/-- The final data that a claim's copies gave a channel (R178, R494). -/
def lowerFinal (s : State) (c due : Nat) (k : Word) (ch : Nat) : Option (List Int) :=
  let mine := (s.ing c).segs.filter (fun g => g.due == due && g.claim == k && g.won)
  let pick := fun (corr : Bool) => mine.findSome? (fun g =>
    match g.winner with
    | some p =>
      if g.corr = corr then
        ((g.chans.zip p.data).find? (fun e => e.1 == ch)).bind (fun e =>
          if corr || !p.retract.getLsbD ch then some (p.ivory || corr, e.2) else none)
      else none
    | none => none)
  let last := mine.any (fun g => g.corr && (match g.winner with | some p => p.last | none => false))
  match pick true with
  | some e => some e.2
  | none => match pick false with
    | some (iv, d) => if iv || last then some d else none
    | none => none

/-- At the CDL a lower claim takes over where the accepted one has no winning copy; its copies of later due ticks that
have won are used from then on (R494). -/
def claimSwitch (s : State) (c due : Nat) : State :=
  if !ingBit s c F.ing0W3ClaimMode then s
  else
    let won := (s.ing c).segs.filter (fun g => g.due == due && g.won && !g.corr)
    let acc := claimFor s c due
    if won.any (fun g => some g.claim == acc) then s
    else
      let best := won.foldl (fun (b : Option Word) g => match b with
        | none => some g.claim
        | some k => if claimHigher g.claim k then some g.claim else b) none
      match best with
      | none => s
      | some k =>
        let s := if ingBit s c F.ing0W3Shadow then
            (List.range (ingChans s c)).foldl (fun s ch =>
              match lowerFinal s c due k ch with
              | some d => finalData s c due ch d
              | none => s) s
          else s
        if (s.ing c).claims.any (fun e => decide (due < e.1)) then s
        else
          let s := takeClaim s c (due + 1) k
          ((s.ing c).segs.filter (fun g => decide (due < g.due) && g.won && g.claim == k)).foldl (fun s g =>
            match g.winner with
            | some p => applyCopy s c g p
            | none => s) s

/-- COMMIT_DEADLINE: the CDL of the current tick of a context (R179 to R181, R206, R207, R230, R494). -/
def cdlEvent (s : State) (c : Nat) : State :=
  let due := strgTick s
  let x := s.ing c
  if !x.accepted || ingKind s c != 0 || x.done == some due then s
  else
    let s := countMissed s c (missedCount s c due)
    let s := claimSwitch s c due
    let lost := (List.range (ingChans s c)).filter (fun ch => (blkAt s c due ch).final.isNone)
    let s := if lost.any (fun ch =>
          let b := blkAt s c due ch
          (b.retracted && b.st == .soot) || b.st == .awaiting) then
        raise s pgSpx F.spxFltRetractMiss.lo (w32 c)
      else s
    let s := s.setIng c (fun x => { x with done := some due, missed := !lost.isEmpty })
    let g := ingGroup s c
    if lockstep s g then
      sealRerun (groupReached (s.setIng c (fun x => { x with await := true })) g due)
    else sealRerun (commitCtx s c due (!lost.isEmpty) false (s.ing c).force)

-- The tick at STRG (R195, R205).

/-- The segment of which a channel's data before its due tick came: the one that covers it (R216). -/
def segOf (s : State) (c due ch : Nat) : Option SegSt :=
  (s.ing c).segs.find? (fun g => g.due == due && !g.corr && g.chans.contains ch)

/-- The frame in reception of which a segment's data come is shut: every later channel of it is refused (R216). -/
def shutFrame (s : State) (c : Nat) (g : SegSt) : State :=
  if g.open_ then
    s.setPort g.lead (fun x => { x with rxOpen := x.rxOpen.map (fun o =>
      if o.ctx = c ∧ o.role = 1 then { o with shut := true } else o) })
  else s

/-- Blocks that came before their due tick are presented (R205); of each frame the channels are admitted in their order,
and none after one that is refused (R216, R221). -/
def presentDue (s : State) (c due : Nat) : State :=
  let s := settle s c due
  if !cutThrough s c then s
  else
    ((List.range (ingChans s c)).foldl (fun (r : List Nat × State) ch =>
      let (shut, s) := r
      let b := blkAt s c due ch
      match b.st, b.final, b.held with
      | .none, none, some d =>
        let g := (segOf s c due ch).getD {}
        if shut.contains g.key then
          (shut, (putBlk s c { b with refused := true }).bump pgSpx F.spxCntRefusedCount)
        else
          match admission s c (ingStrip s c + ch) with
          | (some r, s) => (shut, present s c { (blkAt s c due ch) with
              st := if g.open_ then .ash else .awaiting, data := d, resv := r })
          | (none, s) => (g.key :: shut, shutFrame (putBlk s c { (blkAt s c due ch) with refused := true }) c g)
      | _, _, _ => r) ([], s)).2

-- AES67 ingress (R185 to R189).

/-- Samples of an AES67 packet, per channel (Table 6.6). -/
def packetTicks (ptime : Nat) : Nat := if ptime = 0 then 3 else if ptime = 1 then 6 else 24

/-- The samples of a tick that a context's buffer holds, per channel; none where one is missing (R188). -/
def jbTick (s : State) (c tick : Nat) : Option (List (List Int)) :=
  let n := samplesOf (ingDom s c)
  let at_ := fun ch k => (s.ing c).jb.findSome? (fun p =>
    if p.play ≤ k then ((p.data[ch]?).bind (fun l => l[k - p.play]?)) else none)
  (List.range (ingChans s c)).mapM (fun ch => (List.range n).mapM (fun j => at_ ch (tick * n + j)))

/-- JB_FILL counts the samples held, in the unit of S. -/
def jbShow (s : State) (c : Nat) : State :=
  let n := ((s.ing c).jb.map (fun p => (p.data.headD []).length)).sum
  ingSet s c F.ing1W5JbFill (min 65535 n)

/-- Samples whose play tick is over leave the buffer, and their cells return (R187). -/
def jbGone (s : State) (c tick : Nat) : State :=
  let n := samplesOf (ingDom s c)
  let over_ := fun (q : JbPacket) => decide (q.play + (q.data.headD []).length ≤ (tick + 1) * n)
  let gone := (s.ing c).jb.filter over_
  let s := s.setIng c (fun x => { x with jb := x.jb.filter (fun q => !over_ q) })
  jbShow (gone.foldl (fun s q => intGive s q.cells) s) c

/-- The start of a tick of an AES67 context (R171, R181, R188): its samples, or a miss, which UNDERRUN counts; while STRG
is off or resets every tick misses. The tick commits at once, or with its lockstep group (R184, R207). -/
def jbPlay (s : State) (c tick : Nat) : State :=
  let got := if s.running pgStrg && !s.resetting pgStrg then jbTick s c tick else none
  let s := if got.isNone then ingBump s c F.ing1W6Underrun 1 else s
  let s := s.setIng c (fun x => { x with
    blocks := (List.range (ingChans s c)).map (fun ch => { due := tick, chan := ch, final := got.map (nth [] · ch) }),
    done := some tick, missed := got.isNone, await := true })
  let s := jbGone s c tick
  if lockstep s (ingGroup s c) then s else commitCtx s c tick got.isNone false (s.ing c).force

/-- The RTP payload of a datagram: sequence number, timestamp and payload bytes (R185). -/
def rtpOf (pay : List Byte) : Option (Nat × Nat × List Byte) :=
  let b0 := beAt pay 0 1
  let cc := b0 % 16
  let o := 12 + 4 * cc
  let ext := if b0 / 16 % 2 = 1 then 4 + 4 * beAt pay (o + 2) 2 else 0
  let body := pay.drop (o + ext)
  let padN := if b0 / 32 % 2 = 1 then beAt pay (pay.length - 1) 1 else 0
  if pay.length < 12 ∨ b0 / 64 ≠ 2 ∨ body.length < padN then none
  else some (beAt pay 2 2, beAt pay 4 4, body.take (body.length - padN))

/-- The number whose low 32 bits are given and that lies nearest to another (R186). -/
def nearest32 (now w : Nat) : Nat :=
  let base := now / 2 ^ 32 * 2 ^ 32 + w
  if base + 2 ^ 31 < now then base + 2 ^ 32
  else if now + 2 ^ 31 < base ∧ 2 ^ 32 ≤ base then base - 2 ^ 32 else base

/-- The KIND 1 context that a UDP/IPv4 datagram matches (R171). -/
def aes67Match (s : State) (q : Nat) (d : List Byte) : Option Nat :=
  match ipv4Of d, udpPort d with
  | some h, some port =>
    (acceptedIng s).find? (fun c => ingKind s c == 1 && ingGet s c F.ing1W1DstIp == h.dst
      && ingGet s c F.ing1W0UdpPort == port && (ingGet s c F.ing1W0PortMask).testBit q)
  | _, _ => none

/-- A good datagram of an AES67 context (R185 to R189). -/
def jbReceive (s : State) (c : Nat) (d : List Byte) : State :=
  let dom := ingDom s c
  let n := samplesOf dom
  let chans := ingChans s c
  let len := packetTicks (ingGet s c F.ing1W3Ptime) * n
  let b := if ingBit s c F.ing1W3L24 then 3 else 2
  let u := (udpOf d).getD 0
  let pay := (d.drop (u + 8)).take (beAt d (u + 4) 2 - 8)
  match rtpOf pay with
  | none => ingBump s c F.ing1W7Malformed 1
  | some (seq, ts, body) =>
    if body.length ≠ chans * len * b then ingBump s c F.ing1W7Malformed 1
    else if (s.ing c).rtpSeen.contains seq then ingBump s c F.ing1W7Dup 1
    else
      let cur := strgTick s
      let w := (ts + 2 ^ 32 - ingGet s c F.ing1W4RtpOfs) % 2 ^ 32
      let play := nearest32 (cur * n) w + ingGet s c F.ing1W0JbTicks * n
      let gone := (cur + 1) * n - play
      if cur + 255 < play / n then ingBump s c F.ing1W7Malformed 1
      else
        let s := if 0 < gone then ingBump s c F.ing1W6Late 1 else s
        if len ≤ gone then s
        else
          let smp := fun ch k => ofBits (8 * b) (natBE ((body.drop ((k * chans + ch) * b)).take b)) * 2 ^ (32 - 8 * b)
          let data := (List.range chans).map (fun ch => (List.range (len - gone)).map (fun k => smp ch (gone + k)))
          let cells := cellsOf ((d.length + 3) / 4)
          match intTake s cells with
          | none => s.bump pgStrg F.strgCntPoolDropCount
          | some s =>
            let p : JbPacket := { play := play + gone, data := data, cells := cells, rtpSeq := seq }
            let s := s.setIng c (fun x => { x with jb := x.jb ++ [p], rtpSeen := (seq :: x.rtpSeen).take 128 })
            jbShow (ingSet s c F.ing1W5LastSeq seq) c

/-- What an ingress context holds of frames is dropped, and its cells return. -/
def ingDrop (s : State) (c : Nat) : State :=
  let s := (s.ing c).jb.foldl (fun s p => intGive s p.cells) s
  let keep := fun (b : BlockSt) => { b with held := none, final := if b.st = .ivory then b.final else none }
  s.setIng c (fun x => { x with
    jb := [], segs := [], await := x.await,
    blocks := (x.blocks.filter (fun b => b.st != .none)).map keep })

-- EN of contexts (R195).

/-- The contexts whose EN reads 1 in force, of the pages from a first one on, EN being in the word at an offset. -/
def enabledCtxs (s : State) (page word : Nat) : List Nat :=
  (List.range 512).filter (fun c =>
    (s.regs.find (keyOf (page + c / 128) (c % 128 * 32 + word))).isSome
      && (s.inForce (page + c / 128) (c % 128 * 32 + word)).getLsbD 31)

/-- EN of an ingress context is accepted at 1 (R195, R208). DESIGN CHOICE (log 22): a KIND 1 context accepted while STRG is
disabled stays in WAIT, where one that is in WAIT as STRG stops enters FADED (R171). -/
def ingAccept (s : State) (c : Nat) : State :=
  let p := ingPage c
  let o := c % 128 * 32
  let s := s.setIng c (fun _ => { accepted := true, state := 1 })
  let s := if ingKind s c = 0 then
      (List.range 4).foldl (fun s i => s.setReg p (o + 0x10 + 4 * i) 0) s
    else (List.range 3).foldl (fun s i => s.setReg p (o + 0x14 + 4 * i) 0) s
  (List.range (ingChans s c)).foldl (fun s ch => concealClear s (ingStrip s c + ch)) s

/-- EN of an ingress context is accepted at 0 (Table 6.5). -/
def ingLeave (s : State) (c : Nat) : State :=
  let s := ingDrop s c
  let s := (s.ing c).blocks.foldl (fun s b => giveBack s b.due b.resv) s
  s.setIng c (fun x => { done := x.done })

/-- SPX's local tick boundary (R216, R222, R223). -/
def spxBoundary (s : State) : State := spxTick s s.time.tick

/-- A hold has lasted HOLD ticks (R223). -/
def safExpire (s : State) (c : Nat) : State :=
  if s.strm.holds.find c = some 0 then safRelease s c else s

/-- SPX stops or is reset (R14, R51): no hold and no reservation stands, a staged table in the making is dropped, and so
is a rerun that LATG has not started. One that it has started is LATG's to finish (R217). -/
def spxReset (s : State) : State :=
  let s := { s with strm := { s.strm with
    holds := [], holdNext := none, safEnd := [], refused := false, ledger := [], ledgerTick := none, coneBusy := false,
    reruns := s.strm.reruns.map (fun (r : Rerun) => { r with lost := !r.running, resv := [] }),
    ing := s.strm.ing.map (fun (e : Nat × IngSt) => (e.1, { e.2 with
      blocks := e.2.blocks.map (fun (b : BlockSt) => { b with resv := [] }) })) } }
  showHolds (s.setF pgSpx F.spxStatConeBusy 0)

/-- A refusal of a write to SPX (Table 7.4). -/
def spxVeto (ofs : Nat) (v : Word) : Option Veto :=
  match ofs with
  | 0x040 => vetoUnless (1 ≤ getBits v 31 16) .range
  | 0x044 => vetoUnless (getBits v 13 0 ≤ 12000) .range
  | _ => none

/-- SPX_SAF_END (R223). -/
def spxWrote (s : State) (ofs : Nat) (v : Word) : State :=
  if ofs = 0x0C0 ∧ v.getLsbD 31 ∧ (s.strm.holds.find (getBits v 8 0)).isSome then
    { s with strm := { s.strm with safEnd := s.strm.safEnd ++ [getBits v 8 0] } }
  else s

/-- Words of an ingress entry that are views: SAF and STATE of W4 (Table 6.7). -/
def ingView (s : State) (page ofs : Nat) : Option Word :=
  let c := (page - 0x31) * 128 + ofs / 32
  if ofs % 32 = 0x10 ∧ ingRd s c F.ing0W0Kind = 0 then
    let w := setBits (s.reg page ofs) 2 0 (s.ing c).state
    some (setBits w 3 3 (if (s.ing c).accepted && !cutThrough s c then 1 else 0))
  else none

end Sys2Proof.Machine
end

