-- ==== Sys2Proof/Machine/Egress.lean ====
section
/-! DEFINITION. Egress streams: segments, CORRECTION frames, AES67 packets; and STRG's tick and registers (06, 07). -/

namespace Sys2Proof.Machine

def egrRd (s : State) (c : Nat) (f : Fld) : Nat := s.rd (egrPage c) (egrFld f c)
def egrSet (s : State) (c : Nat) (f : Fld) (v : Nat) : State := s.setF (egrPage c) (egrFld f c) v
def egrBump (s : State) (c : Nat) (f : Fld) (n : Nat) : State := s.bumpBy (egrPage c) (egrFld f c) n
def egrBit (s : State) (c : Nat) (f : Fld) : Bool := egrGet s c f != 0

/-- The committed output block of a strip in a tick: none while it is not decided, and within it none where it is absent
(R191, R204). A strip that runs in another domain than asked is absent. -/
def chanOut (s : State) (strip dom tick : Nat) : Option (Option (List Int)) :=
  match committedOut s strip tick with
  | some d => some (if d.length = samplesOf dom then some d else none)
  | none =>
    if tick < s.arch.began.get 0 pgLatg || (producer s strip).isNone || !s.running pgLatg then some none else none

/-- What a strip's output holds in a tick, committed or not. -/
def rawOut (s : State) (strip tick : Nat) : Option (List Int) :=
  match committedOut s strip tick with
  | some d => some d
  | none =>
    match s.lat.outs.find strip with
    | some b => if b.tick = tick ∧ !b.absent then some b.data else none
    | none => none

/-- A mute hold of SEQ covers an egress context in a tick (R420, R421). -/
def muteHeld (s : State) (c tick : Nat) : Bool :=
  s.seq.holds.any (fun h => decide (h.first ≤ c ∧ c ≤ h.last ∧ h.from_ ≤ tick ∧ tick ≤ h.to_))

/-- A context's frames of a tick carry zero samples (R193, R421). -/
def mutedTick (s : State) (c tick : Nat) : Bool := s.flt.safeOut || muteHeld s c tick

/-- A KIND 0 context sends speculatively (R191). -/
def sendsSpec (s : State) (c : Nat) : Bool :=
  egrKind s c == 0 && egrBit s c F.egr0W0SpecOut && egrBit s c F.egr0W0PeerAsh

/-- First channel and number of channels of a segment (R190). -/
def segChans (s : State) (c seg : Nat) : Nat × Nat :=
  let n := egrGet s c F.egr0W2Channels
  let segs := egrGet s c F.egr0W2Segsm1 + 1
  let per := (n + segs - 1) / segs
  (seg * per, min per (n - seg * per))

/-- Destination address of a context (Tables 6.9 and 6.10). -/
def egrDst (s : State) (c : Nat) : Nat :=
  if egrKind s c = 0 then egrGet s c F.egr0W2DstMacHi * 2 ^ 32 + egrGet s c F.egr0W1DstMacLo
  else
    let ip := egrGet s c F.egr1W1DstIp
    if ip / 2 ^ 28 = 14 then 0x01005E000000 + ip % 2 ^ 23
    else egrGet s c F.egr1W6DstMacHi * 2 ^ 32 + egrGet s c F.egr1W7DstMacLo

/-- The header of a context's frames of a tick (R190). -/
def egrHdr (s : State) (c tick seq : Nat) : AuxHdr :=
  { type := tMedia, ashOk := s.actIs pgStrg F.strgCfgAshAccept, node := s.act pgStrg F.strgNodeNodeId,
    stream := egrGet s c F.egr0W0StreamId, seq := seq, tick := tick, claim := s.reg pgRed F.redClaimGen.ofs,
    domain := egrGet s c F.egr0W2Domain, fmt32 := egrBit s c F.egr0W2Fmt, chans := egrGet s c F.egr0W2Channels }

/-- An express stream frame of a tick on the ports of a mask, where pair egress is sent (R493). -/
def sendStream (s : State) (c tick mask rank : Nat) (body : List Byte) : State :=
  if pairSends s tick then
    offer s mask (fun q => { express := true, rank := rank, bytes := auxOnPort s q (egrDst s c) true body })
  else s

/-- Change the segments of a context. -/
def setSegs (s : State) (c : Nat) (f : EgrSeg → EgrSeg) : State :=
  s.setEgr c (fun x => { x with segs := x.segs.map f })

/-- The header of a segment's frame (R166, R190). -/
def segHdr (s : State) (c : Nat) (e : EgrSeg) (muted spec : Bool) : AuxHdr :=
  let (first, n) := segChans s c e.seg
  { (egrHdr s c e.tick e.seqNo) with
    spec := spec, muted := muted, lastSeg := e.seg == egrGet s c F.egr0W2Segsm1, chanCount := n, firstChan := first }

/-- A segment sent committed on the ports of a mask (R191). -/
def sendMedia (s : State) (c : Nat) (e : EgrSeg) (mask : Nat) (muted : Bool) (data : List (List Int)) : State :=
  let h := segHdr s c e muted false
  let s := sendStream s c e.tick mask 2 (auxBody h (payBytes h.fmt32 data) 1 0)
  egrBump s c F.egr0W5TxMedia (popCount 4 mask)

/-- The committed samples of channels of a context in a tick: none while one is not decided; within, none where one is
absent. Muted, they are zero (R193). -/
def egrData (s : State) (c tick first n : Nat) (muted : Bool) : Option (Option (List (List Int))) :=
  let dom := egrGet s c F.egr0W2Domain
  let base := egrGet s c F.egr0W0StripBase
  if muted then some (some (List.replicate n (List.replicate (samplesOf dom) 0)))
  else
    ((List.range n).mapM (fun j => chanOut s (base + first + j) dom tick)).map (fun l => l.mapM id)

/-- What a committed segment carries, from the output commit point of its tick on (R191, R204). -/
def egrSent (s : State) (c tick first n : Nat) (muted : Bool) : Option (Option (List (List Int))) :=
  if tick < s.arch.began.get 0 pgLatg then egrData s c tick first n muted else none

/-- SEGMENT_SEND: the oldest segment of its number that is due to be sent committed (R191, R193, R421). -/
def segmentGo (s : State) (c seg : Nat) : State :=
  if !s.running pgStrg || !(s.egr c).accepted || egrKind s c != 0 then s
  else
    match (s.egr c).segs.find? (fun e => e.seg == seg && !e.sent && (mutedTick s c e.tick || !sendsSpec s c)) with
    | none => s
    | some e =>
      let muted := mutedTick s c e.tick
      let (first, n) := segChans s c seg
      let done := fun s => setSegs s c (fun y => if y.tick = e.tick ∧ y.seg = seg then { y with sent := true } else y)
      match egrSent s c e.tick first n muted with
      | none => s
      | some none => done s
      | some (some d) => done (sendMedia s c e (egrGet s c F.egr0W0PortMask) muted d)

/-- What a speculative segment is as it leaves. -/
inductive SpecOut where
  /-- It has left the list of segments. -/
  | gone
  /-- Its frame on the port. -/
  | whole (bytes : List Byte)
  /-- Samples of a channel are not there: the bytes of its frame before them (R191). -/
  | stomp (bytes : List Byte)
  deriving DecidableEq, Repr

/-- The content of a speculative segment as it leaves on a port (R191, R227); muted, it is sent as a committed one of zero
samples (R193). -/
def specForm (s : State) (q c seg tick : Nat) : SpecOut × State :=
  match (s.egr c).segs.find? (fun e => e.seg == seg && e.tick == tick && e.spec) with
  | none => (.gone, s)
  | some e =>
    let (first, n) := segChans s c seg
    let base := egrGet s c F.egr0W0StripBase
    let here := fun (y : EgrSeg) => y.tick == e.tick && y.seg == seg
    let frame := fun h pay confirm stale => auxOnPort s q (egrDst s c) true (auxBody h pay confirm stale)
    if mutedTick s c tick then
      let h := segHdr s c e true false
      let zero := List.replicate n (List.replicate (samplesOf h.domain) (0 : Int))
      (.whole (frame h (payBytes h.fmt32 zero) 1 0), egrBump s c F.egr0W5TxMedia 1)
    else
      let h := segHdr s c e false true
      let got := (List.range n).map (fun j => rawOut s (base + first + j) tick)
      let here_ := got.takeWhile (·.isSome)
      let pay := payBytes h.fmt32 (here_.map (·.getD []))
      if here_.length < n then
        let len := n * samplesOf h.domain * smpBytes h.fmt32
        let s := egrBump s c F.egr0W7Stomped 1
        let s := setSegs s c (fun y => if here y then { y with stomped := y.stomped ||| (1 <<< q) } else y)
        (.stomp (auxOnPort s q (egrDst s c) true (auxBytes { h with payLen := len } ++ pay)), s)
      else
        let pend := s.strm.reruns.filter (fun r => r.tick == tick)
        let stale := pend.foldl (fun m r => m ||| chansFrom s c r.tasks) 0
        let sure := (List.range n).all (fun j => (committedOut s (base + first + j) tick).isSome)
        let ok := sure && stale == 0
        let s := setSegs s c (fun y =>
          if here y then { y with formed := true, stale := y.stale ||| stale, ash := y.ash || !ok } else y)
        (.whole (frame h pay (if ok then 1 else 2) stale), egrBump s c F.egr0W5TxMedia 1)

/-- A speculative segment that pair egress does not send is formed on each of its ports as if it were sent (R493): where
every sample is there, or its tick is over (`late`). -/
def ghostForm (s : State) (c seg tick : Nat) (late : Bool) : State :=
  match (s.egr c).segs.find? (fun e => e.seg == seg && e.tick == tick && e.spec) with
  | none => s
  | some e =>
    let (first, n) := segChans s c seg
    let whole := (List.range n).all (fun j => (rawOut s (egrGet s c F.egr0W0StripBase + first + j) tick).isSome)
    if e.ghost = 0 || !(whole || late || mutedTick s c tick) then s
    else
      let s := (bitList 4 e.ghost.toNat).foldl (fun s q => (specForm s q c seg tick).2) s
      setSegs s c (fun y => if y.tick = tick ∧ y.seg = seg then { y with ghost := 0 } else y)

/-- At the end of tick n - 1 what is left of such segments is formed (R493). -/
def ghostsEnd (s : State) (n : Nat) : State :=
  (s.strm.egr.map (·.1)).foldl (fun s c =>
    (s.egr c).segs.foldl (fun s e => if e.ghost = 0 ∨ n ≤ e.tick then s else ghostForm s c e.seg e.tick true) s) s

/-- SPECULATIVE_SEGMENT_START: the first channel of the segment has been produced (R191). The frame's content is
formed as it leaves; where pair egress is not sent, it is formed here or at the end of its tick (R493, log 37). -/
def specStart (s : State) (c seg : Nat) : State :=
  if !s.running pgStrg || !(s.egr c).accepted || !sendsSpec s c then s
  else
    match (s.egr c).segs.find? (fun e => e.seg == seg && !e.sent && e.tick == s.arch.began.get 0 pgLatg) with
    | none => s
    | some e =>
      let (first, _) := segChans s c seg
      if mutedTick s c e.tick || (rawOut s (egrGet s c F.egr0W0StripBase + first) e.tick).isNone then s
      else
        let s := setSegs s c (fun y => if y.tick = e.tick ∧ y.seg = seg then { y with sent := true, spec := true } else y)
        let mask := egrGet s c F.egr0W0PortMask
        if pairSends s e.tick then
          offer s mask (fun _ => { express := true, rank := 2, strm := some (c, seg, e.tick) })
        else ghostForm (setSegs s c (fun y =>
          if y.tick = e.tick ∧ y.seg = seg then { y with ghost := BitVec.ofNat 4 mask } else y)) c seg e.tick false

/-- The frame at a place of a port's ready list leaves it. -/
def unready (s : State) (l n : Nat) : State := s.setPort l (fun x => { x with ready := x.ready.eraseIdx n })

/-- The frame that a link is about to send is formed where it is a speculative segment. The answer is true where it is
stomped: what there is of it leaves, ended with an inverted FCS, and counts in TX_STOMP, and in TX_PRE_DEFERRED where it
waited (R91, R191, Table 3.4). -/
def specReady (s : State) (l t : Nat) (deferred : Bool) : Bool × State :=
  match txChoose s l t with
  | .listed n =>
    match ((s.port l).ready[n]?).bind (·.strm) with
    | some (c, seg, tick) =>
      if l = 4 ∨ linkState s l ≠ 2 then (false, s)
      else
        let (r, s) := specForm s l c seg tick
        match r with
        | .whole b => (false, s.setPort l (fun x => { x with
            ready := (x.ready.zipIdx).map (fun e => if e.2 = n then { e.1 with bytes := b, strm := none } else e.1) }))
        | .stomp b =>
          let out := b ++ (fcsBytes b).map (fun x => ~~~x)
          let s := (unready s l n).setPort l (fun x => { x with sent := out, sentFrags := [out] })
          (true, count (if deferred then count s l 42 else s) l 43)
        | .gone => (false, unready s l n)
    | none => (false, s)
  | _ => (false, s)

/-- FRAME_TRANSMIT on a link: a speculative segment that is next is formed, and the next frame leaves (R88, R191). -/
def frameOut (s : State) (l : Nat) (i : Instant) (deferred : Bool) (cuts : List Nat) : State :=
  if !s.running (pgLink l) || lineTest s l || ((s.port l).respond && linkState s l == 2) then transmit s l i deferred cuts
  else
    let (stomped, s) := specReady (if l = 4 then s else headsReach s l) l (s.timeAt i) deferred
    if stomped then s.signal (pgLink l) else transmit s l i deferred cuts

/-- SEGMENT_RESEND: a stomped segment is sent again, committed (R191). -/
def segmentAgain (s : State) (c seg : Nat) : State :=
  if !s.running pgStrg || !(s.egr c).accepted || egrKind s c != 0 then s
  else
    match (s.egr c).segs.find? (fun e => e.seg == seg && e.stomped != 0) with
    | none => s
    | some e =>
      let (first, n) := segChans s c seg
      let muted := mutedTick s c e.tick
      let done := fun s => setSegs s c (fun y => if y.tick = e.tick ∧ y.seg = seg then { y with stomped := 0 } else y)
      match egrSent s c e.tick first n muted with
      | none => s
      | some none => done s
      | some (some d) => done (sendMedia s c e e.stomped.toNat muted d)

/-- Lists of at most n elements that make up a list. -/
def chunks {α : Type} (n : Nat) : Nat → List α → List (List α)
  | 0, _ => []
  | k + 1, l => if l.length ≤ n then [l] else l.take n :: chunks n k (l.drop n)

/-- CORRECTION_SEND: the frames that follow a segment that left with CONFIRM = ASH, once its tick is committed (R192,
R228); none for a tick with an absent channel or a mute hold (R191, R421). -/
def correctionGo (s : State) (c : Nat) : State :=
  if !s.running pgStrg || !(s.egr c).accepted || egrKind s c != 0 then s
  else
    match (s.egr c).segs.find? (fun e => e.ash) with
    | none => s
    | some e =>
      let chans := egrGet s c F.egr0W2Channels
      let done := fun s => setSegs s c (fun y => if y.tick = e.tick ∧ y.seg = e.seg then { y with ash := false } else y)
      if muteHeld s c e.tick then done s
      else
        match egrData s c e.tick 0 chans false with
        | none => s
        | some none => done s
        | some (some d) =>
          let stale := (List.range chans).filter (fun j => e.stale.getLsbD j)
          let h := { (egrHdr s c e.tick e.seqNo) with type := tCorrection }
          let cap := 1024 / (samplesOf h.domain * smpBytes h.fmt32)
          let parts := chunks cap 64 stale
          let s := (parts.zipIdx).foldl (fun s p =>
            let m := (p.1.map (fun j => 2 ^ j)).sum
            let hdr := { h with lastSeg := p.2 + 1 == parts.length, chanCount := p.1.length,
                                hi := w32 (m / 2 ^ 32), lo := w32 m }
            sendStream s c e.tick (egrGet s c F.egr0W0PortMask) 1 (auxBody hdr (payBytes h.fmt32 (p.1.map (nth [] d))) 1 0)) s
          let s := egrBump s c F.egr0W6Retracted stale.length
          done (egrBump s c F.egr0W6Corrections parts.length)

-- AES67 egress (R194).

def egr1Dom (s : State) (c : Nat) : Nat := egrGet s c F.egr1W2Rate
/-- Samples per packet. -/
def egr1Len (s : State) (c : Nat) : Nat := packetTicks (egrGet s c F.egr1W2Ptime) * samplesOf (egr1Dom s c)

/-- The IPv4 datagram of a packet after the addresses; the header fields that R194 does not name (identification and
the don't-fragment bit) are free. -/
def rtpFrame (s : State) (c p : Nat) (data : List (List Int)) : List Byte × State :=
  let len := egr1Len s c
  let l24 := egrBit s c F.egr1W2L24
  let b := if l24 then 3 else 2
  let smp := fun ch k =>
    bytesBE b (toBits (8 * b) (min (rne (at0 (nth [] data ch) k) (32 - 8 * b)) (2 ^ (8 * b - 1) - 1)))
  let pay := (List.range len).flatMap (fun k => (List.range data.length).flatMap (fun ch => smp ch k))
  let rtp := bytesBE 1 0x80 ++ bytesBE 1 (egrGet s c F.egr1W2Pt) ++ bytesBE 2 (s.egr c).rtpSeq
    ++ bytesBE 4 ((p * len + egrGet s c F.egr1W4RtpOfs) % 2 ^ 32) ++ bytesBE 4 (egrGet s c F.egr1W5Ssrc)
  let port := egrGet s c F.egr1W0UdpDst
  let udp := bytesBE 2 port ++ bytesBE 2 port ++ bytesBE 2 (8 + rtp.length + pay.length) ++ [0, 0]
  let (v, s) := s.fresh
  let ip := [0x45] ++ bytesBE 1 (egrGet s c F.egr1W2Dscp * 4) ++ bytesBE 2 (28 + rtp.length + pay.length)
    ++ bytesBE 2 (v.toNat % 65536) ++ bytesBE 2 (v.toNat / 65536 % 2 * 16384) ++ bytesBE 1 (egrGet s c F.egr1W6Ttl)
    ++ [17, 0, 0] ++ bytesBE 4 (s.act pgStrg F.strgIpAddr) ++ bytesBE 4 (egrGet s c F.egr1W1DstIp)
  (ip ++ udp ++ rtp ++ pay, s)

/-- AES67_PACKET_SEND: the next packet of a KIND 1 context, once the samples it carries are committed (R194); a packet
with an absent block is not sent. -/
def packetGo (s : State) (c : Nat) : State :=
  if !s.running pgStrg || !(s.egr c).accepted || egrKind s c != 1 then s
  else
    let dom := egr1Dom s c
    let n := samplesOf dom
    let len := egr1Len s c
    let p := (s.egr c).packet
    let t0 := p * len / n
    let ticks := (p * len + len - 1) / n - t0 + 1
    let base := egrGet s c F.egr1W2StripBase
    let blk := fun ch tick =>
      if s.arch.began.get 0 pgLatg ≤ tick then none
      else if mutedTick s c tick then some (some (List.replicate n 0))
      else chanOut s (base + ch) dom tick
    let all := (List.range (egrGet s c F.egr1W2Chanm1 + 1)).mapM (fun ch =>
      ((List.range ticks).mapM (fun k => blk ch (t0 + k))).map (fun l => (l.mapM id).map List.flatten))
    match all with
    | none => s
    | some l =>
      let next := fun (s : State) => s.setEgr c (fun x => { x with packet := p + 1, rtpSeq := (x.rtpSeq + 1) % 65536 })
      match l.mapM id with
      | none => next s
      | some data =>
        let cut := p * len - t0 * n
        let (body, s) := rtpFrame s c p (data.map (fun d => (d.drop cut).take len))
        let ct := egrBit s c F.egr1W0Ct
        let mask := egrGet s c F.egr1W0PortMask
        let s := if !pairSends s (t0 + ticks - 1) then s
          else (List.range 4).foldl (fun s q =>
            if !mask.testBit q then s
            else if !s.running (pgLink q) then count s q 46
            else
              let pq := pgLink q
              let f := bytesBE 6 (egrDst s c) ++ bytesBE 6 (stationOf s q) ++ bytesBE 2 0x0800 ++ body
              let f := if s.actIs pq F.macVlanTagEn then withTag f (s.act pq F.macVlanPcpPre) (s.act pq F.macVlanVid) else f
              let cells := if ct then 0 else cellsOf ((f.length + 3) / 4)
              match intTake s cells with
              | some s' => ready (if ct then s else s') q
                  { rank := 5, bytes := f, cells := cells, csum := if ct then 2 else 1 }
              | none => if ct then ready s q { rank := 5, bytes := f, csum := 2 }
                else s.bump pgStrg F.strgCntPoolDropCount) s
        next s

-- STRG's tick.

/-- EN of an egress context is accepted at 1 (R195). -/
def egrAccept (s : State) (c tick : Nat) : State :=
  let p := egrPage c
  let o := c % 128 * 32
  let s := s.setEgr c (fun _ => { accepted := true, start := tick })
  if egrKind s c = 0 then (List.range 4).foldl (fun s i => s.setReg p (o + 0x10 + 4 * i) 0) s
  else
    let n := samplesOf (egr1Dom s c)
    let len := egr1Len s c
    s.setEgr c (fun x => { x with packet := if len = 0 then 0 else (tick * n + len - 1) / len })

/-- EN of contexts is accepted at STRG's local tick boundary (R195). -/
def strgAccept (s : State) (tick : Nat) : State :=
  let onI := enabledCtxs s 0x31 8
  let onE := enabledCtxs s 0x35 12
  let s := ((acceptedIng s).filter (fun c => !onI.contains c)).foldl ingLeave s
  let s := (onI.filter (fun c => !(s.ing c).accepted)).foldl ingAccept s
  let s := ((acceptedEgr s).filter (fun c => !onE.contains c)).foldl (fun s c => s.setEgr c (fun _ => {})) s
  (onE.filter (fun c => !(s.egr c).accepted)).foldl (fun s c => egrAccept s c tick) s

/-- The tick that begins, of a KIND 0 egress context: SEQUENCE counts the ticks since EN was accepted (R190), and a
running STRG sends the segments of the tick; a draining one begins none (log 12). -/
def egrTick (s : State) (tick c : Nat) : State :=
  if egrKind s c ≠ 0 then s
  else
    let s := if (s.egr c).start = tick then s
      else egrSet s c F.egr0W4NextSeq ((egrRd s c F.egr0W4NextSeq + 1) % 65536)
    let seq := egrRd s c F.egr0W4NextSeq
    let on := s.running pgStrg && !s.resetting pgStrg && !s.actIs pgStrg F.ctrlDrain
    let new_ := if on then (List.range (egrGet s c F.egr0W2Segsm1 + 1)).map (fun g =>
        ({ tick := tick, seg := g, seqNo := seq } : EgrSeg)) else []
    s.setEgr c (fun x => { x with segs := x.segs.filter (fun e => decide (tick ≤ e.tick + 8)) ++ new_ })

/-- A tick begins at an ingress context (R171, R180, R205). -/
def ingTick (s : State) (tick c : Nat) : State :=
  let s := s.setIng c (fun x => { x with
    blocks := x.blocks.filter (fun b => decide (tick ≤ b.due)), segs := x.segs.filter (fun g => decide (tick ≤ g.due)),
    late := if tick % 2400 = 0 then 0 else x.late, lateRaised := x.lateRaised && tick % 2400 != 0 })
  if ingKind s c = 1 then jbPlay s c tick
  else if s.running pgStrg && !s.resetting pgStrg then presentDue s c tick
  else s

/-- The lockstep groups of contexts that await their commit. -/
def waitingGroups (s : State) : List Nat :=
  (((acceptedIng s).filter (fun c => (s.ing c).await)).map (ingGroup s)).eraseDups

/-- STRG's local tick boundary that begins a tick, whether it runs, is disabled or resets (R171, R195, R205): a group
whose commit point did not come commits the tick that ends. -/
def strgBoundary (s : State) (tick : Nat) : State :=
  let s := if spxOn s then spxTick s tick else s
  let s := (waitingGroups s).foldl (fun s g => commitGroup s g (tick - 1)) s
  let s := if s.resetting pgStrg then s else strgAccept s tick
  let s := (acceptedIng s).foldl (fun s c => ingTick s tick c) s
  let s := (waitingGroups s).foldl (fun s g => groupReached s g tick) s
  (acceptedEgr s).foldl (fun s c => egrTick s tick c) (sealRerun s)

/-- A KIND 1 context enters FADED as STRG stops; what it delivered fades in its next block (R171, R181). -/
def ingStop (s : State) (c : Nat) : State :=
  let x := s.ing c
  let on := x.state == 2 || x.state == 3 || x.state == 5
  setPos ((jbShow s c).setIng c (fun y => { y with fade := y.fade || on, missed := y.missed || y.await })) c { state := 4 }

/-- STRG stops or is reset: it holds no frame, and every KIND 1 context is FADED (R171). -/
def strgStop (s : State) : State :=
  let s := (List.range 4).foldl (fun s q => s.setPort q (fun x => { x with rxOpen := none })) s
  (acceptedIng s).foldl (fun s c =>
    let s := ingDrop s c
    if ingKind s c = 1 then ingStop s c else s) s

-- Registers (R195, R196).

/-- Enabled contexts of a direction as EN reads, and their KIND 1 number. -/
def ctxCounts (s : State) (page word : Nat) : Nat × Nat :=
  let l := (List.range 512).filter (fun c =>
    (s.regs.find (keyOf (page + c / 128) (c % 128 * 32 + word))).isSome
      && (s.reg (page + c / 128) (c % 128 * 32 + word)).getLsbD 31)
  (l.length, (l.filter (fun c => getBits (s.reg (page + c / 128) (c % 128 * 32)) 29 28 == 1)).length)

/-- STRG's views (Table 6.11). -/
def strgView (s : State) (ofs : Nat) : Option Word :=
  let w := fun (x : Nat × Nat) => w32 (x.2 * 65536 + x.1)
  match ofs with
  | 0x064 => some (w (ctxCounts s 0x31 8))
  | 0x068 => some (w (ctxCounts s 0x35 12))
  | _ => none

/-- The words of an entry. -/
def entryWords (s : State) (page ofs : Nat) : List Word := (List.range 8).map (fun i => s.reg page (ofs / 32 * 32 + 4 * i))

/-- Strips, first and number, that an ingress entry feeds. -/
def entryStrips (e : List Word) : Nat × Nat :=
  if getBits (rw0 e 0) 29 28 = 0 then (getBits (rw0 e 1) 9 0, getBits (rw0 e 1) 22 16)
  else (getBits (rw0 e 3) 9 0, getBits (rw0 e 3) 26 24 + 1)

/-- AES67 packet fields are in range: RATE, PTIME and a payload of at most 1,440 bytes (R185). -/
def packetOk (rate ptime chans : Nat) (l24 : Bool) : Bool :=
  decide (rate < 2) && ptime != 3
    && decide (chans * (packetTicks ptime * samplesOf rate) * (if l24 then 3 else 2) ≤ 1440)

/-- An ingress entry may be enabled, with its word 2 as written (R196). -/
def ingOk (s : State) (c : Nat) (w2 : Word) : Bool :=
  let e := entryWords s (ingPage c) (c % 128 * 32)
  let kind := getBits (rw0 e 0) 29 28
  let f := fun i hi lo => getBits (rw0 e i) hi lo
  let (base, n) := entryStrips e
  let others := ((List.range 512).filter (fun k => k != c
    && (s.regs.find (keyOf (ingPage k) (k % 128 * 32 + 8))).isSome && ingRd s k F.ing0W2En == 1)).map
      (fun k => entryWords s (ingPage k) (k % 128 * 32))
  let sameKey := fun (o : List Word) =>
    getBits (rw0 o 0) 29 28 == kind && (getBits (rw0 o 0) 27 24 &&& f 0 27 24) != 0
      && (if kind = 0 then getBits (rw0 o 0) 21 0 == f 0 21 0
          else getBits (rw0 o 0) 15 0 == f 0 15 0 && rw0 o 1 == rw0 e 1)
  let strips := fun (o : List Word) => let x := entryStrips o; meets x.1 x.2 base n
  let grp := if kind = 0 then f 3 21 16 else f 3 21 16
  let due := fun (o : List Word) => if getBits (rw0 o 0) 29 28 = 0 then some (getBits (rw0 o 1) 12 10) else none
  let odd := fun (o : List Word) => grp != 0 && getBits (rw0 o 3) 21 16 == grp
    && (match due o, due e with | some a, some b => a != b | _, _ => false)
  let kindOk := if kind = 0 then
      f 1 31 30 != 3 && decide (1 ≤ n ∧ n ≤ 64) && f 3 31 30 != 3
        && decide (getBits w2 23 16 < getBits w2 15 8)
    else
      packetOk (f 3 31 30) (f 3 28 27) n ((rw0 e 3).getLsbD 29)
        && decide (packetTicks (f 3 28 27) + 1 ≤ f 0 23 16)
        && decide ((others.filter (fun o => getBits (rw0 o 0) 29 28 == 1)).length < 128)
  decide (kind < 2) && kindOk && decide (base + n ≤ 1024) && !others.any (fun o => sameKey o || strips o || odd o)

/-- An egress entry may be enabled (R196). -/
def egrOk (s : State) (c : Nat) : Bool :=
  let e := entryWords s (egrPage c) (c % 128 * 32)
  let kind := getBits (rw0 e 0) 29 28
  let f := fun i hi lo => getBits (rw0 e i) hi lo
  if kind = 0 then
    let n := f 2 22 16
    let segs := f 2 27 26 + 1
    let per := (n + segs - 1) / segs
    let b := if (rw0 e 2).getLsbD 29 then 4 else 3
    f 2 31 30 != 3 && decide (1 ≤ n ∧ n ≤ 64) && decide (f 0 21 12 + n ≤ 1024)
      && decide ((segs - 1) * per < n) && decide (per * samplesOf (f 2 31 30) * b ≤ 1024)
      && (!(rw0 e 0).getLsbD 30 || segs == 1)
  else if kind = 1 then
    let n := f 2 26 24 + 1
    packetOk (f 2 31 30) (f 2 28 27) n ((rw0 e 2).getLsbD 29) && decide (f 2 9 0 + n ≤ 1024)
      && decide ((ctxCounts s 0x35 12).2 < 128)
  else false

/-- A refusal of a write to an ingress entry (R195, R196). -/
def ingVeto (s : State) (page ofs : Nat) (v : Word) : Option Veto :=
  let c := (page - 0x31) * 128 + ofs / 32
  let en := ingRd s c F.ing0W2En == 1
  if ofs % 32 = 8 then
    (if !v.getLsbD 31 then none
     else if en then vetoUnless (ingRd s c F.ing0W0Kind == 1 || decide (getBits v 23 16 < getBits v 15 8)) .range
     else vetoUnless (ingOk s c v) .range)
  else if en then some .frozen
  else if ofs % 32 = 0 then vetoUnless (getBits v 29 28 < 2) .range
  else none

/-- A refusal of a write to an egress entry (R195, R196). -/
def egrVeto (s : State) (page ofs : Nat) (v : Word) : Option Veto :=
  let c := (page - 0x35) * 128 + ofs / 32
  let en := egrRd s c F.egr0W3En == 1
  if ofs % 32 = 12 then (if v.getLsbD 31 && !en then vetoUnless (egrOk s c) .range else none)
  else if en then some .frozen
  else if ofs % 32 = 0 then vetoUnless (getBits v 29 28 < 2) .range
  else none

/-- A write that changes KIND is taken by the new layout, and loads the entry's other words with its reset values
(R195). -/
def kindLoad (s : State) (page ofs : Nat) (v old : Word) : State :=
  if ofs % 32 ≠ 0 ∨ getBits v 29 28 = getBits old 29 28 then s
  else
    let k1 := getBits v 29 28 = 1
    let l := match pageKind page with
      | .ing => if k1 then regsIng1 else regsIng0
      | _ => if k1 then regsEgr1 else regsEgr0
    l.foldl (fun s d => s.setReg page (ofs + d.base) (if d.base = 0 then v &&& d.rw else d.rst)) s

/-- The layout of a context entry's word, by the entry's KIND (Tables 6.7 to 6.10). -/
def entryRegs (s : State) (page ofs : Nat) : List RegDesc :=
  let k1 := getBits (s.reg page (ofs / 32 * 32)) 29 28 = 1
  match pageKind page with
  | .ing => if k1 then regsIng1 else regsIng0
  | .egr => if k1 then regsEgr1 else regsEgr0
  | k => regsOf k

end Sys2Proof.Machine
end

