-- ==== Sys2Proof/Machine/Audio.lean ====
section
/-! DEFINITION. Local audio ports and sample-rate conversion (10). Receive and transmit sides are addressed by the page
of their port. -/

namespace Sys2Proof.Machine

/-- The instance of a port within its kind. -/
def portNo (p : Nat) : Nat := if pageKind p = .tdm then p - 0x80 else if pageKind p = .aesi then p - 0x90 else p - 0x94

/-- The receive side is enabled and synchronous (R304, R315). -/
def rxOn (s : State) (p : Nat) : Bool :=
  s.running p && (if pageKind p = .tdm then s.actIs p F.tdmRxRxEn && !s.actIs p F.tdmCfgAsrc else !s.actIs p F.aesiCfgMode)

/-- The transmit side is enabled and synchronous (R306, R316). -/
def txOn (s : State) (p : Nat) : Bool :=
  s.running p && (if pageKind p = .tdm then s.actIs p F.tdmTxTxEn else s.act p F.aesoCfgRateSrc == 0)

/-- The port's audio passes through the ASRC (R308). -/
def audAsrc (s : State) (p : Nat) : Bool :=
  match pageKind p with
  | .tdm => s.actIs p F.tdmCfgAsrc
  | .aesi => s.actIs p F.aesiCfgMode
  | _ => s.act p F.aesoCfgRateSrc != 0

/-- Width of a slot (Table 10.5). -/
def slotWidth (code : Nat) : Nat := if code = 0 then 16 else if code = 1 then 24 else 32

/-- The output strips of a transmit side, in the order of its channels. -/
def txStrips (s : State) (p : Nat) : List Nat :=
  if pageKind p = .tdm then
    (List.range (popCount 32 (s.act p F.tdmTxMaskSlots))).map (· + s.act p F.tdmTxTxBase)
  else
    (if s.actIs p F.aesoSrcAEn then [s.act p F.aesoSrcAStrip] else [])
      ++ (if s.actIs p F.aesoSrcBEn then [s.act p F.aesoSrcBStrip] else [])

def rxSlack (s : State) (p : Nat) : Nat := if pageKind p = .tdm then s.act p F.tdmRxSlack else s.act p F.aesiCfgSlack
def txSlack (s : State) (p : Nat) : Nat := if pageKind p = .tdm then s.act p F.tdmTxSlack else s.act p F.aesoCfgSlack
def rxGroup (s : State) (p : Nat) : Nat := if pageKind p = .tdm then s.act p F.tdmCfgGroup else s.act p F.aesiCfgGroup
/-- State of a transmit side (Table 10.3). -/
def txState (s : State) (p : Nat) : Nat :=
  if pageKind p = .tdm then s.rd p F.tdmStatTxState else s.rd p F.aesoStatState

/-- The transmit side takes a state; its FIFO is shown. -/
def txSet (s : State) (p st : Nat) : State :=
  let n := (s.aud p).tx.length
  if pageKind p = .tdm then (s.setF p F.tdmStatTxState st).setF p F.tdmStatTxFill n
  else (s.setF p F.aesoStatState st).setF p F.aesoStatFill n

-- Faults (R307, R308).

/-- A fault of a port: at most once per tick and direction. -/
def audRaise (s : State) (p : Nat) (tx : Bool) (bit : Nat) (third : Bool) : State :=
  let x := s.aud p
  let had := if x.raisedTick = s.time.tick then x.raised else []
  if had.contains (tx, bit) then s
  else
    let s := s.setAud p (fun y => { y with raised := (tx, bit) :: had, raisedTick := s.time.tick })
    raise s p bit (w32 (portNo p + (if tx then 16 else 0) + (if third then 256 else 0)))

/-- The counter of underruns, or of overruns, of a direction. -/
def xrunField (p : Nat) (tx isOver : Bool) : Fld :=
  match pageKind p with
  | .tdm => if isOver then (if tx then F.tdmCntOverTx else F.tdmCntOverRx)
      else if tx then F.tdmCntUnderTx else F.tdmCntUnderRx
  | .aesi => if isOver then F.aesiCntFifoOverrun else F.aesiCntFifoUnderrun
  | _ => if isOver then F.aesoCntFifoOverrun else F.aesoCntFifoUnderrun

/-- An underrun or overrun; the third within 24,000 ticks makes the port stop (R304, R306, R308). -/
def xrun (s : State) (p : Nat) (tx isOver : Bool) : State :=
  let s := s.bump p (xrunField p tx isOver)
  let now := s.time.tick
  let old := (s.aud p).slips
  let third := !audAsrc s p && (match old with
    | _ :: t :: _ => decide (now ≤ t + 24000)
    | _ => false)
  let s := s.setAud p (fun x => { x with
    slips := if third then [] else (now :: old).take 2, autoDis := x.autoDis || third })
  audRaise s p tx (if isOver then 9 else 8) third

-- Receive sides (Table 10.2).

/-- The receive side resynchronises: its frame count restarts and its FIFO is empty. -/
def rxResync (s : State) (p : Nat) : State := rxSet (s.setAud p (fun x => { x with rx := [], good := 0 })) p 1

/-- The receive side enters FADE; with LOCKSTEP its group fades (R310). -/
def rxFade (s : State) (p : Nat) : State :=
  let s := event (rxSet s p 5) p (if pageKind p = .tdm then F.tdmEvtRxFade.lo else F.aesiEvtRxFade.lo)
  let g := rxGroup s p
  if lockstep s g then
    portsFade ((groupOf s g).foldl (fun s c => s.setIng c (fun x => { x with force := true })) s) g
  else s

/-- Loss of clock, or a misplaced frame start, at a receive side. -/
def rxBreak (s : State) (p : Nat) : State :=
  match rxState s p with
  | 3 | 4 => rxFade s p
  | 1 | 2 => rxResync s p
  | _ => s

/-- The CLK_LOSS condition of a port ends (R307). -/
def clkBack (s : State) (p : Nat) : State :=
  if (s.aud p).lost then cease (s.setAud p (fun x => { x with lost := false })) p 10 else s

/-- A good frame of samples, one for each channel, completes at a synchronous receive side (R304, Table 10.2); a draining
side takes none (Table 2.5, log 12). -/
def rxFrame (s : State) (p : Nat) (f : List Int) : State :=
  let st := rxState s p
  if st = 0 ∨ st = 5 ∨ s.actIs p F.ctrlDrain then s
  else if 32 ≤ (s.aud p).rx.length then
    let s := xrun s p false true
    if st = 3 ∨ st = 4 then rxFade s p else s
  else
    let s := s.setAud p (fun x => { x with rx := x.rx ++ [f], good := x.good + 1 })
    if st = 1 ∧ 2 ≤ (s.aud p).good then
      let s := rxSet s p 2
      if pageKind p = .tdm then clkBack s p else s
    else rxSet s p st

/-- A valid frame start of a port with no synchronous receive side: two in a row end CLK_LOSS (R307). -/
def clkSeen (s : State) (p : Nat) : State :=
  let s := s.setAud p (fun x => { x with good := x.good + 1 })
  if 2 ≤ (s.aud p).good then clkBack s p else s

/-- Frames as one list of samples for each of n channels. -/
def byChannel (n : Nat) (l : List (List Int)) : List (List Int) := (List.range n).map (fun c => l.map (fun f => at0 f c))

/-- A member of a faded LOCKSTEP group that would deliver. With ingress contexts in the group its commit decides (R184);
a group of ports alone, or one whose LOCKSTEP was cleared, returns with the second tick good for every member. -/
def rxGroupTick (s : State) (p : Nat) : State :=
  let x := s.aud p
  let g := rxGroup s p
  if !x.grp || (lockstep s g && !(groupOf s g).isEmpty) then s
  else
    let n := if portsGood s g then x.grpGood + 1 else 0
    let back := decide (2 ≤ n)
    let s := s.setAud p (fun y => { y with grpGood := n, grp := !back, ramp := if back then 0 else y.ramp })
    if back then rxSet s p 3 else s

/-- n frames taken of the FIFO for a tick and delivered; with a faded group that has contexts, once it commits the tick. -/
def rxTake (s : State) (p tick : Nat) (ramp : Bool) : State :=
  let n := samplesOf (audDom s p)
  let x := s.aud p
  let g := rxGroup s p
  let raw := byChannel (rxStrips s p).length (x.rx.take n)
  let s := s.setAud p (fun x => { x with rx := x.rx.drop n })
  if x.grp && lockstep s g && !(groupOf s g).isEmpty then
    let s := s.setAud p (fun x => { x with pend := some (tick, raw) })
    if (groupOf s g).all (fun c => (s.ing c).done == some tick && !(s.ing c).await) then portsReturn s g tick else s
  else rxGive s p tick ramp raw

/-- A tick of silence on every strip of a port; without a rate, as before lock, each strip takes it in its own domain (R302,
Table 10.2). -/
def rxSilence (s : State) (p tick : Nat) : State :=
  let dom := audDom s p
  (rxStrips s p).foldl (fun s k =>
    let runs := if pageKind p = .aesi && !s.is p F.aesiStatLock then (stripDomain s (1024 + k)).getD dom else dom
    deliver s p tick runs [(k, List.replicate (samplesOf runs) 0)]) s

/-- The fade-out of a tick on every strip of a port (R296). -/
def rxFadeTick (s : State) (p tick : Nat) : State :=
  let dom := audDom s p
  let strips := rxStrips s p
  let (out, s) := rxFadeBlocks s p dom strips.length
  deliver s p tick dom (strips.zip out)

/-- A receive side's local tick boundary that begins a tick (R304, Table 10.2). -/
def rxBoundary (s : State) (p tick : Nat) : State :=
  let n := samplesOf (audDom s p)
  let st := rxState s p
  let s := s.setAud p (fun x => { x with pend := none })
  let held := (s.aud p).rx.length
  let show_ := fun (st : Nat) (s : State) => rxSet s p st
  if !rxOn s p ∨ st = 0 then s
  else if st = 2 ∧ n + rxSlack s p ≤ held then
    let s := rxSet (s.setAud p (fun x => { x with rx := x.rx.drop (held - (n + rxSlack s p)), ramp := 0 })) p 3
    show_ 3 (rxTake (rxGroupTick s p) p tick true)
  else if st = 3 ∨ st = 4 then
    if held < n then rxFadeTick (rxFade (xrun s p false false) p) p tick
    else
      let s := rxGroupTick s p
      if rxState s p = 3 ∧ 4 ≤ (s.aud p).ramp then
        let s := event (rxSet s p 4) p (if pageKind p = .tdm then F.tdmEvtRxRun.lo else F.aesiEvtRxRun.lo)
        show_ 4 (rxTake s p tick false)
      else
        let st := rxState s p
        let s := rxTake s p tick (st = 3)
        show_ (rxState s p) s
  else if st = 5 then rxResync (rxFadeTick s p tick) p
  else rxSilence s p tick

-- Transmit sides (Table 10.3).

/-- The clock of a slave port is lost: its serial side runs no frames. -/
def txHalted (s : State) (p : Nat) : Bool :=
  pageKind p = .tdm && !s.actIs p F.tdmCfgMaster && !s.is p F.tdmStatBclkPresent

/-- The transmit side returns to FILL with its FIFO empty. -/
def txFill (s : State) (p : Nat) : State :=
  event (txSet (s.setAud p (fun x => { x with tx := [] })) p 1) p
    (if pageKind p = .tdm then F.tdmEvtTxFill.lo else F.aesoEvtTxFill.lo)

/-- An overrun of a transmit side: its FIFO is emptied, and it is in FILL (R306, Table 10.3). -/
def txOver (s : State) (p : Nat) : State :=
  let s := xrun s p true true
  if txState s p = 1 then txSet (s.setAud p (fun x => { x with tx := [] })) p 1 else txFill s p

/-- The output commit point of a tick at a transmit side: its committed blocks enter the FIFO (R302, R306). With a block
absent it receives nothing for the tick (Table 1.6); draining, it takes none (Table 2.5, log 12). -/
def txExchange (s : State) (p tick : Nat) : State :=
  let st := txState s p
  let dom := audDom s p
  let n := samplesOf dom
  if !txOn s p ∨ st = 0 ∨ s.actIs p F.ctrlDrain then s
  else
    let strips := txStrips s p
    let wrong := fun k => match stripDomain s k with
      | some d => d != dom
      | none => false
    let s := strips.foldl (fun s k =>
      if wrong k && !(s.aud p).told.contains (1024 + k) then
        raise (s.setAud p (fun x => { x with told := (1024 + k) :: x.told })) p 2 (w32 k)
      else s) s
    match strips.mapM (fun k => if wrong k then some (List.replicate n 0) else committedOut s k tick) with
    | none => s
    | some blocks =>
      if 32 - n < (s.aud p).tx.length then
        if txHalted s p then s.setAud p (fun x => { x with overDue := true }) else txOver s p
      else
        let frames := (List.range n).map (fun i => blocks.map (fun b => at0 b i))
        txSet (s.setAud p (fun x => { x with tx := x.tx ++ frames })) p st

/-- A frame begins: SAFE_OUT is seen, or that it was released since, from when the next 4n samples are ramped (R309). -/
def safeSeen (s : State) (p n4 : Nat) : State :=
  if s.flt.safeOut then s.setAud p (fun x => { x with outHeld := true })
  else if (s.aud p).outHeld then s.setAud p (fun x => { x with outHeld := false, outRamp := n4 })
  else s

/-- The samples of a frame under SAFE_OUT, or under the ramp at its release (R309). -/
def safeRamp (s : State) (p dom : Nat) (f : List Int) : List Int × State :=
  let left := (s.aud p).outRamp
  if s.flt.safeOut then (f.map (fun _ => 0), s)
  else if 0 < left then
    (f.map (fun x => at0 (rampFrom dom (4 * samplesOf dom - left) [x]) 0), s.setAud p (fun x => { x with outRamp := left - 1 }))
  else (f, s)

/-- The samples of the frame that the serial side begins, one for each channel, whether they are committed ones, and the
state (R306, R309). -/
def txFrame (s : State) (p : Nat) : List Int × Bool × State :=
  let dom := audDom s p
  let n := samplesOf dom
  let chans := (txStrips s p).length
  let zero : List Int := List.replicate chans 0
  let need := n + txSlack s p
  let s := if (s.aud p).overDue then txOver (s.setAud p (fun x => { x with overDue := false })) p else s
  let s := if txState s p = 1 ∧ need ≤ (s.aud p).tx.length then
      txSet (s.setAud p (fun x => { x with tx := x.tx.drop (x.tx.length - need), txRamp := 0 })) p 2
    else s
  let st := txState s p
  let safe := s.flt.safeOut
  let s := safeSeen s p (4 * n)
  if st ≠ 2 ∧ st ≠ 3 then (zero, false, s)
  else
    match (s.aud p).tx with
    | [] => (zero, false, txFill (xrun s p true false) p)
    | f :: rest =>
      let k := (s.aud p).txRamp
      let f := if st = 2 then f.map (fun x => at0 (rampFrom dom k [x]) 0) else f
      let (f, s) := safeRamp s p dom f
      let s := s.setAud p (fun x => { x with tx := rest, txRamp := k + 1 })
      let s := if st = 2 ∧ 4 * n ≤ k + 1 then
          event (txSet s p 3) p (if pageKind p = .tdm then F.tdmEvtTxRun.lo else F.aesoEvtTxRun.lo)
        else txSet s p st
      (f, !safe, s)

-- Sources and what their loss moves (R136, R320).

def asrcF (s : State) (c : Nat) (f : Fld) : Nat := s.act pgAsrc (f.at 16 c)
def asrcSt (s : State) (c : Nat) : Nat := s.rd pgAsrc (F.asrcChStatState.at 16 c)
def asrcSet (s : State) (c st : Nat) : State := s.setF pgAsrc (F.asrcChStatState.at 16 c) st

/-- The channels of ASRC with the source port of a kind and number: they share one ratio estimator (R318). -/
def asrcOf (s : State) (kind port : Nat) : List Nat :=
  (List.range 64).filter (fun c => asrcF s c F.asrcChCfgKind == kind && asrcF s c F.asrcChCfgPort == port)

/-- The source of a channel steps or is lost: it leaves RAMP or RUN for MUTE (R320). -/
def asrcMute (s : State) (c : Nat) : State :=
  let mute := fun (s : State) => (asrcSet s c 4).setSrc c (fun x => { x with sent := 0 })
  match asrcSt s c with
  | 3 => eventF (mute s) pgAsrc F.asrcEvtUnlock
  | 2 => mute s
  | _ => s

/-- A source port loses its clock or its lock, or stops: its ASRC channels mute, and its reference candidate loses activity
(R320, Table 5.1). -/
def sourceLost (s : State) (p : Nat) : State :=
  let kind := if pageKind p = .tdm then 0 else 1
  let s := if s.running pgAsrc then (asrcOf s kind (portNo p)).foldl asrcMute s else s
  if pageKind p = .aesi then candLose s (2 + portNo p)
  else if s.act pgRefs F.refsSrcTdmSel = portNo p then candLose s 6
  else s

/-- A frame rate measured from the frames begun in 10 ms: within one frame of their number, free between (log 3). -/
def measured (s : State) (p : Nat) : Nat × State :=
  let n := (s.aud p).frames
  let s := s.setAud p (fun x => { x with frames := 0 })
  if n = 0 then (0, s)
  else
    let (v, s) := s.fresh
    (min ((n - 1) * 100 + v.toNat % 201) (2 ^ 18 - 1), s)

-- TDM ports.

/-- FRAME_LEN in bit clocks (Table 10.1). -/
def tdmLen (s : State) (p : Nat) : Nat := 32 * 2 ^ s.act p F.tdmCfgFrameLen

/-- What the port samples of a bit clock: TDn_DIN and TDn_FS on the edge that BCLK_POL names, the sync as FS_POL has it
(R298). -/
def tdmSample (s : State) (p : Nat) (b : SerialBit) : Bool × Bool :=
  let fall := s.actIs p F.tdmCfgBclkPol
  (if fall then b.dinFall else b.dinRise, (if fall then b.fsFall else b.fsRise) != s.actIs p F.tdmCfgFsPol)

/-- The slots of a frame from the bit clocks of its frame start onwards: bit k lies OFFSET later, most significant bit of a
slot first (R297). -/
def tdmSlots (s : State) (p : Nat) (bits : List SerialBit) : List Nat :=
  let w := slotWidth (s.act p F.tdmCfgWidth)
  let data := (bits.drop (s.act p F.tdmCfgOffset)).map (fun b => (tdmSample s p b).1)
  (List.range (s.act p F.tdmCfgSlots + 1)).map (fun k =>
    ((data.drop (k * w)).take w).foldl (fun v b => 2 * v + b.toNat) 0)

/-- The wire carries a whole frame, at whose first bit clock the sync is active after being inactive (R297). -/
def tdmWhole (s : State) (p : Nat) (w : SerialFrame) : Bool :=
  match w.bits with
  | b :: _ => (tdmSample s p b).2 && !(tdmSample s p w.before).2
      && w.bits.length == tdmLen s p + s.act p F.tdmCfgOffset
  | [] => false

/-- The level that a bit clock carries which no enabled slot occupies (R297). -/
def tdmIdle (s : State) (p : Nat) : Pin := if s.actIs p F.tdmCfgTxIdle then .z else .low

/-- The bits of a frame that is sent, slot after slot (R297). -/
def tdmBits (s : State) (p : Nat) (words : List Word) : List Pin :=
  let w := slotWidth (s.act p F.tdmCfgWidth)
  let on := bitList 32 (s.act p F.tdmTxMaskSlots)
  (List.range (tdmLen s p)).map (fun k =>
    match on.findIdx? (· == k / w) with
    | some i => if (nth 0 words i).getLsbD (w - 1 - k % w) then .high else .low
    | none => tdmIdle s p)

/-- The level of TDn_DOUT at a bit clock of the frame in progress (R297, R306, Table 10.3). -/
def tdmDout (s : State) (p j : Nat) : Pin :=
  if !txOn s p || txState s p = 0 || txHalted s p then tdmIdle s p else (s.aud p).line.getD j (tdmIdle s p)

/-- CLK_MOD cycles per frame, and per bit clock, of a port in master mode (R299). -/
def tdmPeriod (s : State) (p : Nat) : Nat := 8192 / 2 ^ s.act p F.tdmCfgRate
def tdmDiv (s : State) (p : Nat) : Nat := tdmPeriod s p / tdmLen s p

/-- The bit clock, the frame sync and the data output of a port in master mode at a CLK_MOD cycle of the tick: edges on the
output grid of R151, the data changing on the edge that BCLK_POL names, a sync of the length of FS_MODE (R298, R299). -/
def tdmPins (s : State) (p cyc : Nat) : Bool × Bool × Pin :=
  let j := min (outSince s (tdmPeriod s p) 0 cyc / tdmDiv s p) (tdmLen s p - 1)
  let high := decide (tdmDiv s p / 2 ≤ outSince s (tdmDiv s p) 0 cyc)
  let sync := decide (j < if s.actIs p F.tdmCfgFsMode then tdmLen s p / 2 else 1)
  (high != s.actIs p F.tdmCfgBclkPol, sync != s.actIs p F.tdmCfgFsPol, tdmDout s p j)

/-- The bit clock of a stopped slave port is seen, or is absent for 1 µs (Table 10.5). -/
def tdmIdleClock (s : State) (p : Nat) (seen : Bool) : State :=
  if s.actIs p F.tdmCfgMaster then s else s.setB p F.tdmStatBclkPresent seen

/-- A frame starts: it counts in the measured rate. -/
def frameSeen (s : State) (p : Nat) : State := s.setAud p (fun x => { x with frames := x.frames + 1 })

/-- TDM_FRAME_RECEIVE: a frame of slots completes on a port (R297, R298, R300, R301, R304). -/
def tdmReceive (s : State) (n : Nat) (w : SerialFrame) : State :=
  let p := pgTdm n
  if !s.running p then tdmIdleClock s p true
  else if !tdmWhole s p w then s
  else
    let s := frameSeen (s.setF p F.tdmStatBclkPresent 1) p
    if rxOn s p then
      let b := slotWidth (s.act p F.tdmCfgWidth)
      let slots := tdmSlots s p w.bits
      rxFrame s p ((bitList 32 (s.act p F.tdmRxMaskSlots)).map (fun k =>
        ofBits b (at0 (slots.map Int.ofNat) k).toNat * (2 ^ (32 - b) : Nat)))
    else if s.actIs p F.tdmTxTxEn then s
    else clkSeen s p

/-- MISPLACED_FRAME_START at a slave port (R300, R307): the receive side's state says whether SYNC_SLIP is raised, and the
transmit side's where it alone is enabled (log 28). -/
def tdmMisplaced (s : State) (n : Nat) : State :=
  let p := pgTdm n
  if !s.running p then tdmIdleClock s p true
  else if s.actIs p F.tdmCfgMaster then s
  else
    let s := (s.bump p F.tdmCntClkSlip).setF p F.tdmStatBclkPresent 1
    let st := rxState s p
    let tx := txState s p
    let s := if 2 ≤ st ∧ st ≤ 4 then audRaise s p false 11 false
      else if !rxOn s p && 1 ≤ tx && tx ≤ 3 then audRaise s p true 11 false
      else s
    let s := if rxOn s p then s else s.setAud p (fun x => { x with good := 0 })
    rxBreak s p

/-- TDM_CLOCK_LOSS at a slave port (R300, R307). -/
def tdmClockLoss (s : State) (n : Nat) : State :=
  let p := pgTdm n
  if !s.running p then tdmIdleClock s p false
  else if s.actIs p F.tdmCfgMaster || ((s.aud p).lost && !s.is p F.tdmStatBclkPresent) then s
  else
    let s := (s.bump p F.tdmCntClkLoss).setF p F.tdmStatBclkPresent 0
    let s := if (s.aud p).lost then s
      else audRaise (s.setAud p (fun x => { x with lost := true })) p false 10 false
    let s := if rxOn s p then s else s.setAud p (fun x => { x with good := 0 })
    rxBreak (sourceLost s p) p

/-- TDM_FRAME_TRANSMIT: the serial side begins a frame, in master mode at a cycle of the output grid (R297, R299, R301, R306,
R309). -/
def tdmTransmit (s : State) (n cyc : Nat) : State :=
  let p := pgTdm n
  if !s.running p then tdmIdleClock s p true
  else if s.actIs p F.tdmCfgMaster && outSince s (tdmPeriod s p) 0 cyc != 0 then s
  else
    let s := s.setF p F.tdmStatBclkPresent 1
    if !txOn s p then s
    else
      let s := if rxOn s p || s.actIs p F.tdmCfgMaster then s else clkSeen (frameSeen s p) p
      let (f, _, s) := txFrame s p
      let w := slotWidth (s.act p F.tdmCfgWidth)
      let out := f.map (fun x => w32 (toBits w (satInt w (rne x (32 - w)))))
      let bits := tdmBits s p out
      let k := tdmLen s p - s.act p F.tdmCfgOffset
      s.setAud p (fun x => { x with sent := out, line := x.tail ++ bits.take k, tail := bits.drop k })

/-- A port starts (Tables 10.2 and 10.3). -/
def audStart (s : State) (p : Nat) : State :=
  let s := s.setAud p (fun x => {
    csNew := x.csNew, csOut := x.csOut, uOut := x.uOut, told := x.told, csA := [], last := [],
    tail := List.replicate (if pageKind p = .tdm then s.act p F.tdmCfgOffset else 0) (tdmIdle s p) })
  let s := if pageKind p = .aeso then s else if rxOn s p then rxSet s p 1 else rxSet s p 0
  let s := if pageKind p = .aesi then s else if txOn s p then txSet s p 1 else txSet s p 0
  if pageKind p = .tdm ∧ s.actIs p F.tdmCfgMaster then s.setF p F.tdmStatBclkPresent 1 else s

/-- A port stops or is reset (Tables 10.2 and 10.3, R14, R51, R468). -/
def audStop (s : State) (p : Nat) : State :=
  let s := s.setAud p (fun x => { csNew := x.csNew, csOut := x.csOut, uOut := x.uOut, told := x.told })
  match pageKind p with
  | .tdm =>
    let s := sourceLost (txSet (rxSet s p 0) p 0) p
    if s.actIs p F.tdmCfgMaster then s.setF p F.tdmStatBclkPresent 0 else s
  | .aesi => sourceLost (((rxSet s p 0).setF p F.aesiStatLock 0).setF p F.aesiStatNom 3) p
  | _ => txSet s p 0

/-- R308 asked the port to clear its EN: true where it does. -/
def audAutoDis (s : State) (p : Nat) : Bool :=
  (pageKind p == .tdm || pageKind p == .aesi || pageKind p == .aeso) && (s.aud p).autoDis

/-- The port clears its own EN (R308). -/
def audDisable (s : State) (p : Nat) : State :=
  let s := (s.setF p F.ctrlEn 0).setAud p (fun x => { x with autoDis := false, slips := [] })
  match pageKind p with
  | .tdm => event (s.setF p F.tdmStatAutoDis 1) p F.tdmEvtAutoDis.lo
  | .aesi => s.setF p F.aesiStatAutoDis 1
  | _ => s.setF p F.aesoStatAutoDis 1

/-- A write of EN = 1 clears AUTO_DIS and restarts its count (R308). -/
def audEnabled (s : State) (p : Nat) : State :=
  let s := s.setAud p (fun x => { x with slips := [], autoDis := false })
  match pageKind p with
  | .tdm => s.setF p F.tdmStatAutoDis 0
  | .aesi => s.setF p F.aesiStatAutoDis 0
  | _ => s.setF p F.aesoStatAutoDis 0

/-- A port's local tick boundary; every 10 ms the frame rate is measured (R311, R315, Table 10.5). -/
def audBoundary (s : State) (p tick : Nat) : State :=
  match pageKind p with
  | .tdm =>
    let s := rxBoundary s p tick
    if tick % 240 ≠ 0 then s
    else if s.actIs p F.tdmCfgMaster then s.setF p F.tdmMeasHz (48000 * 2 ^ audDom s p)
    else
      let (hz, s) := measured s p
      s.setF p F.tdmMeasHz hz
  | .aesi =>
    let s := rxBoundary s p tick
    if tick % 240 ≠ 0 then s
    else
      let (hz, s) := measured s p
      let s := s.setF p F.aesiRateHz hz
      if s.is p F.aesiStatLock then (s.setF p F.aesiStatNom (nearestRate hz)).setAud p (fun x => { x with nom := nearestRate hz })
      else s
  | .aeso => s.setF p F.aesoRateHz (match s.act p F.aesoCfgRateSrc with
      | 0 => 48000 * 2 ^ audDom s p
      | 1 => s.rd (pgAesi (s.act p F.aesoCfgFollow)) F.aesiRateHz
      | _ => s.act p F.aesoNcoHz)
  | _ => s

-- AES3 receivers (R311 to R315).

/-- One byte of the CRCC of AES3, least significant bit first. -/
def crccByte (c b : Nat) : Nat :=
  (List.range 8).foldl (fun c i => if (c + b / 2 ^ i) % 2 = 1 then (c / 2) ^^^ 0xB8 else c / 2) c

/-- The CRCC over bytes 0 to 22 of six words of channel status (R313). -/
def crccOf (ws : List Word) : Nat := ((ws.flatMap bytesLE).take 23).foldl (fun c b => crccByte c b.toNat) 255

/-- Six words with bit k replaced. -/
def setCs (ws : List Word) (k : Nat) (b : Bool) : List Word :=
  let ws := (List.range 6).map (nth 0 ws)
  putAt ws (k / 32) (setBits (nth 0 ws (k / 32)) (k % 32) (k % 32) (if b then 1 else 0))

/-- Six words stored at a register array; true where one differs. -/
def putSix (s : State) (p : Nat) (f : Fld) (ws : List Word) : Bool × State :=
  let old := (List.range 6).map (fun i => s.reg p (f.ofs + 4 * i))
  let new_ := (List.range 6).map (nth 0 ws)
  (old != new_, (List.range 6).foldl (fun s i => s.setReg p (f.ofs + 4 * i) (nth 0 new_ i)) s)

/-- A block of channel status ends (R313, R314). -/
def csBlock (s : State) (p : Nat) : State :=
  let x := s.aud p
  let okA := crccOf x.csA == (nth 0 (x.csA.flatMap bytesLE) 23).toNat
  let okB := crccOf x.csB == (nth 0 (x.csB.flatMap bytesLE) 23).toNat
  let chk := s.actIs p F.aesiCfgCsCrcChk
  let s := (s.setB p F.aesiStatCsOkA okA).setB p F.aesiStatCsOkB okB
  let (dA, s) := if !chk || okA then putSix s p F.aesiCsA x.csA else (false, s.bump p F.aesiCntCsCrcc)
  let (dB, s) := if !chk || okB then putSix s p F.aesiCsB x.csB else (false, s.bump p F.aesiCntCsCrcc)
  let (_, s) := putSix s p F.aesiUA x.uA
  let (_, s) := putSix s p F.aesiUB x.uB
  let s := if !chk || okA || okB then s.roll p F.aesiStatCsSeq else s
  let s := if !chk || okA then s.setF p F.aesiStatDarsGrade (getBits (nth 0 x.csA 1) 1 0) else s
  if dA || dB then event s p F.aesiEvtCsChange.lo else s

/-- AES3_LOCK_LOSS (R307, R311); three frames with biphase violations lose lock too. -/
def aesUnlock (s : State) (n : Nat) : State :=
  let p := pgAesi n
  if !s.running p || !s.is p F.aesiStatLock then s
  else
    let s := event ((s.setF p F.aesiStatLock 0).bump p F.aesiCntLockLoss) p F.aesiEvtUnlock.lo
    let s := audRaise (s.setAud p (fun x => { x with
      lost := true, place := none, haveA := false, zGood := 0, badRun := 0, broken := false })) p false 10 false
    (rxBreak (sourceLost s p) p).setF p F.aesiStatNom 3

/-- A frame ends, with a biphase violation or without: the third in a row with one loses lock (R311). -/
def aesBiphase (s : State) (n : Nat) (bad : Bool) : State :=
  let p := pgAesi n
  let k := if bad then (s.aud p).badRun + 1 else 0
  let s := s.setAud p (fun x => { x with badRun := k })
  if 3 ≤ k then aesUnlock s n else s

/-- A frame lacked a valid preamble: it is no good frame, and breaks the run of them and the block it lies in (R305, R311;
log 28). -/
def aesNoFrame (s : State) (n : Nat) (bad : Bool) : State :=
  let p := pgAesi n
  aesBiphase (s.setAud p (fun x => { x with
    haveA := false, zGood := 0, broken := true, good := if rxState s p = 1 then 0 else x.good })) n bad

/-- Subframe B ends a frame of AIn with valid preambles (R311 to R313). -/
def aesSubB (s : State) (n : Nat) (smp : Int) (bits : BitVec 28) (biphase : Bool) : State :=
  let p := pgAesi n
  let x := s.aud p
  let k := x.place.getD 192
  let y : AudSt := { x with haveA := false }
  let y : AudSt := if k < 192 then { y with csB := setCs x.csB k (bits.getLsbD 26), uB := setCs x.uB k (bits.getLsbD 25) } else y
  let s := s.setAud p (fun _ => y)
  let s := if k = 191 && !x.broken then csBlock s p else s
  let s := if s.is p F.aesiStatLock then
      let s := s.setAud p (fun y => { y with prevA := x.curA, prevB := smp })
      if rxOn s p then
        rxFrame s p ((if s.actIs p F.aesiCfgAEn then [x.curA] else []) ++ (if s.actIs p F.aesiCfgBEn then [smp] else []))
      else s
    else s
  aesBiphase s n (biphase || x.badA)

/-- Subframe A begins a frame of AIn: its place in the block follows the preambles; a Z preamble elsewhere than 192 frames
after the last begins a new block, which the audio does not see (R311, R313). -/
def aesSubA (s : State) (n : Nat) (z : Bool) (smp : Int) (bits : BitVec 28) (biphase : Bool) : State :=
  let p := pgAesi n
  let s := if (s.aud p).haveA then aesNoFrame s n (s.aud p).badA else s
  let x := s.aud p
  let step := x.place == some 191
  let s := if z && x.place.isSome && !step then s.bump p F.aesiCntCsBlockSlip else s
  let place := if z then some 0 else x.place.map (· + 1)
  let k := place.getD 192
  let y : AudSt := { x with curA := smp, haveA := true, badA := biphase, place := place, frames := x.frames + 1 }
  let y : AudSt := if k < 192 then { y with csA := setCs x.csA k (bits.getLsbD 26), uA := setCs x.uA k (bits.getLsbD 25) } else y
  s.setAud p (fun _ => if z then { y with zGood := (step && !x.broken).toNat, broken := false }
    else if 192 ≤ k then { y with zGood := 0 } else y)

/-- Subframe B without its A: the frame counts in the block, and is no good one. -/
def aesLoneB (s : State) (n : Nat) (biphase : Bool) : State :=
  aesNoFrame (s.setAud (pgAesi n) (fun x => { x with place := x.place.map (· + 1), frames := x.frames + 1 })) n biphase

/-- AES3_SUBFRAME: one subframe on AIn; bit 0 of `bits` is time slot 4 (R311 to R313). -/
def aesSubframe (s : State) (n : Nat) (pre : Preamble) (bits : BitVec 28) (biphase : Bool) : State :=
  let p := pgAesi n
  if !s.running p then s
  else
    let v := bits.getLsbD 24
    let parity := popCount 28 bits.toNat % 2 == 1
    let bad := parity || biphase || (v && s.actIs p F.aesiCfgVBad)
    let s := if parity then s.bump p F.aesiCntErrParity else s
    let s := if biphase then s.bump p F.aesiCntErrBiphase else s
    let s := if v then s.bump p F.aesiCntLockVFrames else s
    let x := s.aud p
    let smp := ofBits 24 (bits.toNat % 2 ^ 24) * 256
    if pre = .y then
      if x.haveA then aesSubB s n (if bad then x.prevB else smp) bits biphase else aesLoneB s n biphase
    else aesSubA s n (pre == .z) (if bad then x.prevA else smp) bits biphase

/-- AES3_LOCK: two Z preambles 192 frames apart have come, at a measured frame rate that the receiver accepts (R311). -/
def aesLock (s : State) (n hz : Nat) : State :=
  let p := pgAesi n
  if !s.running p || s.is p F.aesiStatLock || (s.aud p).zGood != 1 || hz < 28000 || 216000 < hz then s
  else
    let s := ((s.setF p F.aesiStatLock 1).setF p F.aesiRateHz hz).setF p F.aesiStatNom (nearestRate hz)
    let s := s.setAud p (fun x => { x with nom := nearestRate hz, good := if rxState s p = 1 then 0 else x.good })
    event (clkBack s p) p F.aesiEvtLock.lo

-- AES3 transmitters (R316, R317).

/-- The ASRC channel that feeds a subframe of a transmitter. -/
def asrcFeeds (s : State) (n sub : Nat) : Option Nat :=
  (List.range 64).find? (fun c =>
    let f := fun (x : Fld) => s.act pgAsrc (x.at 16 c)
    f F.asrcChEnEn == 1 && f F.asrcChCfgDir == 1 && f F.asrcChCfgKind == 2 && f F.asrcChCfgPort == n
      && f F.asrcChCfgSlot == sub)

/-- A subframe's sample from the ASRC, and whether its channel is in RUN. The ramp that RAMP begins and the fade that MUTE
begins run sample by sample as they are sent, to their end also where the channel's state has gone on by then (R295, R296,
Table 10.4; log 28); converted samples are free (R321, log 3). -/
def asrcSample (s : State) (n sub : Nat) : Int × Bool × State :=
  match asrcFeeds s n sub with
  | none => (0, false, s)
  | some c =>
    let st := s.rd pgAsrc (F.asrcChStatState.at 16 c)
    let dom := asrcF s c F.asrcChCfgDomain
    let x := s.src c
    let step := fun (s : State) => s.setSrc c (fun x => { x with sent := min (x.sent + 1) (4 * samplesOf dom) })
    if !s.running pgAsrc ∨ st = 0 then (0, false, s)
    else if st = 1 ∨ st = 4 then (at0 (fadeOut dom (List.replicate (samplesOf dom) x.last)) x.sent, false, step s)
    else
      let (v, s) := s.fresh
      let y := ofBits 32 v.toNat
      let y := if x.sent < 4 * samplesOf dom then at0 (rampFrom dom x.sent [y]) 0 else y
      (y, st = 3, (step s).setSrc c (fun x => { x with last := y }))

/-- The 28 bits of a subframe: audio, V, U, C and even parity. -/
def subframe (x : Int) (v u c : Bool) : Word :=
  let b := fun (t : Bool) n => if t then 2 ^ n else 0
  let body := toBits 24 (satInt 24 (rne x 8)) + b v 24 + b u 25 + b c 26
  w32 (body + b (popCount 27 body % 2 == 1) 27)

/-- The output of a transmitter is held low while it is disabled (Table 10.3). -/
def aesHeldLow (s : State) (p : Nat) : Bool := !s.running p

/-- AES3_FRAME_TRANSMIT: a transmitter sends one frame; one of RATE_SRC 0 begins on the tick grid (R306, R309, R316, R317).
The ramp at the release of SAFE_OUT is in the domain of RATE, or of the ASRC channel that feeds it (log 28). -/
def aesTransmit (s : State) (n cyc : Nat) : State :=
  let p := pgAeso n
  if !s.running p || (s.act p F.aesoCfgRateSrc == 0 && cyc % (8192 / 2 ^ audDom s p) != 0) then s
  else
    let k := (s.aud p).frame
    let s := if k ≠ 0 then s
      else
        let cs := (List.range 6).map (fun i => s.inForce p (F.aesoCs.ofs + 4 * i))
        let cs := if s.actIs p F.aesoCfgCrccGen then putAt cs 5 (setBits (nth 0 cs 5) 31 24 (crccOf cs)) else cs
        let u := (List.range 6).map (fun i => s.inForce p (F.aesoU.ofs + 4 * i))
        let new_ := (s.aud p).csNew
        let s := s.setAud p (fun x => { x with csOut := cs, uOut := u, csNew := false })
        if new_ then event s p F.aesoEvtCsSent.lo else s
    let safe := s.flt.safeOut
    let (a, b, good, s) :=
      if s.act p F.aesoCfgRateSrc = 0 then
        let (f, good, s) := txFrame s p
        let a := s.actIs p F.aesoSrcAEn
        (if a then at0 f 0 else 0, if s.actIs p F.aesoSrcBEn then at0 f (if a then 1 else 0) else 0, good, s)
      else
        let (a, ra, s) := asrcSample s n 0
        let (b, rb, s) := asrcSample s n 1
        let dom := match (asrcFeeds s n 0).or (asrcFeeds s n 1) with
          | some c => asrcF s c F.asrcChCfgDomain
          | none => 0
        let (f, s) := safeRamp (safeSeen s p (4 * samplesOf dom)) p dom [a, b]
        (at0 f 0, at0 f 1, !safe && ra && rb, s)
    let x := s.aud p
    let v := s.actIs p F.aesoCfgVAuto && !good
    let u := s.actIs p F.aesoCfgUEn && (nth 0 x.uOut (k / 32)).getLsbD (k % 32)
    let c := (nth 0 x.csOut (k / 32)).getLsbD (k % 32)
    s.setAud p (fun x => { x with sent := [subframe a v u c, subframe b v u c], frame := (k + 1) % 192 })

-- Sample-rate conversion (R318 to R320).

/-- Free samples of one tick (log 3). -/
def freeBlock (s : State) : Nat → List Int × State
  | 0 => ([], s)
  | n + 1 =>
    let (v, s) := s.fresh
    let (l, s) := freeBlock s n
    (ofBits 32 v.toNat :: l, s)

/-- The block that a channel into an input strip delivers for a tick (Table 10.4). -/
def asrcDeliver (s : State) (c tick : Nat) : State :=
  let dom := asrcF s c F.asrcChCfgDomain
  let n := samplesOf dom
  let strip := asrcF s c F.asrcChCfgStrip
  let st := asrcSt s c
  let put := fun (s : State) (d : List Int) =>
    let s := deliver s pgAsrc tick dom [(strip, d)]
    s.setSrc c (fun x => { x with last := at0 d (n - 1) })
  if asrcF s c F.asrcChCfgDir ≠ 0 then s
  else if st = 2 ∨ st = 3 then
    let (d, s) := freeBlock s n
    if st = 2 then put s (rampFrom dom ((s.src c).ramp * n) d) else put s d
  else if st = 4 then put s (fadeOut dom (List.replicate n (s.src c).last))
  else put s (List.replicate n 0)

/-- A channel at the local tick boundary of ASRC; its status clears as EN is accepted at 1 (R195, R319, R320, R325). -/
def asrcChannel (tick : Nat) (s : State) (c : Nat) : State :=
  let en := asrcF s c F.asrcChEnEn = 1
  let st := asrcSt s c
  if !en then
    if st = 0 then s else (if st = 3 then eventF (asrcSet s c 0) pgAsrc F.asrcEvtUnlock else asrcSet s c 0)
  else if !s.running pgAsrc then
    let cut := match s.lat.ins.find (asrcF s c F.asrcChCfgStrip) with
      | some b => b.tick = tick && b.absent
      | none => false
    if cut then asrcSet s c 0 else asrcDeliver (asrcSet s c 0) c tick
  else
    let s := if st = 0 && !s.actIs pgAsrc F.ctrlDrain then asrcSet ((s.setSrc c (fun _ => {})).setF pgAsrc (F.asrcChStatRatio.at 16 c) 0) c 1
      else s
    let s := if st = 2 ∧ 4 ≤ (s.src c).ramp then eventF (asrcSet s c 3) pgAsrc F.asrcEvtLock else s
    let s := asrcDeliver s c tick
    let s := if asrcSt s c = 2 then s.setSrc c (fun x => { x with ramp := x.ramp + 1 }) else s
    if asrcSt s c = 4 then asrcSet s c 1 else s

/-- ASRC's local tick boundary. -/
def asrcBoundary (s : State) (tick : Nat) : State := (List.range 64).foldl (asrcChannel tick) s

/-- ASRC stops or is reset: every channel is OFF. -/
def asrcStop (s : State) : State :=
  (List.range 64).foldl (fun s c => if asrcSt s c = 0 then s
    else (if asrcSt s c = 3 then eventF (asrcSet s c 0) pgAsrc F.asrcEvtUnlock else asrcSet s c 0)) s

/-- A ratio of one channel as another channel of its source port shows it: the domain's rate is that of the sink, or of the
source of a channel out to a transmitter (R318). -/
def asrcScale (s : State) (c k ratio : Nat) : Nat :=
  let up := fun (a : Nat) => 2 ^ asrcF s a F.asrcChCfgDomain
  min (2 ^ 24 - 1) (if asrcF s c F.asrcChCfgDir = 0 then ratio * up c / up k else ratio * up k / up c)

/-- The source of a channel has a clock, or lock. -/
def asrcSource (s : State) (c : Nat) : Bool :=
  let p := asrcF s c F.asrcChCfgPort
  match asrcF s c F.asrcChCfgKind with
  | 0 => s.running (pgTdm p) && !(s.aud (pgTdm p)).lost
  | 1 => s.running (pgAesi p) && s.is (pgAesi p) F.aesiStatLock
  | _ => s.running (pgAeso p)

/-- The frame rate that a ratio gives the port of a channel is one the port accepts: 32 to 192 kHz and a bit clock of at most
50 MHz for TDM, 28 to 216 kHz for a receiver (R311, R318). -/
def asrcRateOk (s : State) (c ratio : Nat) : Bool :=
  let base := 48000 * 2 ^ asrcF s c F.asrcChCfgDomain
  let hz := ratio * base / 2 ^ 20
  match asrcF s c F.asrcChCfgKind with
  | 0 => decide (32000 ≤ hz) && decide (hz ≤ 192000) && decide (hz * tdmLen s (pgTdm (asrcF s c F.asrcChCfgPort)) ≤ 50000000)
  | 1 => decide (28000 ≤ hz) && decide (hz ≤ 216000)
  | _ => true

/-- The estimate of the source port of a channel in RAMP or RUN tracks a rate within 0.1 % of it (R318, R320). -/
def asrcTrack (s : State) (c ratio : Nat) : State :=
  let cur := s.rd pgAsrc (F.asrcChStatRatio.at 16 c)
  if !asrcSource s c || !asrcRateOk s c ratio || decide (cur < 1000 * (ratio - cur)) || decide (cur < 1000 * (cur - ratio)) then s
  else
    let mates := asrcOf s (asrcF s c F.asrcChCfgKind) (asrcF s c F.asrcChCfgPort)
    (mates.filter (fun k => asrcSt s k == 2 || asrcSt s k == 3)).foldl (fun s k =>
      s.setF pgAsrc (F.asrcChStatRatio.at 16 k) (asrcScale s c k ratio)) s

/-- ASRC_SETTLED: the ratio estimate of a channel's source port settles, and every channel of the port that acquires ramps
in; where others of the port run, the estimate is theirs. The estimate of a channel that runs tracks (R318, R320). -/
def asrcSettle (s : State) (c : Nat) (ratio : BitVec 24) : State :=
  let mates := asrcOf s (asrcF s c F.asrcChCfgKind) (asrcF s c F.asrcChCfgPort)
  let r := match mates.find? (fun k => asrcSt s k == 2 || asrcSt s k == 3) with
    | some k => asrcScale s k c (s.rd pgAsrc (F.asrcChStatRatio.at 16 k))
    | none => ratio.toNat
  if s.running pgAsrc && (asrcSt s c == 2 || asrcSt s c == 3) then asrcTrack s c ratio.toNat
  else if !s.running pgAsrc || asrcSt s c != 1 || !asrcSource s c || !asrcRateOk s c r then s
  else (mates.filter (fun k => asrcSt s k == 1)).foldl (fun s k =>
    let s := s.setF pgAsrc (F.asrcChStatRatio.at 16 k) (asrcScale s c k r)
    asrcSet (s.setSrc k (fun x => { x with ramp := 0, sent := 0 })) k 2) s

/-- ASRC_SOURCE_LOSS: the source of a channel steps or is lost, and every channel of the source port mutes (R318, R320). -/
def asrcLose (s : State) (c : Nat) : State :=
  if !s.running pgAsrc then s
  else (asrcOf s (asrcF s c F.asrcChCfgKind) (asrcF s c F.asrcChCfgPort)).foldl asrcMute s

/-- ASRC_STAT (Table 10.8). -/
def asrcView (s : State) (ofs : Nat) : Option Word :=
  let n := fun (f : Nat → Bool) => ((List.range 64).filter f).length
  if ofs = 0x040 then
    some (w32 (n (fun c => asrcSt s c == 3) * 256 + n (fun c => s.rd pgAsrc (F.asrcChEnEn.at 16 c) == 1)))
  else none

-- Checks of writes (R302, R303, R319, R323).

/-- EN of a page as it reads. -/
def enRead (s : State) (p : Nat) : Bool := s.is p F.ctrlEn

/-- Another enabled port or ASRC channel than the one named feeds an input strip. -/
def portTakes (s : State) (me strip : Nat) : Bool :=
  ((List.range 16).map pgTdm ++ (List.range 4).map pgAesi).any (fun p => p != me && enRead s p && portFeeds s p strip)
    || (List.range 64).any (fun c => me != 4096 + c && s.rd pgAsrc (F.asrcChEnEn.at 16 c) == 1
      && asrcF s c F.asrcChCfgDir == 0 && asrcF s c F.asrcChCfgStrip == strip)

/-- An enabled ingress context feeds an input strip. -/
def ctxTakes (s : State) (strip : Nat) : Bool :=
  (List.range 512).any (fun k => (s.regs.find (keyOf (ingPage k) (k % 128 * 32 + 8))).isSome
    && ingRd s k F.ing0W2En == 1
    && (let e := entryStrips (entryWords s (ingPage k) (k % 128 * 32))
        decide (e.1 ≤ strip) && decide (strip < e.1 + e.2)))

/-- The strips of a port, the page itself or 4,096 and an ASRC channel, are free and lie within the array. -/
def stripsFree (s : State) (me : Nat) (strips : List Nat) : Bool :=
  strips.all (fun k => decide (k < 1024) && !portTakes s me k && !ctxTakes s k)

/-- A TDM page may be enabled (R303). -/
def tdmOk (s : State) (p : Nat) : Bool :=
  let f := fun (x : Fld) => s.rd p x
  let slots := f F.tdmCfgSlots + 1
  let len := 32 * 2 ^ f F.tdmCfgFrameLen
  let asrc := f F.tdmCfgAsrc = 1
  let rx := f F.tdmRxRxEn = 1 ∧ !asrc
  decide (slots * slotWidth (f F.tdmCfgWidth) ≤ len) && (asrc || decide (len ≤ 1024 / 2 ^ f F.tdmCfgRate))
    && decide (f F.tdmRxMaskSlots < 2 ^ slots) && decide (f F.tdmTxMaskSlots < 2 ^ slots)
    && (!rx || stripsFree s p (rxStrips s p))
    && (f F.tdmTxTxEn = 0 || (txStrips s p).all (fun k => decide (k < 1024)))
    && !(asrc && (f F.tdmCfgMaster = 1 || f F.tdmTxTxEn = 1))

/-- An AESI page may be enabled (R323). -/
def aesiOk (s : State) (p : Nat) : Bool := s.rd p F.aesiCfgMode == 1 || stripsFree s p (rxStrips s p)

/-- An ASRC channel may be enabled (R319). -/
def asrcOk (s : State) (c : Nat) : Bool :=
  let f := asrcF s c
  let kind := f F.asrcChCfgKind
  let port := f F.asrcChCfgPort
  let slot := f F.asrcChCfgSlot
  let out := f F.asrcChCfgDir = 1
  let src :=
    match kind with
    | 0 => !out && s.rd (pgTdm port) F.tdmCfgAsrc == 1 && decide (slot ≤ s.rd (pgTdm port) F.tdmCfgSlots)
    | 1 => !out && decide (port < 4) && s.rd (pgAesi port) F.aesiCfgMode == 1 && decide (slot < 2)
    | 2 => out && decide (port < 4) && (s.rd (pgAeso port) F.aesoCfgRateSrc == 1 || s.rd (pgAeso port) F.aesoCfgRateSrc == 2)
        && decide (slot < 2)
    | _ => false
  let others := (List.range 64).filter (fun k => k != c && s.rd pgAsrc (F.asrcChEnEn.at 16 k) == 1)
  let same := others.any (fun k => asrcF s k F.asrcChCfgKind == kind && asrcF s k F.asrcChCfgPort == port
    && asrcF s k F.asrcChCfgSlot == slot)
  src && !same && (out || stripsFree s (4096 + c) [f F.asrcChCfgStrip])

/-- A refusal of a write to a TDM, AESI or AESO page (Tables 10.5 to 10.7). -/
def audVeto (k : PageKind) (ofs : Nat) (v : Word) : Option Veto :=
  let b := fun h l => getBits v h l
  match k, ofs with
  | .tdm, 0x040 => vetoUnless (b 7 6 != 3 && b 5 4 != 3 && b 3 1 < 6) .range
  | .aeso, 0x040 => vetoUnless (b 3 2 != 3 && b 1 0 != 3) .range
  | .aeso, 0x048 => vetoUnless (32000 ≤ b 17 0 && b 17 0 ≤ 192000) .range
  | _, _ => none

/-- A refusal of a write to ASRC (R319). -/
def asrcVeto (s : State) (ofs : Nat) (v : Word) : Option Veto :=
  if ofs < 0x100 ∨ 0x500 ≤ ofs then none
  else
    let c := (ofs - 0x100) / 16
    let en := s.rd pgAsrc (F.asrcChEnEn.at 16 c) == 1
    match ofs % 16 with
    | 0 => if en then some .frozen else vetoUnless (getBits v 29 28 != 3 && getBits v 15 14 != 3) .range
    | 4 => if v.getLsbD 31 && !en then vetoUnless (asrcOk s c) .range else none
    | _ => none

/-- A new image is active: CFG_RANGE of R302 may be raised again. -/
def audNewImage (s : State) : State :=
  let clear := fun (e : Nat × AudSt) => (e.1, { e.2 with told := [] })
  { s with audio := { s.audio with ports := s.audio.ports.map clear } }

end Sys2Proof.Machine
end

