-- ==== Sys2Proof/Machine/Diag.lean ====
section
/-! DEFINITION. Load diagnostics (12): the test signals, the measurements, and how a sweep and a pilot window end. -/

namespace Sys2Proof.Machine

-- Arithmetic.

/-- Terms of the series of a sine, from a term and the square of the angle, both in units of 2^-40. -/
def sinTerms (y2 : Int) : Nat → Nat → Int → Int
  | 0, _, t => t
  | n + 1, k, t => t + sinTerms y2 n (k + 1) (-(t * y2 / 2 ^ 40) / ((2 * k * (2 * k + 1) : Nat) : Int))

/-- The sine of num / den turns, in units of 2^-40. -/
def sinTurn (num den : Nat) : Int :=
  let x := num % den * 2 ^ 42 / den
  let r := x % 2 ^ 40
  let r := if x / 2 ^ 40 % 2 = 1 then 2 ^ 40 - r else r
  let y : Int := ((r * 1727108826179 / 2 ^ 40 : Nat) : Int)
  let v := sinTerms (y * y / 2 ^ 40) 10 1 y
  if x / 2 ^ 41 = 1 then -v else v

/-- The cosine of num / den turns, in units of 2^-40. -/
def cosTurn (num den : Nat) : Int := sinTurn (4 * num + den) (4 * den)

/-- The whole square root of a number below 2^96. -/
def isqrt (v : Nat) : Nat :=
  (List.range 48).reverse.foldl (fun r i => if (r + 2 ^ i) * (r + 2 ^ i) ≤ v then r + 2 ^ i else r) 0

/-- The angle of a vector, whole units of 0.01°, from −18,000 to 18,000. -/
def argOf (x y : Int) : Int :=
  let up : Int := if y < 0 then -y else y
  let a := (List.range 15).reverse.foldl (fun (r : Nat) i =>
    let a := r + 2 ^ i
    if a ≤ 18000 ∧ 0 ≤ up * cosTurn a 36000 - x * sinTurn a 36000 then a else r) 0
  if y < 0 then -(a : Int) else (a : Int)

/-- A free value from −n to n (log 3). -/
def freeWithin (s : State) (n : Nat) : Int × State :=
  let (w, s) := s.fresh
  ((w.toNat % (2 * n + 1) : Nat) - (n : Int), s)

-- Registers.

def diagF (f : Fld) (c : Nat) : Fld := f.at 0x40 c
/-- The state of a drive channel (Table 11.2). -/
def drvState (s : State) (c : Nat) : Nat := s.rd (pgDrv c) F.drvStatState
def State.diag (s : State) : DiagSt := s.meas.diag
def State.setDiag (s : State) (f : DiagSt → DiagSt) : State :=
  { s with meas := { s.meas with diag := f s.meas.diag } }
/-- A sweep runs. -/
def sweeping (s : State) : Bool := s.is pgDiag F.diagStatBusy
/-- The frequency of a tone, Hz. -/
def toneFreq (s : State) (k : Nat) : Nat :=
  let w := s.act pgDiag (F.diagFreq.at 4 (k / 2))
  if k % 2 = 0 then w % 65536 else w / 65536
/-- Ticks of a step (R357). -/
def stepTicks (s : State) : Nat := s.act pgDiag F.diagStepSettle + s.act pgDiag F.diagStepMeas + 4

/-- A level in Q1.31. -/
def levelOf (s : State) (f : Fld) : Int := (BitVec.ofNat 32 (s.act pgDiag f)).toInt

/-- A tone at a position, in counts of CLK_MOD from the start of tick 0, with an error below 2^-24 of full scale
(R357). -/
def toneAt (s : State) (amp : Int) (freq : Nat) (counts : Int) : Int × State :=
  let ph := (counts % 393216000).toNat * freq
  let (e, s) := freeWithin s 126
  (sat32 (amp * sinTurn ph 393216000 / 2 ^ 40 + e), s)

-- The test signals (R356, R357, R361).

/-- The channel carries the pilot. -/
def pilotOn (s : State) (c : Nat) : Bool :=
  s.running pgDiag && !sweeping s && natBit (s.act pgDiag F.diagPilotEnMask) c && drvState s c == 3 && !s.flt.safeOut

/-- The channel is under the test of the sweep. -/
def sweepOn (s : State) (c : Nat) : Bool :=
  s.running pgDiag && sweeping s && natBit s.diag.mask c && !(s.diag.chans.get {} c).ended
    && drvState s c == 3 && !s.flt.safeOut

/-- The value of a drive channel after DIAG: at a position in counts from the start of tick 0, in sample j of the
tick. -/
def diagValue (s : State) (c : Nat) (counts : Int) (j : Nat) (v : Int) : Int × State :=
  if sweepOn s c then
    let step := nth 0 s.diag.steps 0
    let (d, s) := if step = 0 then (levelOf s F.diagLevelDcD, s)
      else toneAt s (levelOf s F.diagLevelAcD) (toneFreq s (step - 1)) counts
    let pos := s.diag.pos
    let last := stepTicks s - 4
    let k : Int := if pos < 4 then ((8 * pos + j + 1 : Nat) : Int)
      else if last ≤ pos then 31 - ((8 * (pos - last) + j : Nat) : Int) else 32
    (sat32 (rne (d * k) 5), s)
  else if pilotOn s c then
    let (d, s) := toneAt s (levelOf s F.diagPilotAmpD) (s.act pgDiag F.diagPilotFreqHz) counts
    (sat32 (v + d), s)
  else (v, s)

-- What is measured (R358).

/-- A sense frame joins a measurement of K frames at a frequency; frequency 0 is the DC step. -/
def diagAdd (x : DiagChan) (k freq : Nat) (v i : Int) : DiagChan :=
  if k ≤ x.n then x
  else
    let w : Int := 2 ^ 40 - cosTurn x.n k
    let c := cosTurn (x.n * freq) 96000
    let q := sinTurn (x.n * freq) 96000
    { x with n := x.n + 1, sv := x.sv + v, si := x.si + i,
             vr := x.vr + w * c * v, vi := x.vi - w * q * v, ir := x.ir + w * c * i, ii := x.ii - w * q * i }

/-- A word of a result: a value outside the register is a free value (log 3). -/
def resultWord (s : State) (z : Int) : Nat × State :=
  if 0 ≤ z ∧ z < 2 ^ 32 then (z.toNat, s)
  else
    let (w, s) := s.fresh
    (w.toNat % 2 ^ 32, s)

/-- The scale registers of a channel's sense port: µV and µA per code. -/
def diagScale (s : State) (c : Nat) : Nat × Nat :=
  (s.act (pgSns (c / 4)) F.snsScaleVlUv, s.act (pgSns (c / 4)) F.snsScaleIlUa)

/-- RDC of a measurement (R358). -/
def diagRdc (s : State) (c : Nat) (x : DiagChan) : Nat × State :=
  let (sv, si) := diagScale s c
  if sv = 0 ∨ si = 0 then (0, s)
  else if x.si.natAbs < s.act pgDiag F.diagRatioIMin * x.n then (0xFFFFFFFF, s)
  else if x.si = 0 then resultWord s (-1)
  else resultWord s (Int.fdiv (x.sv * sv * 1000) (x.si * si))

/-- The least and the greatest whole number within 0.05 % of the square root of a / b; where none is, the two next to it
(R358). -/
def zBand (a b : Nat) : Nat × Nat :=
  let w := isqrt (1999 ^ 2 * a / b) / 2000
  let lo := if (2000 * w) ^ 2 * b < 1999 ^ 2 * a then w + 1 else w
  let hi := isqrt (2001 ^ 2 * a / b) / 2000
  if lo ≤ hi then (lo, hi) else (isqrt (a / b), isqrt (a / b) + 1)

/-- An angle of whole units of 0.01°, in the range from −180° to +180°. -/
def wrapTurn (a : Int) : Int := if 18000 < a then a - 36000 else if a < -18000 then a + 36000 else a

/-- Z and PH of a measurement, free values: each lies within 0.05 % and 0.05° of the exact value (R358). The angle of
`argOf` is cut off toward 0, so that a value is at most 0.05° off from 4 units below it to 5 above. -/
def diagTone (s : State) (c : Nat) (x : DiagChan) : Nat × Int × State :=
  let (sv, si) := diagScale s c
  let i2 := (x.ir * x.ir + x.ii * x.ii).toNat
  let v2 := (x.vr * x.vr + x.vi * x.vi).toNat
  let least := s.act pgDiag F.diagRatioIMin * x.n * 2 ^ 80
  let (e, s) := s.fresh
  let e : Int := (e.toNat % 10 : Nat) - 4
  let a := argOf (x.vr * x.ir + x.vi * x.ii) (x.vi * x.ir - x.vr * x.ii)
  let ph := wrapTurn (if a < 0 then a - e else a + e)
  if sv = 0 ∨ si = 0 then (0, 0, s)
  else if i2 < least * least then (0xFFFFFFFF, ph, s)
  else if i2 = 0 then
    let (w, s) := resultWord s (-1)
    (w, ph, s)
  else
    let (lo, hi) := zBand (v2 * (1000 * sv) ^ 2) (i2 * si ^ 2)
    let (d, s) := s.fresh
    let (w, s) := resultWord s (lo + d.toNat % (hi - lo + 1) : Nat)
    (w, ph, s)

/-- OPEN is raised for a class other than NOMINAL (R359, R361). -/
def diagClass (s : State) (c cls : Nat) : State :=
  if 2 ≤ cls then raise s pgDiag F.diagFltOpen.lo (w32 (c + cls * 256)) else s

-- Sweeps.

/-- The class of a channel at the end of a sweep (R359). -/
def sweepClass (s : State) (c : Nat) (x : DiagChan) : Nat :=
  let z := fun k => s.rd pgDiag ((diagF F.diagChZ c).at 4 k)
  let lf := s.act pgDiag F.diagTonesLfIdx
  let hf := s.act pgDiag F.diagTonesHfIdx
  let short := s.act pgDiag F.diagZlimShortMohm
  let open_ := s.act pgDiag F.diagZlimOpenMohm
  if x.tones.contains lf && x.tones.contains hf then
    if (x.dc && decide (s.rd pgDiag (diagF F.diagChRdcMohm c) < short)) || decide (z lf < short) || decide (z hf < short)
    then 2
    else if open_ < z lf ∧ open_ < z hf then 3
    else if z lf * s.act pgDiag F.diagRatioHfRatio < z hf * 256 then 4
    else 1
  else 0

/-- A channel's part of the sweep ends early (R360). -/
def sweepDrop (s : State) (c code : Nat) : State :=
  if sweeping s && natBit s.diag.mask c && !(s.diag.chans.get {} c).ended then
    let s := s.setF pgDiag (diagF F.diagChResResult c) code
    let s := s.setF pgDiag (diagF F.diagChResClass c) 0
    s.setDiag (fun d => { d with chans := d.chans.put c { d.chans.get {} c with ended := true } })
  else s

/-- The sweep ends: channels that have not ended are classified (R359), sequence numbers advance, and DIA attention is
raised whatever PG_EVT_EN holds (R360). -/
def sweepEnd (s : State) : State :=
  let chans := bitList 16 s.diag.mask
  let s := s.setB pgDiag F.diagStatBusy false
  let s := (s.setF pgDiag F.diagStatLeft 0).setF pgDiag F.diagStatStep 0
  let s := chans.foldl (fun s c =>
    let x := s.diag.chans.get {} c
    let s := if x.ended then s
      else
        let cls := sweepClass s c x
        let s := s.setF pgDiag (diagF F.diagChResResult c) 0
        diagClass (s.setF pgDiag (diagF F.diagChResClass c) cls) c cls
    s.roll pgDiag (diagF F.diagChResSeq c)) s
  let s := s.setDiag (fun d => { d with steps := [], pos := 0, chans := [], mask := 0 })
  eventAlways s pgDiag F.diagEvtSweepDone.lo attDia

/-- The whole sweep ends as ABORTED (R360). -/
def sweepAborted (s : State) : State :=
  if sweeping s then sweepEnd ((List.range 16).foldl (fun s c => sweepDrop s c 1) s) else s

/-- A pilot window of a channel is discarded (R361). -/
def pilotDrop (s : State) (c : Nat) : State := s.setDiag (fun d => { d with pilots := d.pilots.del c })

/-- SAFE_OUT comes to stand: the sweep is aborted, and pilot windows are discarded (R360, R361). -/
def diagSafeOut (s : State) : State := (sweepAborted s).setDiag (fun d => { d with pilots := [] })

/-- A channel leaves RUN: by a trip, or otherwise (R360, R361). -/
def diagLeft (s : State) (c : Nat) (trip : Bool) : State := pilotDrop (sweepDrop s c (if trip then 2 else 4)) c

/-- A step of the sweep is in its MEAS ticks. -/
def measuring (s : State) : Bool :=
  sweeping s && decide (s.act pgDiag F.diagStepSettle ≤ s.diag.pos) && decide (s.diag.pos + 4 < stepTicks s)

/-- A sense port leaves RUN: its channels lose a measurement in progress (R360, R361). -/
def diagNoSense (s : State) (g : Nat) : State :=
  (List.range 4).foldl (fun s c =>
    pilotDrop (if measuring s then sweepDrop s (4 * g + c) 3 else s) (4 * g + c)) s

/-- The codes of a channel in a sense frame reach DIAG (R358). -/
def diagSample (s : State) (c : Nat) (v i : Int) : State :=
  if sweepOn s c && measuring s then
    let step := nth 0 s.diag.steps 0
    let f := if step = 0 then 0 else toneFreq s (step - 1)
    let k := 4 * s.act pgDiag F.diagStepMeas
    s.setDiag (fun d => { d with chans := d.chans.put c (diagAdd (d.chans.get {} c) k f v i) })
  else
    match s.diag.pilots.find c with
    | some x =>
      if pilotOn s c then
        let k := 4 * s.act pgDiag F.diagPilotWinTicks
        s.setDiag (fun d => { d with pilots := d.pilots.put c (diagAdd x k (s.act pgDiag F.diagPilotFreqHz) v i) })
      else s
    | none => s

/-- The results of a step for a channel. -/
def stepResult (step : Nat) (s : State) (c : Nat) : State :=
  let x := s.diag.chans.get {} c
  if x.ended then s
  else if x.n < 4 * s.act pgDiag F.diagStepMeas then sweepDrop s c 3
  else
    let keep : DiagChan := { dc := x.dc || step == 0, tones := if step = 0 then x.tones else (step - 1) :: x.tones }
    let s := if step = 0 then
        let (w, s) := diagRdc s c x
        s.setF pgDiag (diagF F.diagChRdcMohm c) w
      else
        let (z, ph, s) := diagTone s c x
        let s := s.setF pgDiag ((diagF F.diagChZ c).at 4 (step - 1)) z
        let f := (diagF F.diagChPh c).at 4 ((step - 1) / 2)
        let lo := 16 * ((step - 1) % 2)
        s.setF pgDiag ⟨f.ofs, lo + 15, lo⟩ (toBits 16 ph)
    s.setDiag (fun d => { d with chans := d.chans.put c keep })

/-- SWEEP_STEP_END: a step has had all its ticks (R357 to R359). -/
def sweepStep (s : State) : State :=
  if !s.running pgDiag || !sweeping s || decide (s.diag.pos < stepTicks s) then s
  else
    let s := (bitList 16 s.diag.mask).foldl (stepResult (nth 0 s.diag.steps 0)) s
    match s.diag.steps.drop 1 with
    | [] => sweepEnd s
    | n :: ns => (s.setDiag (fun d => { d with steps := n :: ns, pos := 0 })).setF pgDiag F.diagStatStep n

/-- A sweep begins over the channels of CH_MASK (R357). -/
def sweepStart (s : State) : State :=
  let mask := s.rd pgDiag F.diagCtrlChMask
  let nt := s.act pgDiag F.diagTonesNt
  let steps := (if s.actIs pgDiag F.diagTonesDcEn then [0] else []) ++ (List.range nt).map (· + 1)
  let s := s.setDiag (fun d => { d with
    go := false, mask := mask, steps := steps, pos := 0, chans := [], pilots := [] })
  let s := s.setB pgDiag F.diagStatBusy true
  let s := s.setF pgDiag F.diagStatStep (nth 0 steps 0)
  let s := s.setF pgDiag F.diagStatLeft (steps.length * stepTicks s)
  let s := eventF s pgDiag F.diagEvtSweepStart
  (bitList 16 mask).foldl (fun s c => if drvState s c = 3 then s else sweepDrop s c 4) s

/-- DIAG's local tick boundary (R357, R361). -/
def diagBoundary (s : State) : State :=
  let s := if sweeping s then
      let s := s.setF pgDiag F.diagStatLeft (s.rd pgDiag F.diagStatLeft - 1)
      s.setDiag (fun d => { d with pos := d.pos + 1 })
    else s
  let s := if s.diag.go && !sweeping s then
      if s.flt.safeOut then sweepAborted (sweepStart s) else sweepStart s
    else s
  (List.range 16).foldl (fun s c =>
    if pilotOn s c && s.rd (pgSns (c / 4)) F.snsStatState == 2 then
      s.setDiag (fun d => { d with pilots := d.pilots.put c (match d.pilots.find c with
        | some x => { x with ticks := x.ticks + 1 }
        | none => {}) })
    else pilotDrop s c) s

/-- DIAG stops: a sweep ends as ABORTED, and no pilot is supplied (R364). -/
def diagStop (s : State) : State := (sweepAborted s).setDiag (fun d => { d with go := false, pilots := [] })

/-- The class of a pilot window (R361). -/
def pilotClass (s : State) (c z : Nat) : Nat :=
  let ref := s.act pgDiag (diagF F.diagChPilotRefMohm c)
  let tol := s.act pgDiag F.diagPilotFreqTol
  if ref = 0 then 1
  else if s.act pgDiag F.diagZlimOpenMohm < z then 3
  else if z < s.act pgDiag F.diagZlimShortMohm ∨ z * 256 < ref * (256 - tol) then 2
  else if ref * (256 + tol) < z * 256 then 4
  else 1

/-- PILOT_WINDOW: a window of a channel is complete (R361). -/
def pilotEnd (s : State) (c : Nat) : State :=
  match s.diag.pilots.find c with
  | none => s
  | some x =>
    let win := s.act pgDiag F.diagPilotWinTicks
    if !pilotOn s c || decide (x.ticks < win) then s
    else if x.n < 4 * win then pilotDrop s c
    else
      let (z, _, s) := diagTone s c x
      let s := s.setF pgDiag (diagF F.diagChPilotZMohm c) z
      let cls := pilotClass s c z
      let agree := s.diag.seen.find c = some cls
      let s := s.setDiag (fun d => { d with pilots := d.pilots.put c {}, seen := d.seen.put c cls })
      let s := if agree ∧ s.rd pgDiag (diagF F.diagChResPilotClass c) ≠ cls then
          let s := s.setF pgDiag (diagF F.diagChResPilotClass c) cls
          diagClass (eventF s pgDiag F.diagEvtPilotChange) c cls
        else s
      if natBit s.diag.capture c then
        (s.setF pgDiag (diagF F.diagChPilotRefMohm c) z).setDiag (fun d => { d with capture := withoutBit d.capture c })
      else s

-- The registers of DIAG (R357, R360, R364).

/-- Writes that DIAG refuses. -/
def diagVeto (s : State) (ofs : Nat) (v : Word) : Option Veto :=
  let f := fun hi lo => getBits v hi lo
  if ofs = 0x040 then
    if !v.getLsbD 31 then none
    else if sweeping s then some .busy
    else
      let nt := s.rd pgDiag F.diagTonesNt
      if 0 < nt then
        vetoUnless (s.rd pgDiag F.diagTonesLfIdx < nt && s.rd pgDiag F.diagTonesHfIdx < nt) .range
      else vetoUnless (s.is pgDiag F.diagTonesDcEn) .range
  else
    let range := match ofs with
      | 0x044 => vetoUnless (4 ≤ f 31 16 && 24 ≤ f 15 0) .range
      | 0x04C => vetoUnless (!v.getLsbD 31) .range
      | 0x050 => vetoUnless (f 3 0 ≤ 8) .range
      | 0x054 | 0x058 | 0x05C | 0x060 =>
        let ok := fun (x : Nat) => decide (10 ≤ x) && decide (x ≤ 40000)
        vetoUnless (ok (f 15 0) && ok (f 31 16)) .range
      | 0x074 => vetoUnless (1 ≤ f 23 16 && 10 ≤ f 15 0 && f 15 0 ≤ 40000) .range
      | 0x07C => vetoUnless (24 ≤ f 15 0) .range
      | _ => none
    orVeto range (if 0x044 ≤ ofs && ofs ≤ 0x070 && sweeping s then some .busy else none)

/-- GO, ABORT and CAPTURE act at DIAG's boundary (R357, R360, R361). -/
def diagOp (s : State) (ofs : Nat) (v : Word) : State :=
  match ofs with
  | 0x040 =>
    let s := if v.getLsbD 30 then sweepAborted s else s
    if v.getLsbD 31 && s.running pgDiag && !s.actIs pgDiag F.ctrlDrain then s.setDiag (fun d => { d with go := true }) else s
  | 0x07C => if v.getLsbD 31 then s.setDiag (fun d => { d with capture := s.act pgDiag F.diagPilotEnMask }) else s
  | _ => s

end Sys2Proof.Machine
end

