-- ==== Sys2Proof/Machine/Power.lean ====
section
/-! DEFINITION. The power stage (11): drive channels and boost controllers. -/

namespace Sys2Proof.Machine

-- Carrier periods (Table 11.1). A boost frequency is named by the carrier code of the same frequency.

/-- Carrier periods in a tick. -/
def carrierCount (c : Nat) : Nat := nth 8 [8, 12, 16, 24] c
/-- Length of period k. -/
def carrierLen (c k : Nat) : Nat :=
  match c with
  | 0 => 2048
  | 1 => if k % 3 = 0 then 1366 else 1365
  | 2 => 1024
  | _ => if k % 3 = 2 then 682 else 683
/-- First count of period k. -/
def carrierStart (c k : Nat) : Nat :=
  match c with
  | 0 => 2048 * k
  | 1 => 4096 * (k / 3) + nth 0 [0, 1366, 2731] (k % 3)
  | 2 => 1024 * k
  | _ => 2048 * (k / 3) + nth 0 [0, 683, 1366] (k % 3)

-- States of a drive channel (Table 11.2).

/-- The group's controller holds its THERMAL trip (R343). -/
def thermalTrip (s : State) (g : Nat) : Bool := (s.bst g).trip

/-- Cause code of the forcing condition of a channel, none where none stands (R333). -/
def forcing (s : State) (c : Nat) : Option Nat :=
  if s.dev.safePin then some 5
  else if thermalTrip s (c / 4) then some 4
  else if !s.dev.refclk then some 7
  else if s.flt.safeDrv.getLsbD c then some 6
  else none

/-- The channel takes a state. -/
def drvSet (s : State) (c st : Nat) (trip : Bool) : State :=
  let old := drvState s c
  let s := s.setF (pgDrv c) F.drvStatState st
  if old = 3 ∧ st ≠ 3 then diagLeft s c trip else s

/-- The channel enters LATCHED. -/
def drvLatch (s : State) (c cause : Nat) (trip : Bool) : State :=
  let s := drvSet ((s.setF (pgDrv c) F.drvStatCause cause).setF (pgDrv c) F.drvTimerMs 0) c 5 trip
  eventF s (pgDrv c) F.drvEvtLatched

/-- A forcing condition arises: a channel in PRECHARGE, RAMP or RUN is FORCED at once (Table 11.2). -/
def drvForce (s : State) (c cause : Nat) : State :=
  let st := drvState s c
  if st = 1 ∨ st = 2 ∨ st = 3 then drvSet (s.setF (pgDrv c) F.drvStatCause cause) c 6 false else s

/-- Every channel under a forcing condition is FORCED. -/
def drvForceAll (s : State) : State :=
  (List.range 16).foldl (fun s c => match forcing s c with
    | some cause => drvForce s c cause
    | none => s) s

-- The block of a tick (R328, R334, R335).

/-- An absent tick of a channel in RAMP or RUN (R334): the block played, and the channel. -/
def drvAbsent (x : DrvSt) : List Int × DrvSt :=
  if x.gap = 0 then (fadeOut 2 (List.replicate 8 x.last), { x with gap := 1, back := 0 })
  else (List.replicate 8 0, { x with gap := 2, back := 0 })

/-- A present block of a channel in RAMP or RUN: it plays, ramped in where a ramp runs; after an absence, silence until
the second in a row. -/
def drvPresent (x : DrvSt) (d : List Int) : List Int × DrvSt :=
  let x := if x.gap = 0 then x
    else if x.back = 0 then { x with gap := 2, back := 1 }
    else { x with gap := 0, back := 0, told := false, ramp := 0 }
  if x.gap ≠ 0 then (List.replicate 8 0, x)
  else if x.ramp < 4 then (rampFrom 2 (8 * x.ramp) d, { x with ramp := x.ramp + 1 })
  else (d, x)

/-- A channel in RAMP or RUN plays the committed block of a tick, or its absence (R334). Under SAFE_OUT it plays silence, and
after it the next blocks ramp in, from silence (R335). -/
def drvPlay (s : State) (tick c : Nat) (blk : Option (List Int)) : State :=
  let p := pgDrv c
  let put := fun (s : State) (cur : List Int) (x : DrvSt) => s.setDrv c (fun y =>
    { x with prev := if y.outHeld then [] else y.cur, cur := cur, tick := some tick, last := at0 cur 7 })
  let s := if blk.isNone then
      let s := s.bump p F.drvCntUnderCount
      if (s.drv c).told then s
      else raise (s.setDrv c (fun x => { x with told := true })) p F.drvFltUnderrun.lo (w32 c)
    else s
  let x := s.drv c
  let x := if x.outHeld then { x with outHeld := false, ramp := 0, last := 0 } else x
  let r := match blk with
    | some d => drvPresent x d
    | none => drvAbsent x
  if s.flt.safeOut then put s (List.replicate 8 0) { r.2 with outHeld := true } else put s r.1 r.2

/-- The committed block of a channel's strip; none where it is absent, or the strip runs in another domain. -/
def drvBlock (s : State) (c tick : Nat) : Option (List Int) :=
  (committedOut s (s.act (pgDrv c) F.drvCfgStrip) tick).filter (fun d => d.length == 8)

/-- The channel enters RAMP: the noise shaper starts from zero; the block of the tick before, which plays in this one, is
the first it ramps in, or is absent (R295, R330, R334). The B command rises: `low` says that DCn_AL is high already. -/
def drvRampIn (s : State) (c : Nat) (low : Bool) : State :=
  let now := s.arch.began.get 0 (pgDrv c)
  let s := s.setDrv c (fun x =>
    { x with prev := [], cur := [], tick := none, last := 0, ramp := 0, pre := 4, gap := 0, told := false, back := 0,
             e1 := 0, e2 := 0, e3 := 0, e4 := 0, e5 := 0, dcSum := 0, dcN := 0,
             width := 0, first := 16384, edge := true, begun := false, low := low })
  let s := drvSet s c 2 false
  if s.arch.began.find pgLatg == some now then drvPlay s (now - 1) c (drvBlock s c (now - 1)) else s

/-- The channel enters PRECHARGE for PRECHG ticks; 0 is none. -/
def drvPrecharge (s : State) (c : Nat) : State :=
  let n := s.act (pgDrv c) F.drvCfgPrechg
  let s := s.setDrv c (fun x => { x with pre := n, retryDue := false, unlatch := false })
  let s := drvSet (s.setF (pgDrv c) F.drvTimerMs 0) c 1 false
  if n = 0 then drvRampIn s c false else s

/-- PRECHARGE_DONE: PRECHG ticks have elapsed. -/
def prechargeEnd (s : State) (c : Nat) : State :=
  if s.running (pgDrv c) && drvState s c == 1 && (s.drv c).pre == 0 then drvRampIn s c true else s

/-- The channel stops: DISABLED, TRIPS cleared, and the condition of OCP ends (Tables 11.2 and 17.8). -/
def drvStop (s : State) (c : Nat) : State :=
  let s := drvSet (s.setF (pgDrv c) F.drvStatTrips 0) c 0 false
  let s := s.setF (pgDrv c) F.drvTimerMs 0
  cease (s.setDrv c (fun _ => {})) (pgDrv c) F.drvFltOcp.lo

/-- At the output commit point of a tick, a channel in RAMP or RUN takes the committed block of its strip. -/
def drvTake (s : State) (tick c : Nat) : State :=
  let st := drvState s c
  if s.running (pgDrv c) && (st == 2 || st == 3) then drvPlay s tick c (drvBlock s c tick) else s

-- Pulses (R328 to R332).

/-- The input signal at a position q in counts from the start of tick n, whose block plays in the tick after it; the
first periods of a tick may begin before its block has been taken, and use the blocks before (R328). -/
def drvInput (x : DrvSt) (n : Nat) (q : Int) : Int :=
  let s0 := q / 2048
  let f := q % 2048
  let taken := x.tick.all (fun t => decide (n ≤ t))
  let at_ := fun (i : Int) =>
    if taken then (if i < 0 then at0 x.prev (8 + i).toNat else at0 x.cur i.toNat)
    else if i < 0 then at0 x.cur (8 + i).toNat else 0
  sat32 (at_ s0 + rne ((at_ (s0 + 1) - at_ s0) * f) 11)

/-- The rail code of a group, while one is available (R329). -/
def railCode (s : State) (g : Nat) : Option Nat :=
  match (s.sns g).rail with
  | some r => if 1 ≤ r then some r.toNat else none
  | none => none

/-- The rail code that a carrier period works with (R329). -/
def carrierRail (s : State) (c : Nat) : Nat :=
  match railCode s (c / 4) with
  | some r => if s.actIs (pgDrv c) F.drvModFfEn then r else s.act (pgDrv c) F.drvFfRailNom
  | none => s.act (pgDrv c) F.drvFfRailNom

/-- The width of a period from the noise shaper (R330): the whole-count width, and the shaper. -/
def shapeWidth (x : DrvSt) (u : Int) : Int × DrvSt :=
  let w := u - (5 * x.e1 - 10 * x.e2 + 10 * x.e3 - 5 * x.e4 + x.e5)
  let y := rne w 16
  (y, { x with e1 := y * 65536 - w, e2 := x.e1, e3 := x.e2, e4 := x.e3, e5 := x.e4 })

/-- CARRIER_PERIOD: a carrier period of a channel in RAMP or RUN begins (R327 to R331, R335, R356). -/
def carrierGo (s : State) (c k : Nat) : State :=
  let p := pgDrv c
  let code := s.act p F.drvCfgCarrier
  let st := drvState s c
  if !s.running p || !(st == 2 || st == 3) || decide (carrierCount code ≤ k) then s
  else
    let len := carrierLen code k
    let start := carrierStart code k
    let q : Int := ((start + len / 2 : Nat) : Int) - 3146
    let v := if s.flt.safeOut || (s.drv c).outHeld then 0 else drvInput (s.drv c) (s.time.tick - 1) q
    let (v, s) := diagValue s c (((s.time.tick - 1) * 16384 : Nat) + q) (start / 2048) v
    let rail := carrierRail s c
    let raw := (v * (s.act p F.drvFfFsV : Int)).tdiv (rail : Int)
    let lim : Int := ((s.act p F.drvModModMax * 2 ^ 15 : Nat) : Int)
    let m := max (-lim) (min raw lim)
    let s := if m = raw then s else s.bump p F.drvCntClipMod
    let s := setInt s p F.drvModLastM m
    let s := s.setF p F.drvRailCode rail
    let (y, x) := shapeWidth (s.drv c) ((2 ^ 31 + m) * len / 65536)
    let least : Int := ((2 * s.act p F.drvCfgDt + 4 : Nat) : Int)
    let w := min (max y least) (len - least)
    let s := if w = y then s else s.bump p F.drvCntClipWidth
    s.setDrv c (fun _ => { x with width := w.toNat, first := (len - w.toNat) / 2, edge := x.edge && !x.begun, begun := true })

/-- The gate outputs DCn_AH, DCn_AL, DCn_BH and DCn_BL at a count of a period (Table 11.2, R331, R332). -/
def drvGates (s : State) (c count : Nat) : Bool × Bool × Bool × Bool :=
  let x := s.drv c
  let dt := s.act (pgDrv c) F.drvCfgDt
  let st := drvState s c
  let a := decide (x.first + dt ≤ count) && decide (count < x.first + x.width)
  let b := fun (on : Bool) => decide (count < x.first) && (on || !x.edge || decide (dt ≤ count))
    || decide (x.first + x.width + dt ≤ count)
  if !s.live || !s.running (pgDrv c) || (forcing s c).isSome then (false, false, false, false)
  else if st = 1 then (false, true, false, true)
  else if st = 2 ∨ st = 3 then (a, b x.low, b false, a)
  else (false, false, false, false)

-- Boost controllers (R342, R343).

def bstState (s : State) (g : Nat) : Nat := s.rd (pgBst g) F.bstStatState
def bstSet (s : State) (g st : Nat) : State := s.setF (pgBst g) F.bstStatState st

/-- The words of B0 with the samples of the output delay ring that a channel will output in blocks N + 1 to N + LA_i, none
for one that the ring has not yet been given (R342). -/
def bstWords (s : State) (g strip : Nat) : List (Option Nat) :=
  match s.allTasks.find? (fun a =>
    let k := (s.taskAt a.1 a.2).task
    k.kind == kDyn && k.side && k.object == strip) with
  | none => []
  | some a =>
    let x := s.taskAt a.1 a.2
    let len := (rw0 x.copy 7).toNat
    let d := (rw0 x.copy 8).toNat
    let base := (rw0 x.copy 6).toNat
    let w := (at0 x.work 17).toNat
    let f := (at0 x.work 18).toNat
    if len = 0 then []
    else (List.range (8 * min (s.act (pgBst g) F.bstCfgLa) (d / 8))).map (fun j =>
      if d < min (f + j + 1) len then some (4 * (base + (w + j + len - d) % len)) else none)

/-- Those samples. -/
def bstAhead (s : State) (g strip : Nat) : List Int :=
  (bstWords s g strip).map (fun a => (a.map (fun a => (s.memWord a).toInt)).getD 0)

/-- CAND of a group at the output commit point of a tick (R342). -/
def bstCand (s : State) (g tick : Nat) : Nat :=
  let p := pgBst g
  let lo := s.act p F.bstLimRailMin
  let hi := s.act p F.bstLimRailMax
  let chans := ((List.range 4).filter (natBit (s.act p F.bstCfgMask))).filter (fun i =>
    drvState s (4 * g + i) == 2 || drvState s (4 * g + i) == 3)
  if chans.isEmpty || s.flt.safeOut then min lo hi
  else
    let head := s.act p F.bstTgtHead
    let want := chans.map (fun i =>
      let c := 4 * g + i
      let strip := s.act (pgDrv c) F.drvCfgStrip
      let now := (drvBlock s c tick).getD []
      let pk := ((now ++ bstAhead s g strip).map mag).foldl max 0
      (rne (((pk * s.act (pgDrv c) F.drvFfFsV : Nat) : Int)) 31).toNat + head)
    min (max (want.foldl max 0) lo) hi

/-- The rail target for the next tick, at the output commit point of a tick; it stands where a look-ahead block cannot be
read from B0 by then (R342). -/
def bstTarget (s : State) (tick g : Nat) : State :=
  let p := pgBst g
  let st := bstState s g
  if !s.running p || st == 0 || st == 2 then s
  else
    let taken := ((List.range 4).filter (natBit (s.act p F.bstCfgMask))).filter (fun i =>
      (drvState s (4 * g + i) == 2 || drvState s (4 * g + i) == 3)
        && !(bstWords s g (s.act (pgDrv (4 * g + i)) F.drvCfgStrip)).isEmpty)
    if bankWaits s 0 && !taken.isEmpty then s.bump p F.bstCntLate
    else
    let words := taken.flatMap (fun i => bstWords s g (s.act (pgDrv (4 * g + i)) F.drvCfgStrip))
    let s := eccReads s (fun a => words.contains (some a))
    let tg := min (max (bstCand s g tick) ((s.bst g).tg - s.act p F.bstTgtDecay)) (s.act p F.bstLimRailMax)
    (s.setBst g (fun x => { x with tg := tg })).setF p F.bstStatTg tg

/-- The controller enters HOLD. -/
def bstHold (s : State) (g : Nat) : State := eventF (bstSet s g 2) (pgBst g) F.bstEvtHold

/-- The controller returns to RUN; a HOLD that a trip restarted meanwhile begins (R343). -/
def bstRun (s : State) (g : Nat) : State := if 0 < (s.bst g).hold then bstHold s g else bstSet s g 1

/-- A channel of the group trips (R342, R343). -/
def bstTrip (s : State) (g : Nat) : State :=
  let p := pgBst g
  let st := bstState s g
  if !s.running p || st == 0 then s
  else
    let s := s.setBst g (fun x => { x with hold := s.act p F.bstOvHold })
    if st = 1 then bstHold s g else s

/-- A running controller enters OVP (Table 11.3). -/
def bstOvp (s : State) (g : Nat) : State :=
  let p := pgBst g
  let s := bstSet (s.setBst g (fun x => { x with i := 0, hold := 0 })) g 3
  eventF (s.bump p F.bstCntOvpCount) p F.bstEvtOvpEnter

/-- Over-voltage, by the pin or by a rail code (R343). -/
def bstOver (s : State) (g : Nat) (pin : Bool) : State :=
  if bstState s g = 1 ∨ bstState s g = 2 then
    raiseSev (bstOvp s g) (pgBst g) F.bstFltRailOv.lo (w32 (g + if pin then 256 else 0)) true reactSafeDrv
  else s

/-- A boost controller's local tick boundary (Table 11.3); BGg_OVP_N may be low already as it enters RUN (R343). -/
def bstBoundary (s : State) (g : Nat) : State :=
  let p := pgBst g
  match bstState s g with
  | 0 =>
    let lo := s.act p F.bstLimRailMin
    let s := bstSet ((s.setBst g (fun x => { x with tg := lo, i := 0, hold := 0 })).setF p F.bstStatTg lo) g 1
    if (s.bst g).ovpPin then bstOver s g true else s
  | 2 => s.setBst g (fun x => { x with hold := x.hold - 1 })
  | _ => s

/-- BOOST_HOLD_EXPIRY: HOLD ticks have elapsed. -/
def bstHoldEnd (s : State) (g : Nat) : State :=
  if s.running (pgBst g) && bstState s g == 2 && (s.bst g).hold == 0 then bstSet s g 1 else s

/-- The controller stops: OFF, and its level conditions end (Tables 11.3 and 17.8). -/
def bstStop (s : State) (g : Nat) : State :=
  let low := (s.bst g).ovpPin
  let s := (s.setF (pgBst g) F.bstStatTg 0).setF (pgBst g) F.bstRailDuty 0
  ceaseAll (bstSet (s.setBst g (fun _ => { ovpPin := low })) g 0) (pgBst g)

/-- The loop updates I and D at a rail sample (R343). -/
def bstDuty (s : State) (g : Nat) (rail : Int) : State :=
  let p := pgBst g
  let top : Int := ((s.act p F.bstCfgDmax * 65536 : Nat) : Int)
  let e : Int := ((s.bst g).tg : Int) - rail
  let i := min (max ((s.bst g).i + (s.act p F.bstLoopKi : Int) * e) 0) top
  let d := min (max ((s.act p F.bstLoopKp : Int) * e + i) 0) top
  (s.setBst g (fun x => { x with i := i, d := d })).setF p F.bstRailDuty (d.toNat / 256)

/-- The THERMAL trip: the gate and the group's channels are held (R343). -/
def bstThermTrip (s : State) (g : Nat) (ctx : Word) : State :=
  let s := s.setBst g (fun x => { x with trip := true })
  let s := raiseSev s (pgBst g) F.bstFltThermal.lo ctx true reactSafeDrv
  (List.range 4).foldl (fun s i => drvForce s (4 * g + i) 4) s

/-- A temperature code of the group (R343). -/
def bstThermal (s : State) (g : Nat) (code : Int) : State :=
  let p := pgBst g
  let warn := s.actInt p F.bstThermTWarn
  let top := s.actInt p F.bstThermTTrip
  let s := if warn < code ∧ !(s.bst g).warned then
      let s := s.setBst g (fun x => { x with warned := true })
      raise (eventF s p F.bstEvtThermWarn) p F.bstFltThermal.lo (w32 g)
    else if code < warn ∧ (s.bst g).warned then
      ceaseIf (s.setBst g (fun x => { x with warned := false })) p F.bstFltThermal.lo (fun l => !l.crim)
    else s
  let s := s.setBst g (fun x => { x with hot := if top < code then x.hot + 1 else 0, cool := decide (code < warn) })
  if 2 ≤ (s.bst g).hot ∧ !(s.bst g).trip then bstThermTrip s g (w32 (g + 256)) else s

/-- THERMAL_CLEAR: 1 s has passed with every code below T_WARN (R343). -/
def bstThermalEnd (s : State) (g : Nat) : State :=
  if s.running (pgBst g) && (s.bst g).trip && (s.bst g).cool then
    ceaseIf (s.setBst g (fun x => { x with trip := false })) (pgBst g) F.bstFltThermal.lo (fun l => l.crim)
  else s

/-- A sense frame's rail and temperature codes reach the controller (R343). -/
def bstSample (s : State) (g : Nat) (rail temp : Int) : State :=
  let p := pgBst g
  if !s.running p || bstState s g == 0 then s
  else
    let s := setInt s p F.bstRailCode rail
    let st := bstState s g
    let pin := (s.bst g).ovpPin
    let s := if st = 3 then
        if !pin && decide (rail ≤ (s.act p F.bstLimRailMax : Int)) then
          bstRun (cease (eventF s p F.bstEvtOvpExit) p F.bstFltRailOv.lo) g
        else s
      else if st = 4 then bstRun s g else s
    let s := if pin then bstOver s g true
      else if (s.act p F.bstOvRailOv : Int) < rail then bstOver s g false else s
    let s := if bstState s g = 1 ∨ bstState s g = 2 then bstDuty s g rail else s
    bstThermal s g temp

/-- SENSE_TIMEOUT: no rail sample for 3 sense periods (R329, R343). -/
def bstBlind (s : State) (g : Nat) : State :=
  let s := s.setSns g (fun x => { x with rail := none })
  let st := bstState s g
  if s.running (pgBst g) && (st == 1 || st == 2) then bstSet (s.setBst g (fun x => { x with i := 0, hold := 0 })) g 4 else s

/-- The gate of a controller is held low (Table 11.3, R341, R459). -/
def bstHeldLow (s : State) (g : Nat) : Bool :=
  let st := bstState s g
  !s.live || !s.running (pgBst g) || !(st == 1 || st == 2) || s.dev.safePin || !s.dev.refclk || (s.bst g).trip
    || (s.bst g).ovpPin || s.flt.safeBst.getLsbD g

/-- The carrier code of a boost frequency. -/
def bstFreq (s : State) (g : Nat) : Nat := nth 0 [0, 2, 3] (s.act (pgBst g) F.bstCfgFreq)

/-- BOOST_PERIOD: a period of the boost gate begins (R343). -/
def boostGo (s : State) (g k : Nat) : State :=
  let f := bstFreq s g
  if !s.running (pgBst g) || decide (carrierCount f ≤ k) then s
  else
    let n := if bstHeldLow s g then 0 else (s.bst g).d.toNat * carrierLen f k / 2 ^ 24
    s.setBst g (fun x => { x with on_ := n, ilim := false })

/-- BOOST_ILIM: BGg_ILIM_N ends the on-time of the current period early (R343). -/
def boostLimit (s : State) (g : Nat) : State :=
  if !s.running (pgBst g) || (s.bst g).on_ == 0 || (s.bst g).ilim then s
  else (s.setBst g (fun x => { x with ilim := true })).bump (pgBst g) F.bstCntIlim

/-- BOOST_OVP_PIN: BGg_OVP_N changes, filtered; of a core that does not work only its level is noted (R343). -/
def boostPin (s : State) (g : Nat) (low : Bool) : State :=
  let s := s.setBst g (fun x => { x with ovpPin := low })
  if low && s.live && s.running (pgBst g) then bstOver s g true else s

-- Protection (R336 to R341).

/-- A channel trips (R336); a context given stands in place of its own (R53). -/
def drvTrip (s : State) (c : Nat) (ctx : Option Word) : State :=
  let p := pgDrv c
  let n := s.rd p F.drvStatTrips + 1
  let s := (s.setF p F.drvStatTrips n).bump p F.drvCntOcCount
  let s := s.setDrv c (fun x => { x with
    retryDue := false, since := 0, short := if s.actIs p F.drvProtShortEn then 2 else 0 })
  let s := s.setF p F.drvTimerMs (s.act p F.drvRetryMs)
  let s := if s.act p F.drvRetryRetries < n then drvLatch s c 1 true
    else eventF (drvSet (s.setF p F.drvStatCause 1) c 4 true) p F.drvEvtTrip
  let s := raiseSev s p F.drvFltOcp.lo (ctx.getD (w32 (c + 16 * n))) true reactSafeDrv
  bstTrip s (c / 4)

/-- The channel drives its load, or is about to: PRECHARGE, RAMP or RUN. -/
def drvArmed (s : State) (c : Nat) : Bool :=
  s.running (pgDrv c) && (drvState s c == 1 || drvState s c == 2 || drvState s c == 3)

/-- What a drive channel's local tick boundary leaves and enters (Table 11.2). DRV_TIMER falls every 24th boundary after the
trip, once a millisecond (log 29). -/
def drvLeave (s : State) (c : Nat) : State :=
  let p := pgDrv c
  let x := s.drv c
  let clear := (forcing s c).isNone
  let unl := x.unlatch
  let s := s.setDrv c (fun x => { x with unlatch := false })
  match drvState s c with
  | 0 => if clear then drvPrecharge s c else s
  | 1 => s.setDrv c (fun x => { x with pre := x.pre - 1 })
  | 2 =>
    if 1 < x.pre then s.setDrv c (fun x => { x with pre := x.pre - 1 })
    else cease (eventF (drvSet s c 3 false) p F.drvEvtRun) p F.drvFltOcp.lo
  | 4 =>
    if x.retryDue && clear then eventF (drvPrecharge s c) p F.drvEvtRetry
    else
      let s := s.setDrv c (fun x => { x with since := x.since + 1 })
      if 0 < s.rd p F.drvTimerMs ∧ (x.since + 1) % 24 = 0 then s.setF p F.drvTimerMs (s.rd p F.drvTimerMs - 1) else s
  | 5 => if unl && clear then drvPrecharge (s.setF p F.drvStatTrips 0) c else s
  | 6 => if clear then drvPrecharge s c else s
  | _ => s

/-- A drive channel's local tick boundary. Where DCn_OC_N is still low, a channel that leaves its safe state trips again
(R336). -/
def drvBoundary (s : State) (c : Nat) : State :=
  let s := drvLeave s c
  if s.dev.ocPin.getLsbD c && drvArmed s c then drvTrip s c none else s

/-- OVERCURRENT_TRIP: DCn_OC_N has been low for OC_FILT cycles, or has risen; a core that does not work only has its level
(R336; log 29). -/
def overcurrent (s : State) (c : Nat) (low : Bool) : State :=
  let bit : BitVec 16 := 1#16 <<< c
  let s := { s with dev := { s.dev with ocPin := if low then s.dev.ocPin ||| bit else s.dev.ocPin &&& ~~~bit } }
  if low && s.live && drvArmed s c then drvTrip s c none else s

/-- A fault of a drive channel that PG_FLT_FORCE injects is handled as a detected one: the stage goes into its safe
state (R53). -/
def drvForced (s : State) (c bit : Nat) : State :=
  let p := pgDrv c
  let say := fun s => raiseSev s p bit 0xFFFFFFFF true reactSafeDrv
  if bit = F.drvFltOcp.lo then (if drvArmed s c then drvTrip s c (some 0xFFFFFFFF) else say s)
  else if bit = F.drvFltShort.lo then
    let s := say s
    if s.actIs p F.drvProtShortLatch && (drvArmed s c || drvState s c == 4) then drvLatch (s.setF p F.drvStatCause 2) c 2 true
    else if drvArmed s c then drvSet (s.setF p F.drvStatCause 2) c 4 true
    else s
  else if drvArmed s c then drvLatch (say s) c 3 false
  else say s

/-- A fault of a boost controller that PG_FLT_FORCE injects (R53). -/
def bstForced (s : State) (g bit : Nat) : State :=
  if bit = F.bstFltThermal.lo then bstThermTrip s g 0xFFFFFFFF
  else
    let s := if bstState s g = 1 ∨ bstState s g = 2 then bstOvp s g else s
    raiseSev s (pgBst g) bit 0xFFFFFFFF true reactSafeDrv

/-- RETRY_EXPIRY: RETRY_MS has elapsed since the trip (Table 11.2). -/
def retryTime (s : State) (c : Nat) : State :=
  if s.running (pgDrv c) && drvState s c == 4 then
    (s.setDrv c (fun x => { x with retryDue := true })).setF (pgDrv c) F.drvTimerMs 0
  else s

/-- TRIP_COUNT_CLEAR: RETRY_CLR seconds spent in RUN (R336). -/
def tripsClear (s : State) (c : Nat) : State :=
  if s.running (pgDrv c) && drvState s c == 3 then s.setF (pgDrv c) F.drvStatTrips 0 else s

/-- A sense sample after a trip (R337). -/
def shortCheck (s : State) (c : Nat) (v i : Int) : State :=
  let p := pgDrv c
  if (s.drv c).short = 0 then s
  else
    let s := s.setDrv c (fun x => { x with short := x.short - 1 })
    if s.act p F.drvShortIShort ≤ i.natAbs ∧ v.natAbs * 4096 < i.natAbs * s.act p F.drvShortZRatio then
      let s := s.setDrv c (fun x => { x with short := 0 })
      let s := s.setF p F.drvStatCause 2
      let s := raiseSev s p F.drvFltShort.lo (w32 c) true reactSafeDrv
      if s.actIs p F.drvProtShortLatch && drvState s c == 4 then drvLatch s c 2 true else s
    else s

/-- A channel in its DC step of a sweep: its DC check is suspended (R357). -/
def dcSuspended (s : State) (c : Nat) : Bool := sweepOn s c && nth 1 s.diag.steps 0 == 0

/-- The codes of a channel in a sense frame reach its drive channel (R337, R339). -/
def drvSample (s : State) (c : Nat) (v i : Int) : State :=
  if !s.running (pgDrv c) then s
  else
    let s := shortCheck s c v i
    let st := drvState s c
    if dcSuspended s c then s.setDrv c (fun x => { x with dcSum := 0, dcN := 0 })
    else if st = 2 ∨ st = 3 then s.setDrv c (fun x =>
      if x.dcN < 9600 then { x with dcSum := x.dcSum + v, dcN := x.dcN + 1 } else { x with dcSum := v, dcN := 1 })
    else s

/-- DC_WINDOW: 9,600 sense samples of a channel in RAMP or RUN are complete (R339). -/
def dcCheck (s : State) (c : Nat) : State :=
  let p := pgDrv c
  let st := drvState s c
  if !s.running p || !(st == 2 || st == 3) || (s.drv c).dcN != 9600 then s
  else
    let sum := (s.drv c).dcSum.natAbs
    let s := s.setDrv c (fun x => { x with dcSum := 0, dcN := 0 })
    if s.actIs p F.drvProtDcEn && decide (s.act p F.drvProtDcMax * 9600 < sum) then
      drvLatch (raiseSev s p F.drvFltDcOffset.lo (w32 c) true reactSafeDrv) c 3 false
    else s

/-- SAFE_PIN_ASSERT: DRV_SAFE_N low, filtered: every enabled channel is FORCED and every boost gate held low (R341). -/
def safePinLow (s : State) : State :=
  if s.dev.safePin then s
  else drvForceAll ({ s with dev := { s.dev with safePin := true } }.bump pgDev F.devCntSafeCount)

-- Views and refusals (R344, R345).

/-- The bits of DRV_STAT that follow other state. -/
def drvView (s : State) (c ofs : Nat) : Option Word :=
  if ofs = 0x060 then
    let w := s.reg (pgDrv c) 0x060
    let bit := fun (n : Nat) (b : Bool) (w : Word) => setBits w n n (if b then 1 else 0)
    some (bit 15 s.flt.safeOut (bit 14 (s.running (pgDrv c) && (railCode s (c / 4)).isNone) (bit 13 s.dev.safePin
      (bit 12 (s.dev.ocPin.getLsbD c) w))))
  else none

/-- Writes that a drive channel refuses; EN = 1 where its strip is taken or runs in another domain (R326, R344). -/
def drvVeto (ofs : Nat) (v : Word) : Option Veto :=
  let f := fun hi lo => getBits v hi lo
  match ofs with
  | 0x040 => vetoUnless (1 ≤ f 27 24 && 1 ≤ f 21 16) .range
  | 0x044 => vetoUnless (32768 ≤ f 15 0 && f 15 0 ≤ 64880) .range
  | 0x048 => vetoUnless (1 ≤ f 31 16 && f 31 16 ≤ 32767 && f 15 0 ≤ 32767) .range
  | 0x04C => vetoUnless (1 ≤ f 15 0 && f 15 0 ≤ 32767) .range
  | 0x050 => vetoUnless (1 ≤ f 15 0 && f 15 0 ≤ 32767) .range
  | 0x054 => vetoUnless (1 ≤ f 31 24 && 1 ≤ f 15 0 && f 15 0 ≤ 10000) .range
  | _ => none

/-- EN = 1 of a drive channel is accepted (R326). -/
def drvOk (s : State) (c : Nat) : Bool :=
  let strip := s.rd (pgDrv c) F.drvCfgStrip
  let other := (List.range 16).any (fun d =>
    d != c && s.is (pgDrv d) F.ctrlEn && s.rd (pgDrv d) F.drvCfgStrip == strip)
  !other && (match stripDomain s strip with
    | some d => d == 2
    | none => true)

/-- What an accepted write of a register of a drive channel does beside its fields. -/
def drvWrote (s : State) (c ofs : Nat) (v : Word) : State :=
  if ofs = 0x058 ∧ v.getLsbD 0 then
    if s.running (pgDrv c) && drvState s c == 5 then s.setDrv c (fun x => { x with unlatch := true }) else s
  else s

/-- Writes that a boost controller refuses (R345). -/
def bstVeto (ofs : Nat) (v : Word) : Option Veto :=
  let f := fun hi lo => getBits v hi lo
  match ofs with
  | 0x040 => vetoUnless (f 20 16 ≤ 16 && 1 ≤ f 15 8 && f 15 8 ≤ 243 && f 1 0 ≤ 2) .range
  | 0x044 => vetoUnless (1 ≤ f 31 16 && f 31 16 ≤ 32767 && f 15 0 ≤ 32767) .range
  | 0x048 => vetoUnless (f 31 16 ≤ 32767 && f 15 0 ≤ 32767 && f 15 0 ≤ f 31 16) .range
  | 0x04C => vetoUnless (1 ≤ f 23 16 && 1 ≤ f 15 0 && f 15 0 ≤ 32767) .range
  | 0x054 => vetoUnless (ofBits 16 (f 15 0) < ofBits 16 (f 31 16)) .range
  | _ => none

end Sys2Proof.Machine
end

