-- ==== Sys2Proof/Machine/Meas.lean ====
section
/-! DEFINITION. Sense ports, taps, exposure meters and capture (12). -/

namespace Sys2Proof.Machine

-- Sense ports (R346 to R349).

def snsState (s : State) (g : Nat) : Nat := s.rd (pgSns g) F.snsStatState

/-- The code of a sense sample (R348). -/
def senseCode (w : Word) : Int := (w.extractLsb' 16 16).toInt

/-- A sense port leaves RUN for SYNC (R349). -/
def snsLeave (s : State) (g bit : Nat) (cnt : Fld) : State :=
  let p := pgSns g
  let s := s.setSns g (fun x => { x with good := 0, whole := false })
  let s := (s.setF p F.snsStatState 1).bump p cnt
  diagNoSense (eventF (raise s p bit (w32 g)) p F.snsEvtLost) g

/-- The codes of a completed frame reach DRV, BST and DIAG (R347, R349). -/
def snsDeliver (s : State) (g : Nat) (slots : List Word) : State :=
  let p := pgSns g
  let s := (slots.zipIdx.take 12).foldl (fun s e => s.setF p (F.snsSlot.at 4 e.2) e.1.toNat) s
  let s := s.roll p F.snsFramesCount
  let code := fun n => senseCode (rw0 slots n)
  let s := s.setSns g (fun x => { x with count := x.count + 1, rail := some (code 8) })
  let s := (List.range 4).foldl (fun s i =>
    let c := 4 * g + i
    diagSample (drvSample s c (code (2 * i)) (code (2 * i + 1))) c (code (2 * i)) (code (2 * i + 1))) s
  bstSample s g (code 8) (code 10)

/-- What a sense port samples of a bit clock: the data and the sync, on the edge that BCLK_POL names (R346). -/
def snsBit (s : State) (g : Nat) (b : SerialBit) : Bool × Bool :=
  if s.actIs (pgSns g) F.snsCfgBclkPol then (b.dinFall, b.fsFall) else (b.dinRise, b.fsRise)

/-- The wires carry a whole frame: the sync rises, and 384 bits follow, after one bit clock with FS_DLY (R346). -/
def snsWhole (s : State) (g : Nat) (w : SerialFrame) : Bool :=
  match w.bits with
  | b :: _ => (snsBit s g b).2 && !(snsBit s g w.before).2 && w.bits.length == 384 + s.act (pgSns g) F.snsCfgFsDly
  | [] => false

/-- The twelve slots of a frame, most significant bit first (R346). -/
def snsSlots (s : State) (g : Nat) (w : SerialFrame) : List Word :=
  let data := (w.bits.drop (s.act (pgSns g) F.snsCfgFsDly)).map (fun b => (snsBit s g b).1)
  (List.range 12).map (fun k => w32 (((data.drop (32 * k)).take 32).foldl (fun v b => 2 * v + b.toNat) 0))

/-- SENSE_FRAME: a frame completes whose start fell 384 bit clocks after the one before. The second frame in step in SYNC
enters RUN and completes there (R349). -/
def senseFrameAct (s : State) (g : Nat) (w : SerialFrame) : State :=
  let p := pgSns g
  let s := s.setB p F.snsStatBclkPresent true
  let slots := snsSlots s g w
  if !s.running p || !snsWhole s g w then s
  else
    match snsState s g with
    | 2 => snsDeliver s g slots
    | 1 =>
      if 1 ≤ (s.sns g).good then
        let s := (s.setSns g (fun x => { x with good := 0 })).setF p F.snsStatState 2
        snsDeliver (cease (eventF s p F.snsEvtRun) p F.snsFltClkLoss.lo) g slots
      else s.setSns g (fun x => { x with good := 1 })
    | _ => s

/-- SENSE_MISPLACED_FRAME_START: a frame start at another count than 384, or none at 384 (R349). -/
def senseMisplaced (s : State) (g : Nat) : State :=
  let s := s.setB (pgSns g) F.snsStatBclkPresent true
  if !s.running (pgSns g) then s
  else if snsState s g = 2 then snsLeave s g F.snsFltSyncSlip.lo F.snsCntSlip
  else s.setSns g (fun x => { x with good := 0 })

/-- SENSE_CLOCK_LOSS: no edge of SNg_BCLK for 1 µs (R349). -/
def senseLoss (s : State) (g : Nat) : State :=
  let s := s.setB (pgSns g) F.snsStatBclkPresent false
  if !s.running (pgSns g) then s
  else
    if snsState s g = 2 then snsLeave s g F.snsFltClkLoss.lo F.snsCntLoss
    else s.setSns g (fun x => { x with good := 0 })

/-- SENSE_COUNT_CHECK: a window of 2,400 ticks closes at a tick number divisible by 2,400 (R349). -/
def senseCount (s : State) (g : Nat) : State :=
  let p := pgSns g
  let now := s.time.tick
  let x := s.sns g
  if !s.running p || now % 2400 != 0 || x.win == some now then s
  else
    let s := s.setSns g (fun x => { x with count := 0, whole := snsState s g == 2, win := some now })
    if x.whole && !(decide (9599 ≤ x.count) && decide (x.count ≤ 9601)) then
      raise (s.bump p F.snsCntSlip) p F.snsFltSyncSlip.lo (w32 (g + 256))
    else s

/-- EN = 1 of a sense port takes effect: SYNC. -/
def snsStart (s : State) (g : Nat) : State := s.setF (pgSns g) F.snsStatState 1

/-- A sense port stops: DISABLED; from RUN with PG_EVT.LOST (Table 12.5). -/
def snsStop (s : State) (g : Nat) : State :=
  let was := snsState s g = 2
  let s := s.setSns g (fun x => { rail := x.rail, win := x.win })
  let s := s.setF (pgSns g) F.snsStatState 0
  ceaseAll (if was then diagNoSense (eventF s (pgSns g) F.snsEvtLost) g else s) (pgSns g)

-- Taps (R351).

/-- The number of a tap's source among the outputs: an input strip counts from 1,024. -/
def tapNumber (out : Bool) (strip : Nat) : Nat := if out then strip else 1024 + strip

/-- Capture taps in ascending order, of the word that a function gives for each: number and samples. A strip that the active
image does not place counts two samples (log 11). -/
def tapsOf (s : State) (word : Nat → Word) : List (Nat × Nat) :=
  (List.range 32).filterMap (fun k =>
    if (word (0x080 + 4 * k)).getLsbD 31 then
      let n := tapNumber ((word (0x080 + 4 * k)).getLsbD 30) (getBits (word (0x080 + 4 * k)) 9 0)
      some (n, match stripDomain s n with
        | some d => samplesOf d
        | none => 2)
    else none)

/-- The enabled capture taps, as their registers read. -/
def capTaps (s : State) : List (Nat × Nat) := tapsOf s (s.reg pgMea)

/-- R of a list of taps, bytes (R354). -/
def recBytes (taps : List (Nat × Nat)) : Nat := 4 * (taps.map (·.2)).sum

-- Exposure meters (R352, R353).

def expF (f : Fld) (e : Nat) : Fld := f.at 0x20 e
def State.exps (s : State) (e : Nat) : ExpSt := s.meas.exps.get {} e
def State.setExp (s : State) (e : Nat) (f : ExpSt → ExpSt) : State :=
  { s with meas := { s.meas with exps := s.meas.exps.put e (f (s.exps e)) } }
def State.setCap (s : State) (f : CapSt → CapSt) : State :=
  { s with meas := { s.meas with cap := f s.meas.cap } }

/-- The source of a meter. -/
def expSource (s : State) (e : Nat) : Nat :=
  tapNumber (s.actIs pgMea (expF F.meaExpCfgKind e)) (s.act pgMea (expF F.meaExpCfgStrip e))

/-- The domain of a meter's source. -/
def expSamples (s : State) (e : Nat) : Nat := samplesOf ((stripDomain s (expSource s e)).getD 0)

/-- Writes into B4 that waited are made once the bank answers. -/
def meaFlush (s : State) : State :=
  if bankWaits s 4 then s
  else s.meas.late.foldl (fun s e => s.setMemWords e.1 e.2) { s with meas := { s.meas with late := [] } }

/-- MEA writes words into B4; they wait while the bank does not answer (R17, R363). -/
def meaWrite (s : State) (a : Nat) (ws : List Word) : State :=
  if bankWaits s 4 then { s with meas := { s.meas with late := s.meas.late ++ [(a, ws)] } }
  else (meaFlush s).setMemWords a ws

/-- The copy of a meter's weighting record at MEA's boundary (R263, Table 12.4). While B1 does not answer, as in a restart of
the Memory subsystem, the copy stands (R17). -/
def expCopy (s : State) (e : Nat) : State :=
  let ofs := s.act pgMea (expF F.meaExpCoefOfs e)
  let r := s.memWords (b1At ofs) 24
  if bankWaits s 1 then s
  else
  let s := eccReads s (inWords (b1At ofs) 24)
  if (rw0 r 0).getLsbD 31 || clearedLate s ofs s.time.tick 48 then s
  else if getBits (rw0 r 0) 30 4 == 0 && zeroWords r 1 3 then s.setExp e (fun x => { x with copy := r, raised := false })
  else if (s.exps e).raised then s
  else raise (s.setExp e (fun x => { x with raised := true })) pgMea 2 (w32 ofs)

/-- A meter's bit of MEA_EXP_EN at MEA's boundary; the first second closes at a later one (R352). -/
def expBoundary (s : State) (e : Nat) : State :=
  if natBit (s.act pgMea F.meaExpEnEn) e then
    let s := if (s.exps e).on then s
      else (s.setExp e (fun _ => { on := true, closed := some s.time.tick })).setF pgMea (expF F.meaExpSecS e) 0
    expCopy s e
  else s.setExp e (fun x => { x with on := false })

/-- A tick's block of a meter's source: four biquads and the sum of squares (R352). -/
def expTap (tick : Nat) (s : State) (e : Nat) : State :=
  let x := s.exps e
  if !x.on then s
  else
    let d := committedOut s (expSource s e) tick
    let s := if d.isNone then s.bump pgMea (expF F.meaExpGapCount e) else s
    let data := d.getD (List.replicate (expSamples s e) 0)
    let en := getBits (rw0 x.copy 0) 3 0
    let mem := x.bq ++ List.replicate (16 - x.bq.length) 0
    let (y, m) := mapState (bqChain x.copy 4 4 en) mem data
    let sum := (y.map (fun v => (rne (v * v) 31).toNat)).sum
    s.setExp e (fun x => { x with bq := m, sum := x.sum + sum })

/-- EXPOSURE_SECOND: a meter closes a second at a tick number divisible by 24,000 (R352, R353). -/
def expSecond (s : State) (e : Nat) : State :=
  let x := s.exps e
  let now := s.time.tick
  if !s.running pgMea || !x.on || now % 24000 != 0 || x.closed == some now then s
  else
    let s := s.setExp e (fun x => { x with sum := 0, first := false, closed := some now })
    if x.first then s
    else
      let v := x.sum / (24000 * expSamples s e)
      let sec := s.rd pgMea (expF F.meaExpSecS e) + 1
      let es := (v :: x.es).take 3600
      let m := min sec (s.act pgMea (expF F.meaExpCfgWin e))
      let ms := (es.take m).sum / m
      let l := log2Q ms
      let s := meaWrite s (0x077E0000 + 0x4000 * e + 4 * (sec % 3600)) [w32 v]
      let s := s.setF pgMea (expF F.meaExpSecS e) sec
      let s := s.setF pgMea (expF F.meaExpLastE e) v
      let s := s.setF pgMea (expF F.meaExpMsMs e) ms
      let s := setInt s pgMea (expF F.meaExpLL e) l
      let above := decide (s.actInt pgMea (expF F.meaExpLimitL e) ≤ l)
      let s := s.setExp e (fun x => { x with es := es, above })
      let s := eventF s pgMea F.meaEvtExpSecond
      if above && !x.above then event s pgMea (16 + e) else s

-- Capture (R354, R355).

/-- The capture stops. -/
def capStop (s : State) : State :=
  let c := s.meas.cap
  let held := s.rd pgMea F.meaCapWptrHeld
  let first := if c.count = 0 then c.start else c.newest + 1 - held
  let s := (s.setB pgMea F.meaCapStatBusy false).setB pgMea F.meaCapStatDone true
  let s := s.setF pgMea F.meaCapFirstLoTick (first % 2 ^ 32)
  let s := s.setF pgMea F.meaCapFirstHiTick (first / 2 ^ 32 % 65536)
  eventF (s.setCap (fun c => { c with left := none })) pgMea F.meaEvtCapDone

/-- A trigger: the first after the start of a ring capture sets what is left; in MODE 0 a STOP ends the capture. -/
def capTrigger (s : State) : State :=
  if !s.is pgMea F.meaCapStatBusy then s
  else if s.rd pgMea F.meaCapCtrlMode = 0 then capStop s
  else if s.is pgMea F.meaCapStatTriggered then s
  else
    let left := s.rd pgMea F.meaCapPostTicks
    let s := s.setB pgMea F.meaCapStatTriggered true
    let s := eventF (s.setCap (fun c => { c with left := some left })) pgMea F.meaEvtCapTrig
    if left = 0 then capStop s else s

/-- The tick that begins next at MEA. -/
def meaNext (s : State) : Nat :=
  match s.arch.began.find pgMea with
  | some n => n + 1
  | none => s.time.tick

/-- FLT stores a Crimson record (R354). -/
def capFault (s : State) : State :=
  if s.running pgMea && decide (s.meas.cap.start < meaNext s) && s.rd pgMea F.meaCapCtrlMode == 1
      && s.is pgMea F.meaCapCtrlTrigFault
  then capTrigger s else s

/-- GO: the capture starts with the tick that begins next at MEA, or with CAP_TICK; one already begun there fails as a commit
does (R64, R354). On a MEA with EN = 0 it stops at once (R363). -/
def capGo (s : State) : State :=
  let at_ := s.rd pgMea F.meaCapTickHiTick * 2 ^ 32 + s.rd pgMea F.meaCapTickLoTick
  if s.is pgMea F.meaCapCtrlAtTick && decide (at_ < meaNext s) then
    raise (event (s.setF pgMea F.cmtFailed 1) pgMea 1) pgMea 3 (w32 (s.rd pgMea F.meaCapTickLoTick))
  else
    let start := if s.is pgMea F.meaCapCtrlAtTick then at_ else meaNext s
    let taps := capTaps s
    let s := s.setCap (fun _ => { start := start, taps := taps })
    let s := (s.setReg pgMea F.meaCapStatBusy.ofs 1).setF pgMea F.meaCapStatRbytes (recBytes taps)
    let s := s.setReg pgMea F.meaCapWptrNext.ofs 0
    if s.running pgMea || s.is pgMea F.ctrlEn then s else capStop s

/-- The blocks of the enabled capture taps are delivered, an absent one counted (R351); with a capture in progress a tick
record is written into B4 (R354). -/
def capTap (s : State) (tick : Nat) : State :=
  let c := s.meas.cap
  let busy := s.is pgMea F.meaCapStatBusy
  let taps := if busy then c.taps else tapsOf s (s.inForce pgMea)
  let data := taps.map (fun t => match committedOut s t.1 tick with
    | some d => if d.length = t.2 then some d else none
    | none => none)
  let s := s.bumpBy pgMea F.meaCntGapCount (data.filter (·.isNone)).length
  if !busy || decide (tick < c.start) then s
  else
    let len := s.rd pgMea F.meaCapLenTicks
    let ring := s.rd pgMea F.meaCapCtrlMode = 1
    let words := (c.taps.zip data).flatMap (fun e => (e.2.getD (List.replicate e.1.2 0)).map (fun v => w32 (toBits 32 v)))
    let s := meaWrite s (0x07000000 + recBytes c.taps * (c.count % len)) words
    let n := c.count + 1
    let left := c.left.map (· - 1)
    let s := s.setCap (fun c => { c with count := n, newest := tick, left := left })
    let s := s.setF pgMea F.meaCapWptrNext (n % len)
    let s := s.setF pgMea F.meaCapWptrHeld (min n len)
    let s := s.setB pgMea F.meaCapStatWrapped (decide (len < n))
    if (!ring && decide (len ≤ n)) || left == some 0 then capStop s else s

/-- The output commit point delivers the taps of a tick to MEA (R351). -/
def meaTap (s : State) (tick : Nat) : State :=
  if !s.running pgMea then s
  else capTap ((List.range 8).foldl (expTap tick) s) tick

/-- MEA's local tick boundary. -/
def meaBoundary (s : State) : State := (List.range 8).foldl expBoundary (meaFlush s)

/-- MEA stops: a capture stops as by STOP (R363), and a write that waited is abandoned (R51). -/
def meaStop (s : State) : State :=
  let s := { s with meas := { s.meas with late := [] } }
  if s.is pgMea F.meaCapStatBusy then capStop s else s

-- The registers of MEA and of a sense port (R353 to R355, R362, R363).

/-- Writes that MEA refuses. -/
def meaVeto (s : State) (ofs : Nat) (v : Word) : Option Veto :=
  let f := fun hi lo => getBits v hi lo
  let busy := s.is pgMea F.meaCapStatBusy
  let guard := fun (x : Option Veto) => orVeto x (if busy then some .busy else none)
  if 0x080 ≤ ofs ∧ ofs < 0x100 then guard none
  else if 0x100 ≤ ofs ∧ ofs < 0x200 then
    match (ofs - 0x100) % 0x20 with
    | 0 =>
      if natBit (s.rd pgMea F.meaExpEnEn) ((ofs - 0x100) / 0x20) then some .frozen
      else vetoUnless (f 13 12 ≠ 3 && 1 ≤ f 11 0 && f 11 0 ≤ 3600) .range
    | 4 => vetoUnless (f 22 0 % 32 = 0 && f 22 0 + 96 ≤ bankSize 1) .range
    | _ => none
  else match ofs with
    | 0x040 =>
      let go := v.getLsbD 31
      let len := s.rd pgMea F.meaCapLenTicks
      let r := recBytes (capTaps s)
      let bad := f 1 0 ≥ 2 || (go && (r == 0 || decide (8257536 < len * r)
        || (f 1 0 == 1 && decide (len ≤ s.rd pgMea F.meaCapPostTicks)) || v.getLsbD 30))
      vetoUnless (!bad) .range
    | 0x044 => guard (vetoUnless (1 ≤ f 15 0) .range)
    | 0x048 | 0x04C | 0x050 => guard none
    | _ => none

/-- What an accepted write of MEA_CAP_CTRL does at once beside its fields, as R354 and R355 have it. -/
def meaWrote (s : State) (ofs : Nat) (v : Word) : State :=
  if ofs = 0x040 then
    if v.getLsbD 31 then (if s.actIs pgMea F.ctrlDrain then s else capGo s) else if v.getLsbD 30 then capTrigger s else s
  else s

/-- MEA_CAP_STAT shows R of the enabled taps while no capture runs. -/
def meaView (s : State) (ofs : Nat) : Option Word :=
  if ofs = 0x054 ∧ !s.is pgMea F.meaCapStatBusy then
    some (setBits (s.reg pgMea 0x054) 26 16 (recBytes (capTaps s)))
  else none

end Sys2Proof.Machine
end

