-- ==== Sys2Proof/Machine/Red.lean ====
section
/-! DEFINITION. The redundant pair: unit states, claims, the frames of the pair, digests and verdicts (18). -/

namespace Sys2Proof.Machine

/-- State of the unit (Table 18.4): 0 OFF, 1 LISTEN, 2 STANDBY, 3 ACTIVE, 4 RELEASING, 5 FAULTED. -/
def redState (s : State) : Nat := s.rd pgRed F.redStatState
/-- The unit's claim (R479). -/
def ownClaim (s : State) : Word := s.reg pgRed F.redClaimGen.ofs
def ownTag (s : State) : Nat := s.rd pgRed F.redClaimTag
def verdictOf (s : State) : Nat := s.rd pgRed F.redStatVerdict
/-- RED's current tick. -/
def redTick (s : State) : Nat := s.arch.began.get 0 pgRed
/-- A RED event that always raises attention (R501). -/
def redEvent (s : State) (f : Fld) : State := eventAlways s pgRed f.lo attRed
def setRed (s : State) (f : RedSt → RedSt) : State := { s with red := f s.red }

/-- OUTSEL follows ACTIVE (R492). -/
def setOutsel (s : State) (b : Bool) : State :=
  let s := s.setB pgRed F.redStatOutsel b
  { s with dev := { s.dev with outsel := b } }

/-- The header of a HEARTBEAT or HEALTH frame (Table 18.1). -/
def redHdr (s : State) (type sub : Nat) (release : Bool) : AuxHdr :=
  let bit := fun (b : Bool) n => if b then 2 ^ n else 0
  { type := type, ashOk := s.actIs pgStrg F.strgCfgAshAccept, node := s.act pgStrg F.strgNodeNodeId,
    seq := if type = tHeartbeat then s.red.hbSeq else s.red.healthSeq, tick := redTick s, claim := ownClaim s,
    hi := w32 (redState s * 2 ^ 29 + bit (s.is pgRed F.redStatOutsel) 28 + bit (s.actIs pgRed F.redCfgMode) 27
      + verdictOf s * 2 ^ 24 + sub * 2 ^ 20 + bit release 19 + bit (redState s == 2 && !s.red.aligned) 18),
    lo := s.inForce pgRed F.redConfigIdId.ofs }

/-- A frame of RED is given to PLK; its addresses are free (R483). -/
def plkSend (s : State) (express : Bool) (body : List Byte) : State :=
  let (v, s) := s.fresh
  let (w, s) := s.fresh
  let f := bytesBE 6 (v.toNat % 2 ^ 48) ++ bytesBE 6 (w.toNat % 2 ^ 48) ++ bytesBE 2 (s.act pgStrg F.strgCfgEtype) ++ body
  if s.running pgPlk then ready s 4 { express := express, rank := if express then 0 else 5, bytes := f } else count s 4 6

/-- The own digest of a tick. -/
def ownDigest (s : State) (tick : Nat) : Option Digest := s.red.own.find? (fun d => d.tick == tick)

/-- A HEARTBEAT leaves on PLK (R483). -/
def sendHeartbeat (s : State) (release : Bool) : State :=
  let t := redTick s
  let dig := (List.range 3).map (fun k => if t + k < 3 then none else ownDigest s (t + k - 3))
  let crc := dig.flatMap (fun d => bytesBE 4 ((d.map (·.crc.toNat)).getD 0))
  let mask := (dig.zipIdx).foldl (fun m e => if (e.1.map (·.valid)).getD false then m + 2 ^ e.2 else m) 0
  let s := plkSend s true (auxBody (redHdr s tHeartbeat 0 release) (crc ++ bytesBE 1 mask ++ [0, 0, 0]) 1 0)
  setRed s (fun r => { r with hbSeq := (r.hbSeq + 1) % 65536 })

/-- HEARTBEAT_SEND: the scheduled HEARTBEAT of a tick divisible by 3 (R483). -/
def heartbeatDue (s : State) : State :=
  let t := redTick s
  if !s.running pgRed || redState s == 0 || t % 3 != 0 || s.red.hbTick == some t then s
  else setRed (sendHeartbeat s false) (fun r => { r with hbTick := some t })

/-- A self-test pass runs on every tile (R497, R499). -/
def bistAll (s : State) : State := (List.range 48).foldl (fun s t => s.setF (pgTile t) F.tileBistBusy 1) s

/-- The unit enters a state (R481, R486, R492). -/
def enterRole (s : State) (n : Nat) : State :=
  let peerGen := s.rd pgRed F.redPeerClaimClaim / 65536
  let own := s.rd pgRed F.redClaimGen
  let s := if n = 3 then
      let d := (peerGen + 65536 - own) % 65536
      let g := if s.red.claimed && d != 0 && decide (d < 32768) then peerGen else own
      (s.setF pgRed F.redClaimGen ((g + 1) % 65536)).bump pgRed F.redCntRolePromotions
    else if n = 2 then s.setF pgRed F.redClaimGen ((peerGen + 65535) % 65536)
    else s
  let s := s.setF pgRed F.redStatState n
  let s := setOutsel s (n = 3)
  let s := if n = 1 then setRed s (fun r => { r with listen := 0, listened := false, hbEver := false, equalAt := none }) else s
  let s := setRed s (fun r => { r with promote := false, peerGone := false, faultDue := false, bistBad := false,
                                        aligned := if n = 2 then false else r.aligned })
  redEvent (if n = 2 ∧ s.actIs pgRed F.redCfgSelftest then bistAll s else s) F.redEvtRole

/-- The unit enters RELEASING (R490). -/
def release (s : State) (cause : ReleaseCause) : State :=
  let s := enterRole s 4
  sendHeartbeat (setRed s (fun r => { r with relLeft := 2, relCause := some cause, relTick := some (redTick s) })) true

/-- CLAIM_CONFLICT with another claim (R491). -/
def claimConflict (s : State) (other : Word) : State := raise s pgRed F.redFltClaimConflict.lo other

/-- A claim of the peer is seen: it is the peer's last (R481, R491). -/
def claimSeen (s : State) (other : Word) : State :=
  let s := setRed (s.setReg pgRed F.redPeerClaimClaim.ofs other) (fun r => { r with claimed := true })
  if redState s = 3 ∧ claimHigher other (ownClaim s) then release (claimConflict s other) .claim else s

/-- The witness holds at a boundary (R488). -/
def witnessAt (s : State) (n : Nat) : Bool :=
  !s.actIs pgRed F.redCfgWitnessEn || (match s.red.peerFrame with
    | some t => decide (t + 3 < n)
    | none => true)

/-- A good Auxenos frame of any type on a port is reported to RED (R170, R488, R491). -/
def redPeerFrame (s : State) (q : Nat) (h : AuxHdr) : State :=
  if redState s = 0 ∨ h.node ≠ s.act pgStrg F.strgNodeNodeId then s
  else if getBits h.claim 7 0 = ownTag s then (if h.claim = ownClaim s then s else claimConflict s h.claim)
  else if 1 < q then s
  else if s.red.peerTag.isNone ∨ s.red.peerTag = some (getBits h.claim 7 0) then
    claimSeen (setRed s (fun r => { r with peerFrame := some (redTick s) })) h.claim
  else s

-- Digests and verdicts (R496 to R498).

/-- The digest of a tick (R496). -/
def digestOf (s : State) (tick : Nat) : Word :=
  let bytes := (List.range 1024).flatMap (fun k =>
    if (s.inForce pgRed (F.redDigMaskMap.ofs + 4 * (k / 32))).getLsbD (k % 32) then
      match committedOut s k tick, stripDomain s k with
      | some d, _ => d.flatMap (fun x => bytesBE 4 (toBits 32 x))
      | none, some dom => List.replicate (4 * samplesOf dom) 0xFF
      | none, none => []
    else [])
  crc32 bytes

/-- The verdict check starts: one self-test pass on every tile (R497). -/
def checkVerdict (s : State) : State :=
  let s := s.setF pgRed F.redStatVerdict 1
  let s := bistAll s
  setRed s (fun r => { r with checkLeft := List.range 48, checkBad := false, waiting := false })

/-- Two digests of a tick differ (R497). -/
def mismatch (s : State) (tick ctx : Word) : State :=
  let s := raise s pgRed F.redFltDigestMismatch.lo ctx
  let s := (s.bump pgRed F.redCntMisMismatch).setReg pgRed F.redMisTickTick.ofs tick
  let s := redEvent s F.redEvtMismatch
  if verdictOf s = 1 then s else checkVerdict s

/-- Two digests of a tick are compared (R497). -/
def compareOne (s : State) (own peer : Digest) : State :=
  if !own.valid || !peer.valid then s
  else if s.red.peerCfg ≠ some (s.inForce pgRed F.redConfigIdId.ofs) then s.bump pgRed F.redCntSuspConfig
  else
    let s := s.bump pgRed F.redCntCmpCount
    let s := (s.setReg pgRed F.redDigOwnCrc.ofs own.crc).setReg pgRed F.redDigPeerCrc.ofs peer.crc
    let s := s.setReg pgRed F.redDigTickTick.ofs (w32 own.tick)
    if own.crc = peer.crc then s else mismatch s (w32 own.tick) (w32 (own.tick % 2 ^ 31))

/-- The own digest of a tick that a peer's digest is for, where the two have not been compared. -/
def comparable (s : State) (p : Digest) : Option Digest := (ownDigest s p.tick).filter (fun o => !o.compared)

/-- Digests of ticks that both units hold are compared, each tick once (R497). -/
def compareAll (s : State) : State :=
  let pairs := s.red.peer.filterMap (fun p => (comparable s p).map (fun o => (o, p)))
  let held := fun (l : List Digest) (d : Digest) => l.any (fun x => x.tick == d.tick)
  let s := setRed s (fun r => { r with
    peer := r.peer.filter (fun p => !held r.own p),
    own := r.own.map (fun o => { o with compared := o.compared || held r.peer o }) })
  pairs.foldl (fun s x => compareOne s x.1 x.2) s

/-- The digest of the tick that ended is formed at LATG's boundary (R496). -/
def formDigest (s : State) (tick : Nat) : State :=
  if !s.running pgRed then s
  else
    let quiet := s.running pgLatg && !s.lat.spoilt && !s.resetting pgLatg
      && (List.range 48).all (fun t => !s.resetting (pgTile t))
    let st := redState s
    let ok := quiet && decide (2 ≤ st ∧ st ≤ 4) && s.inForce pgRed F.redConfigIdId.ofs != 0
    let d : Digest := { tick := tick, crc := digestOf s tick, valid := ok }
    compareAll (setRed s (fun r => { r with own := (d :: r.own).take 24, peer := r.peer.take 24 }))

/-- The unit acts on the pair of verdicts (Table 18.5). -/
def actVerdict (s : State) (peer : Nat) : State :=
  let own := verdictOf s
  let ctx := w32 (2 ^ 31 + own + peer * 16)
  let s := setRed s (fun r => { r with waiting := false })
  let b := F.redFltDigestMismatch.lo
  if own = 3 then
    if redState s = 3 then
      (if peer = 2 then raiseSev s pgRed b ctx true reactFailover else raise s pgRed b ctx)
    else if redState s = 2 then setRed (raise s pgRed b ctx) (fun r => { r with faultDue := true })
    else s
  else if peer = 2 then s.bump pgRed F.redCntMisUnresolved
  else s

/-- VERDICT_DONE: every tile has finished its pass of the verdict check (R498). -/
def verdictEnd (s : State) : State :=
  if !s.running pgRed || verdictOf s != 1 || !s.red.checkLeft.isEmpty then s
  else
    let s := s.setF pgRed F.redStatVerdict (if s.red.checkBad then 3 else 2)
    redEvent (setRed s (fun r => { r with waiting := true })) F.redEvtVerdict

/-- A tile self-test pass ends (R258, R485, R498, R499). -/
def tileBistEnd (s : State) (t : Nat) (fail : Bool) : State :=
  let p := pgTile t
  let selfTest := s.actIs pgRed F.redCfgSelftest && redState s == 2
  let check := s.red.checkLeft.contains t
  if !(s.is p F.tileBistBusy || selfTest || check) then s
  else
    let s := (s.roll p F.tileBistPasses).setB p F.tileBistFail fail
    let more := s.act p F.tileBistMode == 2 || selfTest
    let s := s.setB p F.tileBistBusy more
    let s := setRed s (fun r => { r with
      checkLeft := r.checkLeft.filter (· != t), checkBad := r.checkBad || (check && fail),
      bistPasses := (r.bistPasses + 1) % 65536, bistFails := if fail then satAdd 16 r.bistFails 1 else r.bistFails,
      bistBad := r.bistBad || (selfTest && !check && fail) })
    let s := eventF s p F.tileEvtBistDone
    if fail then eventF s p F.tileEvtBistFail else s

-- Reception.

/-- The digests that a HEARTBEAT carries (R483). -/
def hbDigests (f : AuxFrame) : List Digest :=
  (List.range 3).filterMap (fun k =>
    if f.hdr.tick + k < 3 then none
    else some { tick := f.hdr.tick + k - 3, crc := w32 (beAt f.pay (4 * k) 4), valid := (beAt f.pay 12 1).testBit k })

/-- A good HEARTBEAT (R484, R487, R489, R497, R498). -/
def heartbeatGood (s : State) (f : AuxFrame) : State :=
  let h := f.hdr
  let st := getBits h.hi 31 29
  let s := s.bump pgRed F.redCntHbRx
  let s := ((s.setF pgRed F.redStatMissed 0).setF pgRed F.redStatPeerState st).setF pgRed F.redStatPeerVerdict
    (getBits h.hi 26 24)
  let gone := h.hi.getLsbD 19 || st == 5 || st == 0
  let s := setRed s (fun r => { r with
    hbSeen := true, hbEver := true, peerTag := some (getBits h.claim 7 0), peerCfg := some h.lo,
    peerReq := h.hi.getLsbD 18, reqAt := redTick s, regain := if r.lost then r.regain + 1 else 0,
    peerGone := gone || (r.peerGone && st != 3) })
  let s := if s.red.lost then
      if 3 ≤ s.red.regain then
        let s := setRed s (fun r => { r with lost := false, regain := 0 })
        redEvent (cease (s.setF pgRed F.redStatPeerOk 1) pgRed F.redFltPeerLink.lo) F.redEvtPeerBack
      else s
    else s.setF pgRed F.redStatPeerOk 1
  let s := compareAll (setRed s (fun r => { r with
    peer := (hbDigests f ++ r.peer.filter (fun p => !(hbDigests f).any (fun d => d.tick == p.tick))).take 24 }))
  let v := getBits h.hi 26 24
  let s := if s.red.waiting && (v == 2 || v == 3) then actVerdict s v else s
  claimSeen s h.claim

/-- A HEARTBEAT on PLK, its FCS good: true where RED accepts it (R484). -/
def heartbeatIn (s : State) (d : List Byte) : Bool × State :=
  let f := auxOf d
  if f.hdr.version ≠ 1 || f.hdr.type != tHeartbeat || !f.sound
      || f.hdr.node != s.act pgStrg F.strgNodeNodeId then (false, s)
  else if redState s = 0 then (true, s)
  else if getBits f.hdr.claim 7 0 = ownTag s then
    let s := if f.hdr.claim = ownClaim s then setRed s (fun r => { r with equalAt := some (redTick s) }) else s
    (true, claimConflict s f.hdr.claim)
  else (true, heartbeatGood s f)

/-- A HEALTH frame on a link, its FCS good: true where RED accepts it (R485, R491, R500); those of P0 and P1 are reported to
`redPeerFrame` as every Auxenos frame is. -/
def healthIn (s : State) (l : Nat) (d : List Byte) : Bool × State :=
  let f := auxOf d
  let h := f.hdr
  if h.version ≠ 1 || h.type != tHealth || !f.sound then (false, s)
  else if redState s = 0 then (true, s)
  else if h.node ≠ s.act pgStrg F.strgNodeNodeId then (true, s.bump pgRed F.redCntSuspForeign)
  else if getBits h.claim 7 0 = ownTag s then
    (true, if l = 4 ∧ h.claim ≠ ownClaim s then claimConflict s h.claim else s)
  else
    match getBits h.hi 23 20 with
    | 0 => (true, (List.range 8).foldl (fun s k => s.setReg pgRed (F.redPeerHealth.ofs + 4 * k) (w32 (beAt f.pay (4 * k) 4))) s)
    | 1 =>
      if l = 4 ∧ redState s = 2 then
        (true, setRed s (fun r => { r with seqMap := some (h.tick, (List.range 512).map (fun i => beAt f.pay (2 * i) 2)) }))
      else (true, s)
    | _ => (true, s)

/-- The peer is lost (R487). -/
def peerLost (s : State) (ctx : Word) : State :=
  let s := setRed s (fun r => { r with lost := true })
  raise (redEvent (s.setF pgRed F.redStatPeerOk 0) F.redEvtPeerLost) pgRed F.redFltPeerLink.lo ctx

/-- A STANDBY's promotion is blocked (R489). -/
def promoteBlocked (s : State) : Bool :=
  verdictOf s == 1 || (match s.red.peerCfg with
    | some c => c != s.inForce pgRed F.redConfigIdId.ofs
    | none => false)

/-- A STANDBY promotes where R489 lets it. -/
def tryPromote (s : State) : State :=
  if redState s = 2 ∧ (s.red.peerGone ∨ s.red.promote ∨ (s.red.lost ∧ s.is pgRed F.redStatWitness)) ∧ !promoteBlocked s then
    enterRole s 3
  else s

/-- HEARTBEAT_MISS: a HEARTBEAT due was not there (R487); the boundary that counts the third is one at which a STANDBY
promotes (R489). -/
def heartbeatMissed (s : State) : State :=
  if !s.running pgRed || !s.red.missDue then s
  else
    let s := (s.bump pgRed F.redCntHbMissed).bump pgRed F.redStatMissed
    let s := setRed s (fun r => { r with missDue := false, regain := 0 })
    if s.rd pgRed F.redStatMissed < 3 || s.red.lost then s
    else tryPromote (peerLost s (if s.is pgRed F.redStatWitness then 0 else 1))

-- Changes of state (R486, R489).

/-- PEER_LINK is raised where it does not stand. -/
def raisePeerLink (s : State) : State :=
  if s.flt.levels.any (fun x => x.src == pgRed && x.bit == F.redFltPeerLink.lo) then s
  else raise s pgRed F.redFltPeerLink.lo 1

/-- A peer shows an equal claim: a HEARTBEAT with the own claim has come within the ticks that R487 takes to lose a peer
(R486, log 37). -/
def equalPeer (s : State) : Bool :=
  match s.red.equalAt with
  | some t => decide (redTick s ≤ t + 10)
  | none => false

/-- A unit in LISTEN whose LISTEN ticks have elapsed (Table 18.4). -/
def listenEval (s : State) : State :=
  if redState s ≠ 1 then s
  else if s.red.hbEver && !s.red.lost then
    if s.rd pgRed F.redStatPeerState = 1 then
      let peer := s.reg pgRed F.redPeerClaimClaim.ofs
      if claimHigher (ownClaim s) peer then enterRole s 3
      else if claimHigher peer (ownClaim s) then enterRole s 2
      else claimConflict s peer
    else s
  else if equalPeer s then claimConflict s (ownClaim s)
  else if s.is pgRed F.redStatWitness then enterRole s 3
  else raisePeerLink s

/-- The sequence map received is applied (R500). -/
def applySeqMap (s : State) : State :=
  match s.red.seqMap with
  | none => s
  | some (t, vals) =>
    let r := (acceptedEgr s).foldl (fun (x : State × Bool) c =>
      let (s, any) := x
      let v := nth 0 vals c
      if egrKind s c = 0 then
        let want := (v + strgTick s + 65536 - (t + 1) % 65536) % 65536
        let have_ := egrRd s c F.egr0W4NextSeq
        if want = have_ then (s, any)
        else
          let s := setSegs (egrSet s c F.egr0W4NextSeq want) c (fun e => { e with seqNo := (e.seqNo + want + 65536 - have_) % 65536 })
          (s.bump pgRed F.redCntRoleSeqFix, true)
      else
        let n := samplesOf (egr1Dom s c)
        let len := egr1Len s c
        let p0 := if len = 0 then 0 else ((t + 1) * n + len - 1) / len
        let want := (v + (s.egr c).packet + 65536 - p0 % 65536) % 65536
        if want = (s.egr c).rtpSeq then (s, any)
        else ((s.setEgr c (fun y => { y with rtpSeq := want })).bump pgRed F.redCntRoleSeqFix, true)) (s, false)
    setRed r.1 (fun y => { y with seqMap := none, aligned := y.aligned || !r.2 })

/-- RED starts: OFF to LISTEN (Table 18.4). -/
def redStart (s : State) : State := enterRole (setRed s (fun r => { r with
  hbSeen := false, lost := false, missDue := false, regain := 0, peerFrame := none, peerTag := none, peerCfg := none,
  peerReq := false })) 1

/-- RED's local tick boundary that begins a tick (R486 to R490, R500). -/
def redBoundary (s : State) (n : Nat) : State :=
  let s := if n % 3 = 1 then setRed s (fun r => { r with missDue := !r.hbSeen, hbSeen := false }) else s
  let s := s.setB pgRed F.redStatWitness (witnessAt s n)
  let s := if redState s = 2 then applySeqMap s else s
  match redState s with
  | 0 => redStart s
  | 1 =>
    let s := setRed s (fun r => { r with listen := r.listen + 1 })
    if s.red.hbEver && s.rd pgRed F.redStatPeerState == 3 then enterRole s 2
    else if s.red.listened then listenEval s else s
  | 2 => if s.red.faultDue || s.red.bistBad then enterRole s 5 else tryPromote s
  | 4 => setRed s (fun r => { r with relLeft := r.relLeft - 1 })
  | 5 => if s.red.rejoin then enterRole (setRed s (fun r => { r with rejoin := false })) 1 else s
  | _ => s

/-- LISTEN_EXPIRY: LISTEN ticks have elapsed (Table 18.4). -/
def listenEnd (s : State) : State :=
  if !s.running pgRed || redState s != 1 || s.red.listened || decide (s.red.listen < s.act pgRed F.redTimerListen) then s
  else listenEval (setRed s (fun r => { r with listened := true }))

/-- RELEASING_END: the second boundary after the release (Table 18.4). -/
def releaseEnd (s : State) : State :=
  if !s.running pgRed || redState s != 4 || s.red.relLeft != 0 then s
  else enterRole s (match s.red.relCause with
    | some .handover | some .claim => 2
    | _ => 5)

/-- RED stops: to OFF at once (Table 18.4). -/
def redStop (s : State) : State :=
  let s := (if redState s = 0 then s else enterRole s 0).setF pgRed F.redStatVerdict 0
  let s := (s.setF pgRed F.redStatPeerOk 0).setF pgRed F.redStatMissed 0
  setRed s (fun r => { r with
    checkLeft := [], waiting := false, own := [], peer := [], seqMap := none, hbTick := none, healthTick := none,
    rejoin := false })

/-- HEALTH_SEND: the status of a tick divisible by 2,400 (R485). -/
def healthSendAct (s : State) : State :=
  let t := redTick s
  if !s.running pgRed || !s.actIs pgRed F.redHealthEn || t % 2400 != 0 || s.red.healthTick == some t then s
  else
    let r := s.red
    let rev := (s.reg pgDev 4).toNat
    let pay := bytesBE 4 (s.time.frc.toNat / 800000000 % 2 ^ 32)
      ++ bytesBE 2 r.bistPasses ++ bytesBE 2 r.bistFails ++ bytesBE 2 r.scrubs ++ bytesBE 2 r.eccCorr
      ++ bytesBE 2 r.eccUncorr ++ bytesBE 2 (s.rd pgRed F.redCntMisMismatch)
      ++ bytesBE 2 s.flt.recs.length ++ bytesBE 1 ((s.flt.first.map (·.kind)).getD 0) ++ [0]
      ++ bytesBE 4 (s.reg pgLatg F.latgActIdId.ofs).toNat ++ bytesBE 4 (s.inForce pgRed F.redConfigIdId.ofs).toNat
      ++ bytesBE 4 rev
    let body := auxBody (redHdr s tHealth 0 false) pay 1 0
    let s := plkSend s false body
    let dst := s.act pgRed F.redHealthDstMacHi * 2 ^ 32 + (s.inForce pgRed F.redHealthMacLoMac.ofs).toNat
    let s := offer s (s.act pgRed F.redHealthPorts) (fun q => { rank := 5, bytes := auxOnPort s q dst false body })
    setRed s (fun r => { r with healthSeq := (r.healthSeq + 1) % 65536, healthTick := some t })

/-- The value of a context in a sequence map of a tick (R500). -/
def seqValue (s : State) (tick c : Nat) : Nat :=
  if !(s.egr c).accepted then 0
  else if egrKind s c = 0 then (egrRd s c F.egr0W4NextSeq + 65536 + tick + 1 - strgTick s) % 65536
  else
    let n := samplesOf (egr1Dom s c)
    let len := egr1Len s c
    let p0 := if len = 0 then 0 else ((tick + 1) * n + len - 1) / len
    ((s.egr c).rtpSeq + p0 + 65536 - (s.egr c).packet % 65536) % 65536

/-- SEQUENCE_MAP_SEND: an ACTIVE unit answers a request of its peer, in a tick after that of the HEARTBEAT (R500). -/
def seqMapGo (s : State) : State :=
  let t := redTick s
  if !s.running pgRed || redState s != 3 || !s.red.peerReq || t ≤ s.red.reqAt || t % 24 != 0 then s
  else
    let pay := (List.range 512).flatMap (fun c => bytesBE 2 (seqValue s t c))
    let s := plkSend s false (auxBody (redHdr s tHealth 1 false) pay 1 0)
    setRed s (fun r => { r with healthSeq := (r.healthSeq + 1) % 65536, peerReq := false })

/-- A refusal of a write to RED (R502). -/
def redVeto (ofs : Nat) (v : Word) : Option Veto :=
  if ofs = 0x050 then vetoUnless (24 ≤ getBits v 31 16 && 1 ≤ getBits v 15 0) .range else none

/-- RED_CTRL (R486, R489, R490, R502). -/
def redWrote (s : State) (ofs : Nat) (v : Word) : State :=
  if ofs = 0x058 then
    let st := redState s
    let s := if v.getLsbD 2 && st == 5 then setRed s (fun r => { r with rejoin := true }) else s
    let s := if v.getLsbD 1 && st == 2 then setRed s (fun r => { r with promote := true }) else s
    if v.getLsbD 0 && st == 3 && s.rd pgRed F.redStatPeerState == 2 then release s .handover else s
  else s

/-- A forced flag of RED, handled as a detected one (R53): PEER_LINK is the loss of the peer, DIGEST_MISMATCH an inequality
found, in a tick that is free (log 3); CLAIM_CONFLICT that of a claim with the own TAG (log 37). -/
def redForced (s : State) (bit : Nat) (ctx : Word) : State :=
  if bit = F.redFltPeerLink.lo then (if s.red.lost then raise s pgRed bit ctx else peerLost s ctx)
  else if bit = F.redFltDigestMismatch.lo then
    let (v, s) := s.fresh
    mismatch s (v.extractLsb' 0 32) ctx
  else raise s pgRed bit ctx

/-- The FAILOVER reaction (R490). -/
def failover (s : State) : State := if redState s = 3 then release s .failover else s

/-- LATG's local tick boundary that begins a tick: the output commit point of the tick before (R204, R241, R256, R496). -/
def latgBoundary (s : State) (n : Nat) : State :=
  let s := ghostsEnd s n
  let s := if s.lat.active then (List.range 48).foldl (fun s t => tileClose s t n) s else s
  let (v, s) := s.fresh
  let cyc := 49995 + v.toNat % 11
  let s := s.setF pgLatg F.latgTickCycCycles cyc
  let s := s.setF pgLatg F.latgTickCycMinCycles (min cyc (s.rd pgLatg F.latgTickCycMinCycles))
  let s := { s with strm := { s.strm with reruns := s.strm.reruns.filter (fun r => decide (n ≤ r.tick)) },
                    lat := { s.lat with cleared := s.lat.cleared.filter (fun e => decide (n ≤ e.2.1 + 1)) } }
  let s := formDigest s (n - 1)
  { s with lat := { s.lat with spoilt := false, open_ := n } }

end Sys2Proof.Machine
end

