-- ==== Sys2Proof/Machine/Blocks.lean ====
section
/-! DEFINITION. What every block does when it starts, when it stops, when a block reset returns its cells and units to
their reset state, and at its local tick boundary; and whether it has work in progress. -/

namespace Sys2Proof.Machine

-- The sequencer's contexts (15).

/-- The state of a context of SEQ (Table 15.3). -/
def seqState (s : State) (c : Nat) : Nat := s.rd pgSeq (seqF F.seqCtxStatState c)

/-- Another context of SEQ holds a lock on a target. -/
def otherLock (s : State) (c tgt : Nat) : Bool := (List.range 8).any (fun d => d != c && (s.ctx d).locked.contains tgt)

/-- The lock of SEQ on a target ends, unless a context holds it that is not c. -/
def seqFree (c : Nat) (s : State) (t : Nat) : State :=
  if otherLock s c t then s
  else
    let mine := fun (e : Nat × LockSt) => e.1 == t && e.2.master == 1
    { s with mx := { s.mx with locks := s.mx.locks.filter (fun e => !mine e), broken := s.mx.broken.del (16 + t) } }

/-- The locks that a context of SEQ holds end (R417, R428). -/
def seqUnlock (s : State) (c : Nat) : State :=
  let l := (s.ctx c).locked
  if l.isEmpty then s else (l.foldl (seqFree c) s).setCtx c (fun x => { x with locked := [] })

/-- A context goes to IDLE: PENDING clears and its lock ends (R428). -/
def seqIdle (s : State) (c : Nat) : State :=
  let s := seqUnlock s c
  let s := (s.setF pgSeq (seqF F.seqCtxStatState c) 0).setF pgSeq (seqF F.seqCtxStatPending c) 0
  s.setCtx c (fun x => { x with wait := .none, txn := none, stopping := false, expired := false, released := none })

/-- A transaction of the context is outstanding: one that met BUSY_RETRY and waits for the boundary is not. -/
def seqOut (s : State) (c : Nat) : Bool := ((s.ctx c).txn.map (fun x => !x.again)).getD false

/-- STOP, or EN = 0: the context goes to IDLE, after its outstanding transaction (R428). -/
def seqStop (s : State) (c : Nat) : State :=
  if seqOut s c then s.setCtx c (fun x => { x with stopping := true }) else seqIdle s c

/-- The byte address that field A of WR, RMW and IF_EQ names; none for a reserved region (R413). -/
def actionTarget (a : Nat) : Option Nat :=
  let k := 4 * (a % 2 ^ 21)
  match a / 2 ^ 21 % 8 with
  | 0 => some (0x40000000 + k)
  | 1 => some (bankBase 1 + k)
  | 2 => some (bankBase 2 + k)
  | 4 => some (bankBase 4 + k)
  | 6 => some (bankBase 6 + k)
  | 7 => some (bankBase 7 + k)
  | _ => none

/-- The byte address of the access that a transaction waits for; of a COMMIT, that of its first write (R425). -/
def txnAddr (x : SeqTxn) : Nat :=
  if x.op = 0x19 then 0x40000000 + x.a % 1024 * 4096 + (if x.f0 then 0x02C else 0x028)
  else (actionTarget x.a).getD 0

/-- A STOP or a START that was written comes into force (R427, R428): START takes an idle or erring context to RUN, and
of another is a trigger that waits or is dropped. -/
def seqTakeCtl (s : State) (c : Nat) (start : Bool) : State :=
  if !start then seqStop s c
  else if !s.running pgSeq || s.actIs pgSeq F.ctrlDrain || !s.actIs pgSeq (seqF F.seqCtxCtrlEn c) then s
  else if seqState s c = 0 ∨ seqState s c = 4 then seqEnter s c
  else if s.is pgSeq (seqF F.seqCtxStatPending c) then s.bump pgSeq (seqF F.seqCtxCntDropped c)
  else s.setB pgSeq (seqF F.seqCtxStatPending c) true

/-- START and STOP written since the boundary before act, in the order written (R59). -/
def seqTakeAll (s : State) (c : Nat) : State :=
  let l := (s.ctx c).ctl
  l.foldl (fun s b => seqTakeCtl s c b) (if l.isEmpty then s else s.setCtx c (fun x => { x with ctl := [] }))

/-- BURST_ABORT for a burst of a master in flight (R408). -/
def burstAbort (s : State) (m : Nat) (addr : Word) : State :=
  xbrFault (s.bump pgXbr F.xbrCntAbortCount) F.xbrFltBurstAbort 0x22 addr m (busTarget addr.toNat)

/-- A block reset of a master (R408): its locks are released, a request that waits is discarded, and a pop of its that the
bridge holds in flight is drained, with the pops that follow it in the granted piece, `pops` in all, their words discarded;
BURST_ABORT carries the burst's address. -/
def masterAbort (s : State) (m : Nat) (addr : Word) (pops : Nat) : State :=
  let mine := fun (e : Nat × LockSt) => e.2.master == m
  let s := { s with mx := { s.mx with
    locks := s.mx.locks.filter (fun e => !mine e), broken := s.mx.broken.filter (fun e => e.1 / 16 != m),
    waits := s.mx.waits.del m } }
  let s := if (s.qport m).stallRes.isSome then s.setQport m (fun x => { x with stallRes := none }) else s
  if (s.qport m).stall.isNone then s
  else burstAbort (s.setQport m (fun x => { x with drain := max 1 pops })) m addr

/-- The burst of HIF in progress, and how many of its words are done. -/
def hifBurst (s : State) : HostCmd × Nat :=
  match s.hif.deferred, s.hif.net with
  | some c, _ => (c, s.hif.done.length)
  | none, x :: _ => (x.cmd, x.done.length)
  | none, [] => ({}, 0)

/-- The pops left in the piece of at most 16 beats (R403) of a burst in which a word stalls. -/
def piecePops (c : HostCmd) (i : Nat) : Nat :=
  ((List.range (min c.n (i / 16 * 16 + 16) - i)).filter (fun k =>
    let o := (c.addr + w32 (4 * (i + k))).toNat % 4096
    decide (0x200 ≤ o) && decide (o < 0x400) && o % 8 == 0)).length

/-- A block reset of SEQ (R408, R431): every context is IDLE, its stack and COND cleared; a transaction in flight ends
under R408. Holds run on. -/
def seqReset (s : State) : State :=
  let s := masterAbort s 1 0x40018200 1
  (List.range 8).foldl (fun s c =>
    let s := match (s.ctx c).txn with
      | some x => if x.reply.isSome && !x.again then burstAbort s 1 (w32 (txnAddr x)) else s
      | none => s
    let s := (seqIdle s c).setF pgSeq (seqF F.seqCtxStatDepth c) 0
    let s := (s.setF pgSeq (seqF F.seqCtxStatCond c) 0).setF pgSeq (seqF F.seqCtxStatCause c) 0
    let s := (s.setF pgSeq (seqF F.seqCtxStatPc c) 0).setF pgSeq (seqF F.seqCtxReplyCode c) 0
    s.setCtx c (fun _ => {})) s

/-- A block reset of HIF discards a deferred command, its result, and the requests held (R562). -/
def hifReset (s : State) : State :=
  let s := (s.setF pgHif F.hifStatDeferred 0).setF pgHif F.hifStatDone 0
  let s := (s.setF pgHif F.hifStatCmd 0).setF pgHif F.hifStatLastReply 0
  let s := (s.setF pgHif F.hifAttnBits 0).setF pgHif F.hifAttnSubSubsys 0
  let s := s.setReg pgHif F.hifAttnDetail.ofs 0
  let h := { s.hif with deferred := none, done := [], complete := false, broken := false }
  { s with hif := { h with popNet := false, net := [], fails := 0, reply := none } }

/-- The internal holders lose their cells at a block reset of QMG (R368, R386): the packets of jitter buffers, forwarded
frames and AES67 packets that lie in the pool. -/
def poolLost (s : State) : State :=
  let s := (s.strm.ing.map (·.1)).foldl (fun s c =>
    if (s.ing c).jb.isEmpty then s else jbShow (s.setIng c (fun x => { x with jb := [] })) c) s
  { s with net := { s.net with ports := s.net.ports.map (fun e =>
    (e.1, { e.2 with ready := e.2.ready.filter (fun f => f.cells == 0) })) } }

/-- A block reset of FLT (R14): what was asked of it by FLT_SAFE_CTRL and has not acted is dropped, and its arbiter starts
anew. DEDUCED (log 44): SAFE_OUT and the holds stand until they are released (R458, R459), records and shadows until R465
and R470 end them, and a message that waits is its source's (R455). -/
def fltReset (s : State) : State :=
  { s with flt := { s.flt with outRel := false, outSet := false, drvRel := 0, rotor := 0 } }

-- Start, stop, reset.

/-- The block's RUN becomes 1. The tick that ends as LATG starts is one in which it was not enabled throughout (R496). -/
def blockStart (s : State) (p : Nat) : State :=
  match pageKind p with
  | .mac => headsReach (macBind (macStart s (p - 0x20)) (p - 0x20)) (p - 0x20)
  | .plk => macStart s 4
  | .refs => refsStart s
  | .wck => wckTakes s
  | .latg => { s with lat := { s.lat with spoilt := true } }
  | .tdm | .aesi | .aeso => audStart s p
  | .sns => snsStart s (p - 0xB4)
  | _ => s

/-- What a link loses of a frame in reception when it goes down (R77). -/
def rxLost (s : State) (l : Nat) (rx : Bool) : State :=
  let s := if rx || (s.port l).rxOpen.isSome then count s l (if l = 4 then 2 else 31) else s
  frameCut s l

/-- A link's page stops or is reset: it goes DOWN, and frames in transmission and in reception are cut off (R75, R77,
R106). Whether a frame was on its way is a free value (log 45). -/
def linkStop (s : State) (l : Nat) (off : Bool) : State :=
  let (v, s) := s.fresh
  let s := if linkState s l = 0 then s
    else rxLost (txCut s l (if v.getLsbD 0 then some ⟨s.time.frc, 0⟩ else none)) l (v.getLsbD 1)
  let s := macIdle (txFlush (linkDown s l) l) l
  if off then s else pcsReset s l

/-- The work that a block loses when it stops or is reset; `off` where its EN is 0 (R14, R51). -/
def blockHalt (s : State) (p : Nat) (off : Bool) : State :=
  match pageKind p with
  | .mac | .plk => linkStop s (p - 0x20) off
  | .tpg => tpgStop s
  | .refs => refsStop s off
  | .strg => strgStop s
  | .spx => spxReset s
  | .tdm | .aesi | .aeso => audStop s p
  | .asrc => asrcStop s
  | .latg => checkAbandon (latgHalt s)
  | .tile => if off then tileHalt (tileBoundary s (p - 0x41)) (p - 0x41) else s
  | .drv => drvStop s (p - 0xA0)
  | .bst => bstStop s (p - 0xB0)
  | .sns => snsStop s (p - 0xB4)
  | .mea => meaStop s
  | .diag => diagStop s
  | .red => redStop s
  | .wck => wckStop s
  | _ => s

/-- EN takes the value 0 at the block's boundary (R51). -/
def blockStop (s : State) (p : Nat) : State :=
  let s := blockHalt s p true
  match pageKind p with
  | .mac => macUnbind s (p - 0x20)
  | .seq => (List.range 8).foldl seqStop s
  | .qmg => qmgStop s
  | _ => s

/-- The status of a page's registers that a block reset returns to its reset value (R14): first offset, how many
registers, their distance, and the bits. DEDUCED (log 44): a count, what a reset leaves as it is (banks, the active image,
local time, the tick, the media clock, fuses and straps, records, captures of a freeze) and a value kept in VAUX are no
status of the block in this sense; nor is what another definition of this file sets. -/
def statusOf : PageKind → List (Nat × Nat × Nat × Word)
  | .mac => [(0x064, 1, 4, 7), (0x070, 1, 4, 0xFFFF0003), (0x090, 1, 4, 0x1F), (0x098, 1, 4, 0xFFFF0000)]
  | .plk => [(0x090, 1, 4, 0xF), (0x098, 1, 4, 0xFFFF0000)]
  | .refs => [(0x070, 1, 4, 0x30F), (0x074, 1, 4, 0xFFFFFFFF), (0x07C, 2, 4, 0xFFFFFFFF), (0x104, 8, 0x20, 0xFFFF0F08),
              (0x108, 8, 0x20, 0xFFFFFFFF), (0x10C, 8, 0x20, 0xFFFFFFFF), (0x110, 8, 0x20, 0xFFFFFFFF)]
  | .spx => [(0x048, 1, 4, 0x103FF), (0x050, 1, 4, 0xFFFF01FF), (0x080, 16, 4, 0xFFFFFFFF)]
  | .latg => [(0x044, 1, 4, 0x6F3F03FF), (0x050, 1, 4, 0xFFFFFFFF), (0x058, 1, 4, 0xFFFF)]
  | .tile => [(0x040, 1, 4, 0xFFFF), (0x048, 1, 4, 0xFFFFFFFF), (0x04C, 1, 4, 0x7FF), (0x05C, 1, 4, 0xC0000000)]
  | .tdm => [(0x054, 1, 4, 0x3F3F0300), (0x058, 1, 4, 0x3FFFF)]
  | .aesi => [(0x044, 1, 4, 0x037FFFFF), (0x048, 1, 4, 0x3FFFF), (0x050, 24, 4, 0xFFFFFFFF)]
  | .aeso => [(0x080, 1, 4, 0x7F00), (0x084, 1, 4, 0x3FFFF)]
  | .asrc => [(0x108, 64, 16, 0x00FFFFFF)]
  | .drv => [(0x060, 1, 4, 0x1F0000), (0x064, 1, 4, 0xFFFF), (0x068, 1, 4, 0xFFFFFFFF)]
  | .bst => [(0x064, 1, 4, 0xFFFFFFFF)]
  | .sns => [(0x044, 1, 4, 0x103), (0x060, 12, 4, 0xFFFFFFFF)]
  | .mea => [(0x054, 1, 4, 0x7FF000F), (0x058, 3, 4, 0xFFFFFFFF), (0x10C, 8, 0x20, 0xFFFFFFFF),
             (0x110, 8, 0x20, 0xFFFFFFFF), (0x114, 8, 0x20, 0xFFFFFFFF), (0x118, 8, 0x20, 0xFFFFFFFF)]
  | .diag => [(0x080, 1, 4, 0xFFFFFFFF), (0x200, 16, 0x40, 0x70F7)] ++
              (List.range 14).map (fun k => (0x204 + 4 * k, 16, 0x40, (0xFFFFFFFF : Word)))
  | .qmg => [(0x074, 1, 4, 0x3FF000F)]
  | .mem => [(0x044, 1, 4, 0x78000000), (0x048, 1, 4, 0xFFFFFFFF), (0x054, 1, 4, 0xFFFFFFFF), (0x060, 1, 4, 0xFFFFFFFF)]
  | .xbr => [(0x050, 1, 4, 0xFFFFFFFF), (0x054, 1, 4, 0xFFFFFFFF)]
  | .dbg => [(0x044, 1, 4, 0xF6)]
  | _ => []

/-- Some bits of a register return to their reset value. -/
def restoreBits (s : State) (p ofs : Nat) (m : Word) : State :=
  let old := s.reg p ofs
  let new_ := (old &&& ~~~m) ||| (resetWord p ofs &&& m)
  if old = new_ then s else s.setReg p ofs new_

/-- The status of a page returns to its reset value (R14). -/
def clearStatus (s : State) (p : Nat) : State :=
  (statusOf (pageKind p)).foldl (fun s e =>
    (List.range e.2.1).foldl (fun s i => restoreBits s p (e.1 + e.2.2.1 * i) e.2.2.2) s) s

/-- A block reset returns the block's units to their reset state, page by page (R14). -/
def unitsClear (s : State) (p : Nat) : State :=
  let s := blockHalt s p false
  match pageKind p with
  | .qmg => poolLost (qmgReset s)
  | .tsu => { s with time := { s.time with txts := [], ppsIn := 0 } }
  | .seq => seqReset s
  | .hif => let (c, i) := hifBurst s; hifReset (masterAbort s 0 c.addr (piecePops c i))
  | .latg => latgReset s
  | .tile => let s := tileReset s (p - 0x41); { s with lat := { s.lat with spoilt := true } }
  | .mem => memReset s (p - 4)
  | .sec => if s.mx.checked then (s.setF p F.secStatSealBusy 0) |> fun s =>
      { s with mx := { s.mx with sealing := false, sealWrite := false } } else sealCheck s
  | .xbr => { s with mx := { s.mx with locks := [], broken := [], waits := [], slicing := [] } }
  | .dbg => let s := masterAbort s 6 s.dev.dbgAcc.2.1 1; { s with dev := { s.dev with dbgRuns := none } }
  | .flt => fltReset s
  | .mcg => mcgReset s
  | .dev => { s with dev := { s.dev with runReq := false, swrst := false, lcArmed := none } }
  | _ => s

/-- The crossbar master whose requests a block's reset discards, beside HIF, SEQ and DBG (Table 14.4, R408). -/
def masterOf : PageKind → Option Nat
  | .qmg => some 2 | .mea => some 3 | .strg => some 4 | .latg | .spx => some 5 | .flt => some 7
  | _ => none

/-- A block reset returns the block's cells and units to their reset state, and clears its status (R14). -/
def blockClear (s : State) (p : Nat) : State :=
  let s := match masterOf (pageKind p) with
    | some m => { s with mx := { s.mx with waits := s.mx.waits.del m } }
    | none => s
  clearStatus (unitsClear s p) p

/-- What a block does at the end of its reset (R15, R386). -/
def blockCleared (s : State) (p : Nat) : State :=
  match pageKind p with
  | .qmg => qmgResetDone s
  | .tile => let s := tileBack s (p - 0x41); { s with lat := { s.lat with spoilt := true } }
  | .latg => { s with lat := { s.lat with spoilt := true } }
  | _ => s

-- Work in progress.

/-- DRAIN is in force: the block accepts no new work (R51, Table 2.5; log 12). -/
def draining (s : State) (p : Nat) : Bool := s.actIs p F.ctrlDrain

/-- A running block accepts new work. -/
def accepts (s : State) (p : Nat) : Bool := s.live && s.running p && !draining s p

/-- A block has work in progress, or holds a request (Table 2.6; log 12). -/
def busy (s : State) (p : Nat) : Bool :=
  if !s.running p then s.resetting p
  else
    match pageKind p with
    | .mac | .plk => !(s.port (p - 0x20)).ready.isEmpty || (s.port (p - 0x20)).rxOpen.isSome
    | .tpg => s.time.gens.any (fun e => e.2.active)
    | .strg => s.strm.ing.any (fun e => !e.2.segs.isEmpty) || s.strm.egr.any (fun e => e.2.segs.any (fun g => !g.sent))
    | .spx => s.strm.reruns.any (fun r => !r.lost) || s.strm.coneBusy
    | .latg => s.is p F.latgCheckBusy || s.lat.tiles.any (fun e => e.2.cur.isSome)
    | .tile => (s.tile (p - 0x41)).cur.isSome
        || ((s.tile (p - 0x41)).begun
          && (s.tile (p - 0x41)).tasks.any (fun k => k.phase == .waiting || k.phase == .running))
    | .tdm => 3 ≤ rxState s p || 2 ≤ txState s p
    | .aesi => 3 ≤ rxState s p
    | .aeso => 2 ≤ txState s p
    | .asrc => (List.range 64).any (fun c => asrcSt s c != 0)
    | .mea => s.is p F.meaCapStatBusy
    | .diag => sweeping s || !s.diag.pilots.isEmpty
    | .qmg => s.qmg.ports.any (fun e => e.2.open_.isSome) || !s.qmg.stalls.isEmpty
    | .seq => (List.range 8).any (fun c => seqState s c != 0)
    | .hif => s.hif.deferred.isSome || !s.hif.net.isEmpty
    | .xbr => !s.mx.locks.isEmpty
    | .mem => s.is p F.memStatBistBusy
    | .sec => s.mx.sealing || s.mx.wiping.isSome
    | .flt => !s.flt.msgs.isEmpty
    | .red => s.red.waiting || !s.red.checkLeft.isEmpty
    | _ => false

/-- A port, or ASRC, gives no audio for the tick at whose boundary it stops, not drained to IDLE (R16, R51, R237). -/
def feedAbsent (s : State) (p : Nat) : State :=
  let fed := match pageKind p with
    | .tdm | .aesi => (rxStrips s p).filter (portFeeds s p)
    | .asrc => ((List.range 64).map (fun c => asrcF s c F.asrcChCfgStrip)).filter (portFeeds s p)
    | _ => []
  fed.foldl (fun s n => { s with lat := { s.lat with
      ins := s.lat.ins.put n { tick := s.arch.began.get 0 p, absent := true, st := .ivory } } }) s

/-- A host queue of a MAC holds an item that waits to be sent. -/
def hostWaits (s : State) (q : Nat) : Bool :=
  [true, false].any (fun ex => match hostQueue s q ex with
    | some n => !(s.queue n).items.isEmpty
    | none => false)

/-- The block has an operation outstanding of those that its chapter names for PG_TMO (R56; R106, R197, R231, R256, R257,
R363, R387, R410, R432, R453); on other pages the timer never runs. DEDUCED (log 41): an access of a bank is outstanding
while work that makes it is in progress and the bank does not answer. -/
def awaits (s : State) (p : Nat) : Bool :=
  match pageKind p with
  | .mac => linkState s (p - 0x20) == 2 && (s.port (p - 0x20)).ready.any (fun f => 0 < f.cells) || hostWaits s (p - 0x20)
  | .strg => bankWaits s 3 && (s.strm.ing.any (fun e => !e.2.segs.isEmpty || !e.2.jb.isEmpty)
      || s.strm.egr.any (fun e => e.2.segs.any (fun g => !g.sent)) || s.net.ports.any (fun e => e.2.rxOpen.isSome))
  | .spx => s.strm.reruns.any (fun r => !r.running && !r.lost) || s.strm.coneBusy
  | .latg => (s.is p F.latgCheckBusy && !s.lat.checkDue) || (s.lat.staging && !s.is p F.latgStagePreloadDone)
  | .tile => (s.tile (p - 0x41)).cur.isSome && [0, 1, 2].any (bankWaits s)
  | .mea => !s.meas.late.isEmpty
  | .qmg => bankWaits s 3 && (s.qmg.ports.any (fun e => e.2.open_.isSome) || s.qmg.queues.any (fun e => 0 < e.2.popped))
  | .sec => s.mx.sealing
  | .seq => (List.range 8).any (fun c => seqState s c == 1 && (s.ctx c).txn.isNone)
  | .hif => (match s.hif.deferred with
        | some c => decide (s.hif.done.length < c.n) && !((s.qport 0).stall.isSome && !s.hif.popNet)
        | none => false)
      || (s.hif.net.any (·.waits) && !((s.qport 0).stall.isSome && s.hif.popNet))
  | _ => false

-- The work of a running block at its boundary.

/-- The consumers of the lattice's outputs take the blocks of tick t (R204, R306, R334, R342, R351, R354); where LATG does
not run, or resets, none was committed and each is absent (R16, R256). -/
def outputTakes (s : State) (t : Nat) : State :=
  let ports := (List.range 16).map (0x80 + ·) ++ (List.range 4).map (0x94 + ·)
  let s := ports.foldl (fun s p => if s.running p then txExchange s p t else s) s
  let s := (List.range 16).foldl (fun s c => if s.running (pgDrv c) then drvTake s t c else s) s
  let s := (List.range 4).foldl (fun s g => if s.running (pgBst g) then bstTarget s t g else s) s
  if s.running pgMea then meaTap s t else s

/-- The lattice's boundary that begins tick n, and what follows of the blocks committed there. -/
def outputCommit (s : State) (n : Nat) : State :=
  outputTakes (if s.running pgLatg then latgBoundary s n else formDigest s (n - 1)) (n - 1)

/-- A running block's own work at the boundary that begins tick n; LATG's is `outputCommit`. -/
def blockTick (s : State) (p n : Nat) : State :=
  match pageKind p with
  | .tsu => tsuBoundary s
  | .tpg => tpgBoundary s
  | .refs => refsBoundary s
  | .wck => wckTakes s
  | .spx => spxBoundary s
  | .tile => tileBoundary s (p - 0x41)
  | .tdm | .aesi | .aeso => audBoundary s p n
  | .drv => drvBoundary s (p - 0xA0)
  | .bst => bstBoundary s (p - 0xB0)
  | .mea => meaBoundary s
  | .diag => diagBoundary s
  | .qmg => qmgBoundary s
  | .mem => memBoundary s (p - 4)
  | .red => redBoundary s n
  | _ => s

end Sys2Proof.Machine
end

