-- ==== Sys2Proof/Machine/Reset.lean ====
section
/-! DEFINITION. Commits, block resets, subsystem restarts and their merging (R14 to R17, R61 to R65, R469, R473). -/

namespace Sys2Proof.Machine

/-- A commit of a page fails (R64): the context is the tick named, or 0. -/
def commitFail (s : State) (p : Nat) (ctx : Word) : State :=
  let s := ((s.setF p F.cmtFailed 1).setF p F.cmtPending 0).setF p F.cmtGo 0
  raise (event s p 1) p 3 ctx

/-- The context of a failed commit of the request that waits (R64). -/
def cmtContext (s : State) (p : Nat) : Word := if s.is p F.cmtAtTick then s.reg p F.cmtTickLo.ofs else 0

/-- The key belongs to a page. -/
def keyIn (p k : Nat) : Bool := k / 4096 == p

/-- A block reset that a fault of the block asked for and that has not started is absorbed by a wider one (R469). -/
def absorbAsked (s : State) (p : Nat) : State :=
  if s.arch.rstReq.get 0 p = 3 then
    let f := fun (m : FltMsg) => if m.src = p ∧ m.react = reactBlock then { m with abs := true } else m
    { s with flt := { s.flt with msgs := s.flt.msgs.map f } }
  else s

/-- A block reset starts (R14, R65): rank 1 for the block alone, 2 within a subsystem restart. Operations of class L that
wait for the block's boundary are lost with its units (R14, log 4). -/
def resetStart (rank cause : Nat) (s : State) (p : Nat) : State :=
  let s := if rank = 2 then absorbAsked s p else s
  let s := if s.is p F.cmtPending then commitFail s p (cmtContext s p) else s
  let s := ceaseAll (blockClear s p) p
  let n := satAdd 8 (s.rd p F.statResetCount) 1
  let s := (s.setF p F.statRun 0).setF p F.statResetting 1
  let s := ((s.setF p F.statWedged 0).setF p F.statCause cause).setF p F.statResetCount n
  let s := ((s.setReg p F.flt.ofs 0).setReg p F.evt.ofs 0).setF p F.cmtFailed 0
  let s := s.setF p F.ctrlSrst 0
  { s with shadow := s.shadow.filter (fun e => !keyIn p e.1),
           arch := { s.arch with
             force := s.arch.force.del p, acts := s.arch.acts.filter (fun e => !keyIn p e.1),
             rstReq := s.arch.rstReq.del p, rankReset := s.arch.rankReset.put p rank,
             restarts := s.arch.restarts.filter (fun e => e.1 / 16 != p) } }

/-- A reset of a rank on a page is absorbed by one that runs (R469). -/
def absorbed (s : State) (p rank : Nat) : Bool :=
  s.arch.resetSeq.isSome || (s.resetting p && decide (rank ≤ s.arch.rankReset.get 0 p))

/-- A block reset of a page is performed, or absorbed (R14, R469). -/
def resetBlock (s : State) (p cause : Nat) : State :=
  if absorbed s p 1 then
    (s.setF p F.ctrlSrst 0) |> fun s => { s with arch := { s.arch with rstReq := s.arch.rstReq.del p } }
  else resetStart 1 cause s p

/-- A block reset completes (R15). -/
def resetEnd (s : State) (p : Nat) : State :=
  let s := s.setF p F.statResetting 0
  let s := { s with arch := { s.arch with rankReset := s.arch.rankReset.del p } }
  event (blockCleared s p) p 2

/-- A restart is counted, and the LIMIT-th within WINDOW escalates (R473). -/
def countRestart (s : State) (n : Nat) : State :=
  let now := s.time.frc.toNat
  let win := s.act pgFlt F.fltEscWindow * 800000000
  let l := now :: ((s.flt.restarts.get [] n).filter (fun t => decide (now < t + win)))
  let full := s.act pgFlt F.fltEscLimit ≤ l.length
  let s := { s with flt := { s.flt with restarts := s.flt.restarts.put n (if full then [] else l) } }
  if full then raiseSev s pgDev F.devFltTimeoutL3.lo (w32 (256 + n)) true reactDevice else s

/-- A subsystem restart (R17): every block of the subsystem is reset at once; the recovery windows open (R100). -/
def subsysRestart (s : State) (n cause : Nat) : State :=
  countRestart (openRecovery ((pagesOfSubsys n).foldl (resetStart 2 cause) s)) n

end Sys2Proof.Machine
end

