-- ==== Sys2Proof/Machine/Flt.lean ====
section
/-! DEFINITION. FLT, the fault collector: acceptance of messages, records, reactions, shadows (17). -/

namespace Sys2Proof.Machine

/-- Change what FLT holds. -/
def State.setFlt (s : State) (f : FltSt → FltSt) : State := { s with flt := f s.flt }

/-- The four words of a record (Table 17.4). -/
def faultWords (r : FltRec) : List Word :=
  let bit := fun (b : Bool) n => if b then 2 ^ n else 0
  [w32 (r.src % 1024 * 2 ^ 22 + r.kind % 256 * 2 ^ 14 + r.sev % 4 * 2 ^ 12 + r.react % 8 * 2 ^ 9 + bit r.transient 8
      + bit r.reraised 7 + bit r.promoted 6 + bit r.absorbed 5 + min 31 r.count),
   r.ctx, w32 r.timeNs, r.timeSec]

/-- The state of FAULT_N (R466, R476). -/
def driveFaultN (s : State) : State :=
  { s with dev := { s.dev with faultN := !s.flt.recs.isEmpty || s.flt.retWait } }

/-- A record was stored or merged: the event and the attention, in one cycle (R463, R444, R446, R447). -/
def recStored (s : State) (src : Nat) : State :=
  let s := driveFaultN s
  let a := eventF s pgFlt F.fltEvtRecord
  oneCycle s a (attRaise a attFlt src 0x1F 14)

/-- Two records coalesce (R463). -/
def FltRec.same (a b : FltRec) : Bool :=
  a.src == b.src && a.kind == b.kind && a.ctx == b.ctx && a.sev == b.sev && a.kind != 0x7F

/-- The first record that a test names is changed. -/
def mergeRec (same : FltRec → Bool) (f : FltRec → FltRec) : List FltRec → List FltRec
  | [] => []
  | r :: rs => if same r then f r :: rs else r :: mergeRec same f rs

/-- A record takes a place, or forms or extends a FAULT_OVERFLOW record (R463, R464). -/
def pushRec (s : State) (r : FltRec) : State :=
  let l := s.flt.recs
  if l.length < 256 then
    let s := s.bump pgFlt F.fltCntRecCount
    let s := if r.sev = 2 then s.bump pgFlt F.fltCntSlateCount else s
    let s := s.setFlt (fun x => { x with recs := l ++ [r], first := x.first.or (some r), overflow := false })
    capFaultIf (recStored s r.src) r
  else
    match l.reverse with
    | last :: rest =>
      if last.kind = 0x7F then
        let ctx := w32 (satAdd 32 last.ctx.toNat 1)
        let s := (s.bump pgFlt F.fltCntLostCount).setFlt (fun x => { x with recs := rest.reverse ++ [{ last with ctx := ctx }] })
        recStored s pgFlt
      else
        let o : FltRec := { src := pgFlt, kind := 0x7F, ctx := 2, count := 1, transient := true,
                            timeNs := r.timeNs, timeSec := r.timeSec }
        let s := (s.bumpBy pgFlt F.fltCntLostCount 2).setFlt (fun x => { x with recs := rest.reverse ++ [o], overflow := true })
        let a := eventF s pgFlt F.fltEvtOverflow
        oneCycle s a (recStored a pgFlt)
    | [] => s
where
  /-- A Crimson record triggers a capture (R354). -/
  capFaultIf (s : State) (r : FltRec) : State := if r.sev = 1 then capFault s else s

/-- A message is stored (R463); `new_` where it may not merge (R472). -/
def storeRec (s : State) (r : FltRec) (new_ : Bool) : State :=
  if s.actIs pgFlt F.fltCfgCoalesce && !new_ && s.flt.recs.any (·.same r) then
    let f := fun (x : FltRec) => { x with count := min 31 (x.count + r.count), transient := x.transient && !r.level }
    let s := (s.bump pgFlt F.fltCntCoalCount).setFlt (fun x => { x with recs := mergeRec (·.same r) f x.recs })
    recStored s r.src
  else pushRec s r

-- Scopes and dependents.

/-- The pages from one to another. -/
def pagesFrom (a b : Nat) : List Nat := (List.range (b + 1 - a)).map (a + ·)

/-- The fixed dependents of a page (Table 17.5). -/
def dependents (p : Nat) : List Nat :=
  let lattice := pagesFrom 0x40 0x70
  match pageKind p with
  | .drv => [pgBst ((p - 0xA0) / 4), pgSns ((p - 0xA0) / 4)]
  | .bst => pagesFrom (pgDrv (4 * (p - 0xB0))) (pgDrv (4 * (p - 0xB0) + 3)) ++ [pgSns (p - 0xB0)]
  | .sns => pagesFrom (pgDrv (4 * (p - 0xB4))) (pgDrv (4 * (p - 0xB4) + 3)) ++ [pgBst (p - 0xB4), pgDiag]
  | .tile | .latg => lattice ++ [pgSpx, pgStrg] ++ pagesFrom 0xA0 0xAF ++ pagesFrom 0x80 0x8F ++ pagesFrom 0x94 0x97 ++ [pgMea]
  | .spx => [pgStrg, pgLatg]
  | .mac => [pgStrg, pgSpx, pgTsu]
  | .refs | .mcg | .clk => pagesFrom 0x80 0x99 ++ [pgTpg] ++ pagesFrom 0xB4 0xB7
  | .mem =>
    match p - 4 with
    | 0 => lattice ++ [pgSpx] ++ pagesFrom 0xB0 0xB3
    | 1 | 2 => lattice ++ [pgSpx]
    | 3 => [pgQmg] | 4 => [pgMea] | 5 => [pgSeq] | 6 => [pgHif] | _ => [pgSec]
  | .qmg => pagesFrom 0x20 0x23 ++ [pgStrg, pgSeq, pgHif]
  | _ => []

/-- The dependents that FLT_DEP adds (Table 17.5). -/
def addedDeps (s : State) (p : Nat) : List Nat :=
  (List.range 16).flatMap (fun i =>
    let f := fun (x : Fld) => s.act pgFlt (x.at 4 i)
    if f F.fltDepEn = 1 ∧ f F.fltDepSource = p then pagesFrom (f F.fltDepFirst) (f F.fltDepLast) else [])

/-- A shadow opens over pages and their dependents (R470). -/
def openShadow (s : State) (scope : List Nat) : State :=
  let pages := (scope ++ scope.flatMap (fun p => dependents p ++ addedDeps s p)).eraseDups
  let e := s.arch.began.get 0 pgFlt + s.act pgFlt F.fltShadowTicks
  s.setFlt (fun x => { x with shadows := x.shadows ++ [{ pages := pages, until_ := e }] })

/-- Pages now shadowed (FLT_LEVEL.SHADOWED). -/
def shadowedPages (s : State) : Nat := ((List.range 1024).filter s.shadowed).length

-- Reactions.

/-- A reaction has started (R478). -/
def reacted (s : State) : State := eventF (s.bump pgFlt F.fltCntReactCount) pgFlt F.fltEvtReaction

/-- SAFE_DRV holds channels and gates until they are released, and forces them at once (R459, R460). -/
def safeDrive (s : State) (chans : BitVec 16) (gates : BitVec 4) : State :=
  drvForceAll (s.setFlt (fun x => { x with safeDrv := x.safeDrv ||| chans, safeBst := x.safeBst ||| gates }))

/-- The scope of a SAFE_DRV reaction that FLT holds (Table 17.2): a DRV source's own trip is not held, and a group's four
channels are held by THERMAL at T_TRIP, which is Crimson without a promotion. -/
def safeScope (src kind : Nat) (promoted : Bool) : BitVec 16 × BitVec 4 :=
  match pageKind src with
  | .drv => (if promoted then BitVec.ofNat 16 (2 ^ (src - 0xA0)) else 0, 0)
  | .bst => (if kind = 0x65 ∧ !promoted then BitVec.ofNat 16 (15 * 16 ^ (src - 0xB0)) else 0,
      BitVec.ofNat 4 (2 ^ (src - 0xB0)))
  | _ => (0xFFFF, 0xF)

/-- Every audio port and drive channel notes that SAFE_OUT was in force, for the ramp at its release (R309, R335). -/
def outputsHeld (s : State) : State :=
  { s with audio := { s.audio with ports := s.audio.ports.map (fun e => (e.1, { e.2 with outHeld := true })) },
           power := { s.power with drv := s.power.drv.map (fun e => (e.1, { e.2 with outHeld := true })) } }

/-- SAFE_OUT comes into force (R458, R360). -/
def safeOutput (s : State) : State :=
  if s.flt.safeOut then s else diagSafeOut (outputsHeld (s.setFlt (fun x => { x with safeOut := true })))

/-- The sequence of Table 17.3 starts (R474, R475): outputs safe, OUTSEL released, the cause record retained. -/
def resetSequence (s : State) (cause : Nat) (r : FltRec) : State :=
  let s := safeOutput (safeDrive s 0xFFFF 0xF)
  let s := setOutsel (failover s) false
  let s := s.setFlt (fun x => { x with retained := some r, retWords := faultWords r, retWait := true })
  driveFaultN { s with arch := { s.arch with resetSeq := some cause, rstReq := [] } }

/-- The subsystem a SUBSYS_RESET acts on: that of the source, or for TIMEOUT_L3 the one its context names. -/
def restartScope (m : FltMsg) : Nat := if m.kind = 0x13 then m.ctx.toNat % 16 else subsysOf m.src

/-- The reaction that is performed: a reset within Supervision or Device is DEVICE_RESET (R457, R17). -/
def reactOf (m : FltMsg) (r : Nat) : Nat :=
  if (r = reactBlock ∧ 14 ≤ subsysOf m.src) ∨ (r = reactSubsys ∧ 14 ≤ restartScope m) then reactDevice else r

/-- The reset that a message asks for is absorbed (R469): of a reset that the block starts itself, its message tells. -/
def resetAbsorbed (s : State) (m : FltMsg) (r : Nat) (promoted : Bool) : Bool :=
  match reactOf m r with
  | 3 =>
    if promoted || m.held then absorbed s m.src 1 || (s.arch.rstReq.find m.src).isSome
    else m.abs || s.arch.resetSeq.isSome
  | 4 => if m.kind = 0x13 then s.arch.resetSeq.isSome else s.arch.resetSeq.isSome || restarting s (restartScope m)
  | 6 => s.arch.resetSeq.isSome
  | _ => false

/-- FLT performs the reaction of a Crimson message, or notes that its block has started it (R457, R469, R471). -/
def performReact (s : State) (m : FltMsg) (r : Nat) (promoted slate abs : Bool) (rec : FltRec) : State :=
  if r = reactSafeDrv then
    let (c, g) := safeScope m.src m.kind promoted
    reacted (safeDrive s c g)
  else if slate || abs then s
  else
    match reactOf m r with
    | 2 => if s.flt.safeOut then s else reacted (safeOutput s)
    | 3 => reacted (if promoted || m.held then { s with arch := { s.arch with rstReq := s.arch.rstReq.put m.src 3 } } else s)
    | 4 => reacted (if m.kind = 0x13 then s else subsysRestart s (restartScope m) 4)
    | 5 => reacted (setOutsel (failover s) false)
    | 6 => reacted (resetSequence s (if m.kind = 0x52 ∧ m.src = pgDev then 3 else 5) rec)
    | _ => s

/-- The reaction of the first FLT_PROMOTE entry that matches an Amber message (R461). -/
def promotion (s : State) (m : FltMsg) : Option Nat :=
  if m.crim then none
  else
    let f := fun i (x : Fld) => s.act pgFlt (x.at 4 i)
    ((List.range 16).find? (fun i => f i F.fltPromoteEn == 1 && f i F.fltPromoteKind == m.kind
      && (f i F.fltPromoteSource == m.src || f i F.fltPromoteSource == 0x3FF))).map (fun i => f i F.fltPromoteReaction)

/-- FLT accepts a RAISE message (R461 to R472); `again` where it is processed again under R472. -/
def acceptRaise (s : State) (m : FltMsg) (again : Bool) : State :=
  let prom := promotion s m
  let crim := m.crim || prom.isSome
  let r := if crim then prom.getD m.react else 0
  let slate := s.shadowed m.src && !shadowExempt m.src m.kind
  let abs := crim && !slate && resetAbsorbed s m r prom.isSome
  let t := s.now
  let rec_ : FltRec := {
    src := m.src, kind := m.kind, sev := if slate then 2 else if crim then 1 else 0, react := r,
    transient := !m.level, reraised := again, promoted := prom.isSome, absorbed := abs,
    count := min 31 (m.rpt + 1), ctx := m.ctx, timeNs := nsOf t, timeSec := w32 (secOf t), level := m.level, msg := m }
  let scope := if r = reactSubsys then m.src :: pagesOfSubsys (restartScope m) else [m.src]
  let opens := crim && !slate && (r == reactSafeDrv || r == reactBlock || r == reactSubsys || r == reactFailover)
  let s := if opens then openShadow s scope else s
  let s := storeRec s rec_ again
  if crim then performReact s m r prom.isSome slate abs rec_ else s

/-- The distance of a page from the rotating place (R455). -/
def rotation (s : State) (p : Nat) : Nat := (p + 1024 - s.flt.rotor % 1024) % 1024

/-- The message FLT accepts next (R455): Crimson first, pages in rotating order, each block's own in its order. -/
def nextMsg (s : State) : Option FltMsg :=
  let pool := if s.flt.msgs.any (·.crim) then s.flt.msgs.filter (·.crim) else s.flt.msgs
  pool.foldl (fun (b : Option FltMsg) m => match b with
    | none => some m
    | some x => if rotation s m.src < rotation s x.src then some m else b) none

/-- A message leaves those waiting. -/
def takeMsg (s : State) (m : FltMsg) : State := s.setFlt (fun x => { x with msgs := x.msgs.erase m, rotor := m.src + 1 })

/-- FAULT_MESSAGE_ACCEPT: where a RAISE is next, FLT takes it. -/
def acceptNext (s : State) : State :=
  match nextMsg s with
  | some m => if m.cease then s else acceptRaise ((takeMsg s m).signal pgFlt) m false
  | none => s

/-- CEASE: where a CEASE is next, the record it matches becomes transient (R467). -/
def ceaseNext (s : State) : State :=
  match nextMsg s with
  | some m =>
    if !m.cease then s
    else
      let hit := fun (r : FltRec) => r.src == m.src && r.kind == m.kind && r.ctx == m.ctx
      let mark := fun (r : FltRec) => if hit r then { r with transient := true } else r
      ((takeMsg s m).signal pgFlt).setFlt (fun x => { x with recs := x.recs.map mark })
  | none => s

/-- Records of a shadow that ended which are to be raised again (R472). -/
def reraiseDue (s : State) (pages : List Nat) (r : FltRec) : Bool :=
  r.sev == 2 && r.level && !r.transient && pages.contains r.src && !s.shadowed r.src

/-- Record after record of a shadow that ended is raised again. -/
def reraise (pages : List Nat) (s : State) (r : FltRec) : State :=
  if !reraiseDue s pages r then s
  else
    let mark := fun (x : FltRec) => if x == r then { x with again := true } else x
    acceptRaise (s.setFlt (fun x => { x with recs := x.recs.map mark })) r.msg true

/-- SHADOW_END: the first shadow whose tick has begun ends (R470, R472). -/
def shadowEnd (s : State) : State :=
  match s.flt.shadows.find? (fun h => decide (h.until_ ≤ s.arch.began.get 0 pgFlt)) with
  | none => s
  | some h =>
    let s := s.setFlt (fun x => { x with shadows := x.shadows.erase h })
    let s := eventF s pgFlt F.fltEvtShadowEnd
    s.flt.recs.foldl (reraise h.pages) s

-- Control (R458, R459, R464, R465).

/-- FLT_CTRL.POP (R465). -/
def recPop (s : State) : State :=
  if s.flt.recs.isEmpty then s
  else driveFaultN (s.setFlt (fun x => { x with recs := x.recs.drop 1, overflow := x.overflow && 1 < x.recs.length }))

/-- FLT_CTRL.CLEAR_ALL. -/
def recClear (s : State) : State :=
  if s.flt.recs.isEmpty then s else driveFaultN (s.setFlt (fun x => { x with recs := [], overflow := false }))

/-- FLT_CTRL.FIRST_CLR (R464). -/
def firstClear (s : State) : State := s.setFlt (fun x => { x with first := none })

/-- What a write to FLT does at once (R458, R459, R465). -/
def fltWrote (s : State) (ofs : Nat) (v : Word) : State :=
  if ofs = 0x054 then
    if v.getLsbD 1 then recClear s else if v.getLsbD 0 then recPop s else s
  else if ofs = 0x0B0 then
    s.setFlt (fun x => { x with
      outRel := x.outRel || v.getLsbD 17, outSet := x.outSet || v.getLsbD 16,
      drvRel := x.drvRel ||| v.extractLsb' 0 16 })
  else s

/-- A refusal of a write to FLT (R478). -/
def fltVeto (ofs : Nat) (v : Word) : Option Veto :=
  if ofs = 0x040 then vetoUnless (getBits v 7 0 != 0) .range
  else if ofs = 0x044 then vetoUnless (getBits v 11 8 != 0 && getBits v 7 0 != 0) .range
  else if 0x100 ≤ ofs ∧ ofs < 0x140 then
    vetoUnless (getBits v 30 28 != 7 && !(v.getLsbD 31 && getBits v 30 28 == 0)) .range
  else if 0x140 ≤ ofs ∧ ofs < 0x180 then vetoUnless (getBits v 19 10 ≤ getBits v 9 0) .range
  else none

/-- The gates a DRV_RELEASE frees: each with the first channel of its group (R459). -/
def gatesOf (m : BitVec 16) : BitVec 4 :=
  BitVec.ofNat 4 (((List.range 4).filter (fun g => m.getLsbD (4 * g))).foldl (fun a g => a + 2 ^ g) 0)

/-- FLT's local tick boundary: releases, then OUT_SET (R458, R459). -/
def fltBoundary (s : State) : State :=
  let set_ := s.flt.outSet
  let s := s.setFlt (fun x => { x with
    safeOut := x.safeOut && !x.outRel, outRel := false, outSet := false, drvRel := 0,
    safeDrv := x.safeDrv &&& ~~~x.drvRel, safeBst := x.safeBst &&& ~~~(gatesOf x.drvRel) })
  if set_ then safeOutput s else s

/-- The words FLT shows of a record, or zeros. -/
def recShown (r : Option FltRec) (i : Nat) : Word :=
  match r with
  | some r => nth 0 (faultWords r) i
  | none => 0

/-- Reads of FLT's page that show what it holds (Table 17.7). -/
def fltView (s : State) (ofs : Nat) : Option Word :=
  if ofs = 0x050 then
    some (w32 ((if s.flt.first.isSome then 2 ^ 31 else 0) + (if s.flt.overflow then 2 ^ 30 else 0)
      + (if s.flt.retWait then 2 ^ 29 else 0) + shadowedPages s % 1024 * 65536 + s.flt.recs.length % 512))
  else if 0x060 ≤ ofs ∧ ofs < 0x070 then some (recShown s.flt.recs.head? ((ofs - 0x60) / 4))
  else if 0x070 ≤ ofs ∧ ofs < 0x080 then some (recShown s.flt.first ((ofs - 0x70) / 4))
  else if 0x084 ≤ ofs ∧ ofs < 0x094 then some (recShown s.flt.recs[s.rd pgFlt F.fltRecIdxIdx]? ((ofs - 0x84) / 4))
  else if 0x0A0 ≤ ofs ∧ ofs < 0x0B0 then some (nth 0 s.flt.retWords ((ofs - 0xA0) / 4))
  else if ofs = 0x0B4 then some (w32 ((if s.flt.safeOut then 2 ^ 31 else 0) + s.flt.safeDrv.toNat))
  else none

end Sys2Proof.Machine
end

