-- ==== Sys2Proof/Machine/Dev.lean ====
section
/-! DEFINITION. The Device subsystem: resets and start-up, watchdogs, freeze, life cycle, tamper, JTAG (20). -/

namespace Sys2Proof.Machine

/-- Change what the Device subsystem holds. -/
def State.setDev (s : State) (f : DevSt → DevSt) : State := { s with dev := f s.dev }

-- Device reset (R514 to R517).

/-- The boost controllers as a reset leaves them: the levels of their pins are the surroundings'. -/
def bstPins (s : State) : SMap BstSt :=
  (s.power.bst.filter (fun e => e.2.ovpPin)).map (fun e => (e.1, { ovpPin := true }))

/-- The core goes into reset: only what the VAUX domain keeps is left (R514), and the surroundings' levels. Causes that
coincide record the lowest (R517). -/
def coreHold (s : State) (cause : Nat) : State :=
  let vaux := s.mem.filter (fun c => decide (bankBase 7 ≤ c.1) && decide (c.1 < bankBase 7 + bankSize 7))
  let cause := if s.dev.phase = .held then min cause s.dev.cause else cause
  let keep := fun (n : State) (p : Nat) (f : Fld) => n.setF p f (s.rd p f)
  let d : DevSt := {
    phase := .held, tamper := s.dev.tamper, tamperOff := s.dev.tamperOff, safePin := s.dev.safePin, frzPin := s.dev.frzPin,
    ocPin := s.dev.ocPin,
    tap := s.dev.tap, cause := cause, byFault := cause == 4 || s.arch.resetSeq.isSome || (s.dev.phase == .held && s.dev.byFault),
    supply := s.dev.supply, vioc := s.dev.vioc, refclk := s.dev.refclk,
    faultN := s.flt.retWait }
  let n : State := { State.reset with
    mem := vaux, freeCtr := s.freeCtr, pending := s.pending, dev := d, power := { bst := bstPins s },
    flt := { retained := s.flt.retained, retWait := s.flt.retWait, retWords := s.flt.retWords },
    mx := { wiping := s.mx.wiping, dead := s.mx.dead.filter (bankBase 7 ≤ ·), wback := s.mx.wback.filter (bankBase 7 ≤ ·) } }
  let n := keep (keep n pgSec F.secWipesCount) pgSec F.secStatLastWipeCause
  let n := n.setB pgSec F.secStatWiping s.mx.wiping.isSome
  let n := keep (keep n pgHif F.hifNetCtrLoL) pgHif F.hifNetCtrHiL
  let n := keep (keep n pgDev F.devResetCauseCount) pgDev F.devResetCauseCause
  keep (keep n pgDev F.devTamperSeen) pgDev F.devLcState

/-- A device reset for a cause, while VAUX is there. -/
def deviceReset (s : State) (cause : Nat) : State := if s.dev.phase = .vauxOff then s else coreHold s cause

/-- VAUX is applied: everything that it keeps starts anew (R514, R517). -/
def vauxOn (s : State) : State :=
  if s.dev.phase = .vauxOff then s.setDev (fun d => { d with phase := .held, cause := 0 }) else s

/-- VAUX is removed: only the fuses are left (R514). -/
def vauxOff (s : State) : State :=
  let n : State := { State.reset with
    freeCtr := s.freeCtr, pending := s.pending, power := { bst := bstPins s },
    dev := { safePin := s.dev.safePin, ocPin := s.dev.ocPin, vioc := s.dev.vioc } }
  n.setF pgDev F.devLcState (s.rd pgDev F.devLcState)

/-- A supply leaves its range (R515, R517). -/
def supplyLost (s : State) (rail : Supply) : State :=
  (deviceReset s 1).setDev (fun d => { d with supply := false, vioc := d.vioc && rail != .vioc })

/-- What drives a pin of the core: its blocks, nothing, or the pad, which holds it low (R515). -/
inductive PinDrive where
  | core | highZ | low
  deriving DecidableEq, Repr

/-- VAUX is absent, or a core supply is out of range (R515). -/
def unpowered (s : State) : Bool := s.dev.phase == .vauxOff || !s.dev.supply

/-- What drives DCn_AH, DCn_AL, DCn_BH, DCn_BL and BGn_GATE (R515). -/
def gateDrive (s : State) : PinDrive := if !unpowered s then .core else if s.dev.vioc then .low else .highZ

/-- What drives every other output of the core (R515). -/
def outputDrive (s : State) : PinDrive := if unpowered s then .highZ else .core

/-- The code of a life-cycle state (Table 20.7). -/
def lcCode : LifeCycle → Nat
  | .blank => 0 | .provisioned => 1 | .deployed => 2 | .rma => 3 | .scrapped => 4

/-- TAMPER is raised with the pins' bits and a further context bit (R537). -/
def raiseTamper (s : State) (pins : BitVec 2) (off : Bool) : State :=
  let ctx := w32 (pins.toNat + if off then 256 else 0)
  raise (eventF s pgDev F.devEvtTamper) pgDev F.devFltTamper.lo ctx

/-- The condition of TAMPER ends when both pins are high (R537). -/
def tamperEnd (s : State) : State := if s.dev.tamper = 0 then cease s pgDev F.devFltTamper.lo else s

/-- Start-up begins at t0 (R516 to R518, R536): supplies and REFCLK are good, the straps are sampled, the fuses read. -/
def startUp (s : State) (mode : BitVec 3) (rolePref : Bool) (fuses : Option LifeCycle) : State :=
  if s.dev.phase ≠ .held then s
  else
    let bad := decide (mode ≠ 0 ∧ mode ≠ 1 ∧ mode ≠ 4)
    let off := s.dev.tamperOff
    let n := if s.dev.cause = 0 then 0 else satAdd 16 (s.rd pgDev F.devResetCauseCount) 1
    let s := s.setDev (fun d => { d with phase := .starting, supply := true, vioc := true, refclk := true, tamperOff := 0 })
    let s := (s.setF pgDev F.devResetCauseCause s.dev.cause).setF pgDev F.devResetCauseCount n
    let s := (s.setF pgDev F.devStrapMode mode.toNat).setB pgDev F.devStrapRolePref rolePref
    let s := s.setB pgDev F.devStrapModeBad bad
    let s := s.setF pgRed F.redClaimPrio (if rolePref then 0x80 else 0x40)
    let s := s.setF pgDev F.devLcState ((fuses.map lcCode).getD 4)
    let s := s.setF pgClk F.clkStatRefclkOk 1
    let s := if bad then raise s pgDev 2 (w32 mode.toNat) else s
    let s := if fuses.isNone then raise s pgDev F.devFltLifecycle.lo 0x77 else s
    if off = 0 then s else tamperEnd (raiseTamper s off true)

/-- DEV_STATE takes a value. -/
def setDevState (s : State) (n : Nat) : State := s.setF pgDev F.devStateState n

/-- The core becomes HALTED: its drive outputs are safe (R519). -/
def halt (s : State) : State := setDevState (safeDrive s 0xFFFF 0xF) 4

/-- FLT stores the retained record as its first (R476). -/
def storeRetained (s : State) : State :=
  match s.flt.retWait, s.flt.retained with
  | true, some r => storeRec (s.setFlt (fun x => { x with retWait := false })) { r with transient := true } false
  | _, _ => s

/-- PLL_LOCK: every PLL has locked, and the core domains are released (Table 20.3). -/
def pllsLocked (s : State) : State :=
  if s.dev.phase ≠ .starting then s
  else
    let s := [F.clkStatSdPllLock, F.clkStatLatLock, F.clkStatFabLock, F.clkStatTsLock].foldl (fun s f => s.setF pgClk f 1) s
    if s.rd pgDev F.devStrapMode = 4 then setDevState (s.setDev (fun d => { d with phase := .extest, extest := d.tap == 0 })) 5
    else
      let s := sealCheck (storeRetained (s.setDev (fun d => { d with phase := .on })))
      if lcState s = 4 then halt s else s

/-- Start-up may reach READY: the banks are filled and the secure bank is checked (Table 20.3). -/
def startDone (s : State) : Bool := (List.range 7).all (bankReady s) && s.mx.checked

/-- DEVICE_READY (R519, R522). -/
def deviceReadyAct (s : State) (bist : BitVec 48) : State :=
  if !s.live || s.devState != 1 || !startDone s then s
  else
    let bist := if s.rd pgDev F.devStrapMode = 1 then 0 else bist
    let s := s.setReg pgDev F.devBistLoFail.ofs (bist.extractLsb' 0 32)
    let s := s.setF pgDev F.devBistHiFail (bist.extractLsb' 32 16).toNat
    eventF (setDevState s 2) pgDev F.devEvtReady

-- Watchdogs (R18, R19, R522).

/-- The subsystem watchdogs run: READY or RUN (R522). -/
def wdogRuns (s : State) : Bool := s.live && (s.devState == 2 || s.devState == 3)

/-- DEV_WDOG_LIVE.SUBSYS: the subsystems live in the current period, from READY on (R18, R522, Table 20.8). -/
def liveSubsys (s : State) : BitVec 15 :=
  if s.devState = 2 ∨ s.devState = 3 then
    BitVec.ofNat 15 (((List.range 15).filter (fun i => !s.arch.dead.get false (i + 1))).foldl (fun a i => a + 2 ^ i) 0)
  else 0

/-- SUBSYSTEM_WATCHDOG_EXPIRY (R17, R18, R473): some watched block has raised no progress signal. -/
def subsysExpire (s : State) (n : Nat) : State :=
  if !wdogRuns s || n == 0 || s.arch.dead.get false n || (watched s n).all (fun q => s.arch.progress.get false q) then s
  else
    let s := { s with arch := { s.arch with dead := s.arch.dead.put n true } }
    let s := raiseSev s pgDev F.devFltTimeoutL3.lo (w32 n) true reactSubsys
    if n < 14 && !restarting s n && s.arch.resetSeq.isNone then subsysRestart s n 5 else s

/-- LIVENESS_TOKEN (R19, R522): FLT shows the device watchdog which subsystems are live. -/
def sendToken (s : State) : State :=
  if wdogRuns s && s.running pgFlt
  then { s with arch := { s.arch with token := some (liveSubsys s ++ (0 : BitVec 1)),
                                      tokenAt := s.time.frc.toNat } }
  else s

/-- Tokens had stopped: none came within the last 10 ms (R19, R475). -/
def tokensStopped (s : State) : Bool := s.arch.token.isNone || decide (s.arch.tokenAt + 8000000 < s.time.frc.toNat)

/-- The subsystems not live in the last token, or all ones where tokens had stopped (R475). -/
def tokenContext (s : State) : Word :=
  match s.arch.token with
  | some t => if t = 0xFFFE ∨ tokensStopped s then 0xFFFFFFFF else (~~~t &&& 0xFFFE).zeroExtend 32
  | none => 0xFFFFFFFF

/-- DEVICE_WATCHDOG_EXPIRY (R19, R474, R475): the sequence runs from the VAUX domain. -/
def deviceExpire (s : State) : State :=
  if !s.live || s.arch.resetSeq.isSome then s
  else
    let t := s.now
    resetSequence s 4 { src := pgDev, kind := 0x14, sev := 1, react := reactDevice, count := 1, ctx := tokenContext s,
                        timeNs := nsOf t, timeSec := w32 (secOf t) }

/-- A clock that R28 names is lost: CLK_LOSS, the drive path at once, and the reset to come (R28, R517). -/
def clockLost (s : State) : State :=
  if s.dev.phase = .starting then coreHold s 3
  else if s.dev.phase ≠ .on then s
  else if s.dev.frozen then coreHold s 3
  else if !s.dev.refclk then s
  else
    let s := drvForceAll (s.setDev (fun d => { d with refclk := false }))
    raiseSev s pgDev F.devFltClkLoss.lo 0 true reactDevice

/-- REFCLK_LOSS (R28). -/
def refclkLost (s : State) : State :=
  let s := clockLost s
  if s.dev.phase = .held then s.setDev (fun d => { d with refclk := false })
  else if s.dev.phase = .on then (s.setF pgClk F.clkStatRefclkOk 0).setF pgClk F.clkStatHkInternal 1
  else s

/-- PLL_LOCK_LOSS: as a loss of REFCLK, which moves CLK_HK to the internal oscillator (R28, R517). -/
def pllLost (s : State) (pll : Pll) : State :=
  let s := clockLost s
  let f := match pll with
    | .ts => F.clkStatTsLock | .fab => F.clkStatFabLock | .lat => F.clkStatLatLock | .serdes => F.clkStatSdPllLock
  if s.dev.phase = .on then (s.setF pgClk f 0).setF pgClk F.clkStatHkInternal 1 else s

/-- DEV's local tick boundary: SWRST (R59, R538) or DEV_RUN (R100, R521) takes effect. -/
def devBoundary (s : State) : State :=
  if s.dev.swrst then deviceReset s 6
  else if s.dev.runReq && s.devState == 2 then
    let s := setDevState (s.setDev (fun d => { d with runReq := false })) 3
    let s := { s with net := { s.net with ranOnce := true } }
    let s := if s.dev.byFault then openRecovery s else s
    eventF s pgDev F.devEvtRun
  else s

-- Freeze (R523 to R528).

/-- A freeze request is taken (R523, R524): source 1 FREEZE_N, 2 CLK_FRZ; the outputs are made safe. -/
def freezeTake (s : State) (src master : Nat) : State :=
  let st := s.devState
  if s.dev.phase ≠ .on || s.dev.frozen || s.dev.freezing || s.arch.resetSeq.isSome || st == 0 || 3 < st then s
  else
    let s := (s.setF pgDbg F.dbgStatSrc src).setF pgDbg F.dbgStatMaster master
    let s := safeOutput (safeDrive s 0xFFFF 0xF)
    (failover s).setDev (fun d => { d with freezing := true })

/-- FREEZE_PIN: FREEZE_N has been low for four cycles. -/
def freezePinLow (s : State) : State := freezeTake (s.setDev (fun d => { d with frzPin := true })) 1 0

/-- FREEZE_STOP: every domain stops (R525, R526). -/
def freezeHold (s : State) : State :=
  if !s.dev.freezing then s
  else
    let s := s.setDev (fun d => { d with freezing := false, frozen := true, frzCyc := 0 })
    let s := s.setF pgDbg F.dbgStatFrozen 1
    let s := s.setReg pgDbg F.dbgFrzTickLoTick.ofs (w32 s.time.tick)
    let s := s.setF pgDbg F.dbgFrzTickHiTick (s.time.tick / 2 ^ 32)
    let s := s.setReg pgDbg F.dbgFrzFrcLoCount.ofs (s.time.frc.extractLsb' 0 32)
    s.setReg pgDbg F.dbgFrzFrcHiCount.ofs (s.time.frc.extractLsb' 32 32)

/-- DBG_THAW.GO (R528). -/
def thawAct (s : State) : State :=
  if !s.dev.frozen then s
  else if s.dev.frzPin then s.setF pgDbg F.dbgStatThawBlocked 1
  else
    let s := (s.setF pgDbg F.dbgStatFrozen 0).setF pgDbg F.dbgStatThawBlocked 0
    let s := s.setF pgDbg F.dbgFrzUsUs (min 0xFFFFFFFF (s.dev.frzCyc / 800))
    let off := s.dev.tamperOff
    let s := s.setDev (fun d => { d with frozen := false, tamperOff := 0 })
    if off = 0 then s else tamperEnd (raiseTamper s (s.dev.tamper ||| off) false)

/-- The eight words of a task's descriptor (Table 8.4): `taskOf` the other way round. -/
def descWords (k : Task) : List Word :=
  [k.kind * 2 ^ 28 + k.domain * 2 ^ 26 + k.waitBar * 2 ^ 16 + k.postBar * 2 ^ 8,
   k.budget * 2 ^ 16 + k.side.toNat * 2 ^ 10 + k.object, k.paramOfs, k.stateB2.toNat * 2 ^ 31 + k.stateOfs,
   k.inSlot * 2 ^ 16 + k.inCount, k.outSlot * 2 ^ 16 + k.outCount, k.ring % 2 ^ 32, k.arg * 2 ^ 16 + k.ring / 2 ^ 32].map w32

/-- The words of a block in slot `slot` of a block store (R234): 32-bit samples, or partial sums of 96 bits, of which an
Indigo block takes the slot of its pair that comes first, then the other. The order of a sum's words is DEDUCED (log 47). -/
def blkWords (s : State) (slot : Nat) (b : Blk) : List Word :=
  if b.absent then []
  else
    let sums := fun (l : List Int) => l.flatMap (fun v =>
      let n := toBits 96 v
      [w32 (n % 2 ^ 32), w32 (n / 2 ^ 32 % 2 ^ 32), w32 (n / 2 ^ 64)])
    match b.src with
    | some a =>
      let k := (s.taskAt a.1 a.2).task
      if outWidth s a.1 a.2 = 2 then sums ((b.data.drop (4 * ((slot - k.outSlot) % 2))).take 4)
      else if k.kind = kMatrix ∧ (rw0 (s.taskAt a.1 a.2).copy 0).getLsbD 30 then sums b.data
      else b.data.map (fun v => w32 (toBits 32 v))
    | none => b.data.map (fun v => w32 (toBits 32 v))

/-- The word at an offset of a tile's local memory, in the order of R233: the list halves, the block store, the working
state and its checkpoint; none where nothing the machine holds says what lies there (log 47). -/
def tileWord (s : State) (t ofs : Nat) : Option Word :=
  let x := s.tile t
  let o := ofs - 65536
  let st := o - 48 * x.slots
  if ofs < 65536 then
    let l := if ofs / 32768 = x.half then x.tasks.map (fun y => y.task) else if x.preloaded then x.staged else []
    (l[ofs % 32768 / 32]?).bind (fun k => (descWords k)[ofs % 32 / 4]?)
  else if o < 48 * x.slots then (x.store.find (o / 48)).bind (fun b => (blkWords s (o / 48) b)[o % 48 / 4]?)
  else if st < x.bytes then stateAt x (fun y => y.work) st
  else stateAt x (fun y => y.ckpt) (st - x.bytes)
where
  /-- The word at an offset of the working state, or of the checkpoint. -/
  stateAt (x : TileSt) (f : TaskSt → List Int) (ofs : Nat) : Option Word :=
    x.tasks.findSome? (fun y =>
      if y.task.stateB2 || ofs < y.task.stateOfs then none
      else (stateWords y.task (f y))[(ofs - y.task.stateOfs) / 4]?)

/-- A read of DBG_SNAP_DATA (R527): the word of a tile's local memory that the machine holds; where it holds none, and
for the pointers of FIFOs and the cells of link memory, whose places the spec leaves open, a free value (log 3). -/
def snapWord (s : State) : Word × State :=
  if !s.dev.frozen then (0, s)
  else
    let obj := s.rd pgDbg F.dbgSnapSelObj
    let next := roll4 s
    let known := if obj = 1 then tileWord s (s.rd pgDbg F.dbgSnapSelIndex) (s.rd pgDbg F.dbgSnapOfsOfs / 4 * 4) else none
    if let some v := known then (v, next)
    else if obj = 1 ∨ obj = 2 ∨ obj = 3 then
      let (v, s) := next.fresh
      (v.extractLsb' 0 32, s)
    else (0, next)
where
  /-- OFS advances by 4. -/
  roll4 (s : State) : State :=
    s.setF pgDbg F.dbgSnapOfsOfs ((s.rd pgDbg F.dbgSnapOfsOfs + 4) % 2 ^ 18)

-- Life cycle and tamper (R535 to R537).

/-- The transitions of R535. -/
def lcMay (from_ to_ : Nat) : Bool :=
  match from_ with
  | 0 => to_ == 1 || to_ == 4
  | 1 => to_ == 2 || to_ == 3 || to_ == 4
  | 2 => to_ == 3 || to_ == 4
  | 3 => to_ == 4
  | _ => false

/-- DEV_LC_CTRL.GO is accepted (R535). -/
def lcOk (s : State) : Bool :=
  match s.dev.lcArmed with
  | some t => lcMay (lcState s) t && !s.is pgDev F.devLcVauxLow && (s.devState == 2 || s.devState == 3)
  | none => false

/-- An accepted GO (R535): the wipe starts, and the fuses are programmed. -/
def lcGoAct (s : State) : State :=
  let t := s.dev.lcArmed
  let s := (wipeStart s 3).setF pgDev F.devLcBusy 1
  s.setDev (fun d => { d with lcNew := t, lcArmed := none })

/-- A life-cycle state takes effect (R535). -/
def lcTakes (s : State) (t : Nat) : State :=
  let old := lcState s
  let s := (s.setF pgDev F.devLcState t).setF pgDev F.devLcBusy 0
  let s := s.setDev (fun d => { d with lcNew := none })
  let s := raise (eventF s pgDev F.devEvtLcDone) pgDev F.devFltLifecycle.lo (w32 (old + 16 * t))
  if t = 4 then halt s else s

/-- LC_DONE: the new state takes effect (R535, R536), on a frozen DEV after the thaw. -/
def lcDoneAct (s : State) : State :=
  if s.dev.frozen then s
  else
    match s.dev.lcNew with
    | none => s
    | some t => lcTakes s t

/-- TAMPER_ASSERT: a tamper pin is asserted (R401, R537); DEV, where it is off or frozen, raises it later. -/
def tamperLow (s : State) (pin : Fin 2) : State :=
  if s.dev.phase = .vauxOff then s
  else
    let bit : BitVec 2 := 1 <<< pin.val
    let s := wipeStart s (pin.val + 1)
    let s := s.setDev (fun d => { d with tamper := d.tamper ||| bit })
    let s := s.setF pgDev (Fld.bit F.devTamperSeen.ofs (8 + pin.val)) 1
    if s.dev.phase ≠ .on ∨ s.dev.frozen then s.setDev (fun d => { d with tamperOff := d.tamperOff ||| bit })
    else raiseTamper s s.dev.tamper false

/-- TAMPER_RELEASE: both pins are high. -/
def tamperHigh (s : State) : State := tamperEnd (s.setDev (fun d => { d with tamper := 0 }))

-- The TAP (R530, R531).

/-- An instruction of Table 20.6 is selected. -/
def tapSelect (s : State) (code : BitVec 5) : State :=
  if s.dev.phase = .vauxOff then s
  else s.setDev (fun d => { d with tap := code, extest := code == 0 && d.phase == .extest })

-- Registers of DEV, CLK and DBG.

/-- Reads of DEV, CLK and DBG that show what the device holds (Tables 20.8 to 20.10). -/
def devView (s : State) (p ofs : Nat) : Option Word :=
  if p = pgDev then
    if ofs = 0x044 then some (if s.devState = 3 then 1 else 0)
    else if ofs = 0x060 then some ((liveSubsys s ++ (0 : BitVec 1)).zeroExtend 32)
    else if ofs = 0x070 then some (w32 (s.rd pgDev F.devTamperSeen * 256 + s.dev.tamper.toNat))
    else if ofs = 0x078 then some (w32 (s.time.frc.toNat / 800000000))
    else none
  else if p = pgClk then if ofs = 0x044 then some (if s.dev.frzPin then 0x100 else 0) else none
  else if p = pgDbg then
    if ofs = 0x05C ∧ s.dev.frozen then some (w32 (min 0xFFFFFFFF (s.dev.frzCyc / 800))) else none
  else none

/-- A refusal of a write to DEV (R521, R535, Table 20.8). -/
def devVeto (s : State) (ofs : Nat) (v : Word) : Option Veto :=
  match ofs with
  | 0x044 => if v.getLsbD 0 then vetoUnless (s.devState == 2 || s.devState == 3) .range else none
  | 0x05C => vetoUnless (getBits v 9 0 != 0 && getBits v 9 0 ≤ 1000) .range
  | 0x06C => if v.getLsbD 0 then vetoUnless (lcOk s) .range else none
  | _ => none

/-- What a write to DEV does. SWRST acts at DEV's boundary (R59), and at once where the core has none, being HALTED. -/
def devWrote (s : State) (ofs : Nat) (v : Word) : State :=
  match ofs with
  | 0x044 => if v.getLsbD 0 && s.devState == 2 then s.setDev (fun d => { d with runReq := true }) else s
  | 0x048 => if getBits v 31 16 = 0x5A5A ∧ v.getLsbD 0 then
      (if s.live then s.setDev (fun d => { d with swrst := true }) else deviceReset s 6) else s
  | 0x068 => s.setDev (fun d => { d with lcArmed := if getBits v 31 16 = 0x4C43 then some (getBits v 2 0) else none })
  | 0x06C => if v.getLsbD 0 then lcGoAct s else s
  | _ => s

/-- What a write to DBG does at once (R528, R540). -/
def dbgWrote (s : State) (ofs : Nat) (v : Word) : State := if ofs = 0x048 ∧ v.getLsbD 0 then thawAct s else s

end Sys2Proof.Machine
end

