-- ==== Sys2Proof/Machine/Access.lean ====
section
/-! DEFINITION. Accesses of the crossbar masters: what a read of a register returns and does, what a write does, the
commit of a page, and the banks (02, 14). Every command that is a register access goes through these. -/

namespace Sys2Proof.Machine

/-- The register page whose block owns a page. -/
def ownerPage (p : Nat) : Nat :=
  match pageKind p with
  | .qdesc => pgQmg
  | .ing | .egr => pgStrg
  | _ => p

/-- The register at an offset of a page, by the page's map; a context entry's by its KIND, a generator's by its BASE
(R135, R195). -/
def descOf (s : State) (p ofs : Nat) : Option RegDesc :=
  (findReg (entryRegs s p ofs) (entryOfs (pageKind p) ofs)).map (fun d =>
    if p = pgTpg && onMedia s ofs then { d with rw := d.rw &&& ~~~mediaReserved ofs } else d)

/-- The block is neither disabled nor out of a reset: a live write waits for a boundary (Table 2.11). -/
def engaged (s : State) (p : Nat) : Bool := s.is p F.ctrlEn || s.running p || s.resetting p

/-- A page that does not work: all but HIF and DBG in a freeze (R68), all but HIF and DEV of a HALTED core (R519). -/
def pageStopped (s : State) (p : Nat) : Bool :=
  (s.dev.frozen && p != pgHif && p != pgDbg) || (s.devState == 4 && p != pgHif && p != pgDev)

-- Reads.

/-- What HIF shows beside its registers (R443, Table 16.6). -/
def hifView (s : State) (ofs : Nat) : Option Word :=
  if ofs = 0x04C then some (setBits (s.reg pgHif ofs) 11 11 (if s.flt.recs.isEmpty then 0 else 1))
  else if ofs = 0x054 then some (setBits (s.reg pgHif ofs) 16 8 s.flt.recs.length)
  else none

/-- SEQ_STAT (Table 15.5). -/
def seqView (s : State) (ofs : Nat) : Option Word :=
  if ofs = 0x040 then
    let busy := ((List.range 8).filter (fun c => seqState s c != 0)).map (fun c => 2 ^ (24 + c))
    let held := (List.range 512).filter (fun c => muteHeld s c s.time.tick)
    some (w32 (busy.sum + held.length))
  else none

/-- Masters with a transaction in flight. -/
def outstanding (s : State) : List Nat :=
  (List.range 8).filter (fun m => s.qmg.stalls.contains m
    || (m == 0 && ((match s.hif.deferred with | some c => decide (s.hif.done.length < c.n) | none => false)
        || s.hif.net.any (·.waits)))
    || (m == 6 && s.dev.dbgRuns.isSome) || (s.mx.waits.find m).isSome
    || (m == 1 && (List.range 8).any (fun c => (s.ctx c).txn.isSome)))

/-- XBR_BUSY (Table 14.8). -/
def xbrView (s : State) (ofs : Nat) : Option Word :=
  if ofs = 0x068 then some (w32 (lockedMap s * 65536 + ((outstanding s).map (2 ^ ·)).sum)) else none

/-- SNS_SLOT1 to SNS_SLOT11 as latched for a master (R362). -/
def snsView (s : State) (m p ofs : Nat) : Option Word :=
  if 0x064 ≤ ofs ∧ ofs < 0x090 then some (nth 0 ((s.latch m).sns.get [] (p - 0xB4)) ((ofs - 0x064) / 4)) else none

/-- Registers whose word follows other state, as a master reads them. -/
def pageView (s : State) (m p ofs : Nat) : Option Word :=
  match pageKind p with
  | .dev | .clk | .dbg => devView s p ofs
  | .hif => hifView s ofs
  | .xbr => xbrView s ofs
  | .flt => fltView s ofs
  | .seq => seqView s ofs
  | .qmg => qmgView s m ofs
  | .qdesc => descView s p ofs
  | .tsu => tsuView s m ofs
  | .mcg => mcgView s m ofs
  | .strg => strgView s ofs
  | .ing => ingView s p ofs
  | .asrc => asrcView s ofs
  | .drv => drvView s (p - 0xA0) ofs
  | .sns => snsView s m p ofs
  | .mea => meaView s ofs
  | .mac => macView s (p - 0x20) ofs
  | _ => none

/-- A word of the common header as it reads (Tables 2.3 to 2.10). -/
def headerWord (s : State) (p ofs : Nat) : Word :=
  if ofs = 0x00C then setBits (s.reg p ofs) 1 1 (if busy s p then 0 else 1)
  else if ofs = 0x018 ∨ 0x038 ≤ ofs then 0
  else s.reg p ofs

/-- A word of the shadow window (R61). -/
def shadowWord (s : State) (p ofs : Nat) : Word :=
  match findReg (regsOf (pageKind p)) ofs with
  | some d => if d.cls = .staged then (s.shadow.find (keyOf p ofs)).getD (s.reg p ofs) &&& d.rw else 0
  | none => 0

/-- The word that a read of an implemented page returns (R45, R46, R59). -/
def regWord (s : State) (m p ofs : Nat) : Word :=
  if isRegPage p && decide (0x800 ≤ ofs) then shadowWord s p (ofs - 0x800)
  else if isRegPage p && decide (ofs < 0x40) then headerWord s p ofs
  else
    match descOf s p ofs with
    | none => 0
    | some _ => (pageView s m p ofs).getD (s.reg p ofs)

/-- What reading a register changes: latches, and RC fields, of which some reload (R59, R114, R197, R362). -/
def readDone (s : State) (m p ofs : Nat) : State :=
  match pageKind p, ofs with
  | .tsu, _ => clearRc (tsuRead s m ofs) p ofs
  | .mcg, _ => mcgRead s m ofs
  | .sns, 0x060 =>
    let l := (List.range 11).map (fun i => s.reg p (0x064 + 4 * i))
    s.setLatch m (fun x => { x with sns := x.sns.put (p - 0xB4) l })
  | .qmg, 0x044 => s.setF p F.qmgPoolMinCells (s.rd p F.qmgPoolFreeCells)
  | .spx, 0x04C => s.setReg p ofs (w32 (s.act p F.spxReserveCycles))
  | .latg, 0x05C => s.setReg p ofs 0xFFFF
  | _, _ => clearRc s p ofs
where
  /-- RC fields of a register clear; those that are RC in Service only, in Service (R99). -/
  clearRc (s : State) (p ofs : Nat) : State :=
    if ofs < 0x40 && isRegPage p then s
    else
      match descOf s p ofs with
      | some d =>
        let m := d.rc ||| (if d.rcs != 0 && s.actIs p F.macStatsModeMode then 0 else d.rcs)
        if m = 0 then s else s.setReg p ofs (s.reg p ofs &&& ~~~m)
      | none => s

/-- A read of the pop window (R377, R378): none while the read stalls. -/
def popRead (s : State) (m ofs : Nat) : Option Word × State :=
  if ofs % 8 = 4 then (some (s.qport m).info, s)
  else if pageStopped s pgQmg then
    let (v, s) := s.fresh
    (some (v.extractLsb' 0 32), s)
  else
    match (s.qport m).stallRes with
    | some d => (some d, s.setQport m (fun x => { x with stallRes := none }))
    | none => popWord s m

/-- The offset lies in the pop window of QMG. -/
def inPop (p ofs : Nat) : Bool := p == pgQmg && decide (0x200 ≤ ofs) && decide (ofs < 0x400)

/-- A read of an implemented page by a master: the word, or none while the page holds the request. In a freeze it changes
nothing (R68). -/
def regRead (s : State) (m p ofs : Nat) : Option Word × State :=
  if inPop p ofs then popRead s m ofs
  else if p = pgDbg ∧ ofs = 0x068 then
    let (w, s) := snapWord s
    (some w, s)
  else (some (regWord s m p ofs), if s.dev.frozen || pageStopped s p then s else readDone s m p ofs)

-- Refusals.

/-- A refusal of a write to HIF (R453). -/
def hifVeto (ofs : Nat) (v : Word) : Option Veto :=
  if ofs = 0x044 then vetoUnless (getBits v 31 16 != 0 && getBits v 15 0 != 0) .range else none

/-- A refusal of a write to SEQ: CFG and ENTRY against the context's own EN, and ranges (R432). -/
def seqVeto (s : State) (ofs : Nat) (v : Word) : Option Veto :=
  if ofs < 0x100 ∨ 0x200 ≤ ofs then none
  else
    let c := (ofs - 0x100) / 32
    let en := s.is pgSeq (seqF F.seqCtxCtrlEn c)
    match ofs % 32 with
    | 0 => if en then some .frozen else vetoUnless (getBits v 29 28 != 3) .range
    | 8 => if en then some .frozen else none
    | 12 => vetoUnless (getBits v 15 0 != 0) .range
    | _ => none

/-- An ingress context whose strip a port or ASRC channel feeds is not enabled (R302). -/
def ingPortVeto (s : State) (p ofs : Nat) (v : Word) : Option Veto :=
  let c := (p - 0x31) * 128 + ofs / 32
  if ofs % 32 = 8 ∧ v.getLsbD 31 ∧ ingRd s c F.ing0W2En = 0 then
    let e := entryStrips (entryWords s p ofs)
    vetoUnless (((List.range e.2).map (e.1 + ·)).all (fun k => !portTakes s 9999 k)) .range
  else none

/-- How a write of a block register is refused by its own chapter. -/
def blockVeto (s : State) (p ofs : Nat) (v : Word) : Option Veto :=
  match pageKind p with
  | .dev => devVeto s ofs v
  | .hif => hifVeto ofs v
  | .xbr => xbrVeto ofs v
  | .mem => memVeto ofs v
  | .sec => secVeto s ofs v
  | .flt => fltVeto ofs v
  | .seq => seqVeto s ofs v
  | .red => redVeto ofs v
  | .qmg => qmgVeto ofs v
  | .qdesc => descVeto s p ofs v
  | .mac => macVeto ofs v
  | .plk => plkVeto ofs v
  | .tsu => tsuVeto s ofs v
  | .tpg => tpgVeto s ofs v
  | .refs => refsVeto s ofs v
  | .mcg => mcgVeto s ofs v
  | .wck => wckVeto ofs v
  | .ing => orVeto (ingVeto s p ofs v) (ingPortVeto s p ofs v)
  | .egr => egrVeto s p ofs v
  | .spx => spxVeto ofs v
  | .latg => latgVeto ofs v
  | .tile => tileVeto ofs v
  | .tdm | .aesi | .aeso => audVeto (pageKind p) ofs v
  | .asrc => asrcVeto s ofs v
  | .drv => drvVeto ofs v
  | .bst => bstVeto ofs v
  | .mea => meaVeto s ofs v
  | .diag => diagVeto s ofs v
  | _ => none

/-- Pages whose F words are F against the EN of their own entry: their chapters' refusals say so. -/
def ownEnPage : PageKind → Bool
  | .seq | .asrc | .mea | .ing | .egr | .qdesc => true
  | _ => false

/-- A refusal by the class of the register (Table 2.11, R63). -/
def classVeto (s : State) (p : Nat) (d : RegDesc) : Option Veto :=
  match d.cls with
  | .frozen => if !ownEnPage (pageKind p) && (s.is p F.ctrlEn || s.running p) then some .frozen else none
  | .staged => if s.is p F.cmtPending then some .busy else none
  | _ => none

/-- The configuration of a page lets its EN become 1 (R303, R323, R326, R385). -/
def enableOk (s : State) (p : Nat) : Bool :=
  match pageKind p with
  | .mac => macBindOk s (p - 0x20)
  | .tdm => tdmOk s p
  | .aesi => aesiOk s p
  | .drv => drvOk s (p - 0xA0)
  | _ => true

/-- A refusal of a write to PG_CTRL: before READY, and by the block's configuration (R520). -/
def ctrlVeto (s : State) (p : Nat) (v : Word) : Option Veto :=
  if !v.getLsbD 0 || s.is p F.ctrlEn then none
  else if s.devState < 2 && !enReset (pageKind p) then some .busy
  else vetoUnless (enableOk s p) .range

/-- PG_TMO holds a timeout of 1 µs to 1 s and no reserved code (R55). -/
def tmoOk (v : Word) : Bool :=
  getBits v 25 24 != 3 && getBits v 23 20 ≤ 3 && getBits v 19 0 != 0
    && getBits v 19 0 * 10 ^ getBits v 23 20 ≤ 1000000

/-- How a write to the header is refused. -/
def headerVeto (s : State) (p ofs : Nat) (v : Word) : Option Veto :=
  match ofs with
  | 0x008 => ctrlVeto s p v
  | 0x01C => vetoUnless (tmoOk v) .range
  | 0x02C | 0x030 => if s.is p F.cmtPending then some .busy else none
  | _ => none

/-- The reply and the fault of a refused write (Table 2.12, R67). -/
def refuseWrite (s : State) (p ofs : Nat) : Veto → Nat × State
  | .range => (rPartial, raise s (ownerPage p) 2 (regAddr p ofs))
  | .busy => (rBusy, s)
  | .frozen => (rFrozen, raise s (ownerPage p) 1 (regAddr p ofs))
  | .held => (rFrozen, s)

-- Commits.

/-- The shadow of a staged register becomes its active value (R62). -/
def unshadow (s : State) (k : Nat) (w : Word) : State :=
  { s with regs := s.regs.put k w, shadow := s.shadow.del k }

/-- Every shadow of a page is copied (R62). -/
def copyShadows (s : State) (p : Nat) : State :=
  (s.shadow.filter (fun e => keyIn p e.1)).foldl (fun s e => unshadow s e.1 e.2) s

/-- A transaction that its target granted is in flight on a path: a stalled pop, of the master or at the bridge. -/
def pathBusy (s : State) (p : Nat) : Bool := (decide (p < 16) && (s.qport p).stall.isSome) || (p == 24 && !s.qmg.stalls.isEmpty)

/-- The paths that an access takes. -/
def pathsOf (m tgt : Nat) : List Nat := [m, 16 + tgt]

/-- A commit of XBR_SLICE changes a path of the access, and a transaction from before is still in flight on it (R405). -/
def sliceHeld (s : State) (m tgt : Nat) : Bool := (pathsOf m tgt).any (fun p => s.mx.slicing.contains p && pathBusy s p)

/-- The paths of a granted access have switched (R405). -/
def pathsSwitch (s : State) (m tgt : Nat) : State :=
  if s.mx.slicing.isEmpty then s
  else { s with mx := { s.mx with slicing := s.mx.slicing.filter (fun p => !(pathsOf m tgt).contains p) } }

/-- A commit of XBR_SLICE: the paths that change with a transaction in flight (R405). -/
def sliceCommit (s : State) (old : Word) : State :=
  let d := old ^^^ s.reg pgXbr F.xbrSliceMst.ofs
  let l := ((List.range 8).filter d.getLsbD ++ ((List.range 9).filter (fun t => d.getLsbD (16 + t))).map (16 + ·)).filter
    (pathBusy s)
  { s with mx := { s.mx with slicing := l } }

/-- A commit of a page takes effect (R62, R248, R317, R442). -/
def commitNow (s : State) (p : Nat) : State :=
  if p = pgLatg ∧ !swapOk s then commitFail s p (cmtContext s p)
  else
    let quad := s.is pgHif F.hifCfgQuad
    let slice := s.reg pgXbr F.xbrSliceMst.ofs
    let s := copyShadows s p
    let s := if p = pgXbr then sliceCommit s slice else s
    let s := if p = pgLatg then audNewImage (imageSwap s) else s
    let s := if p = pgHif ∧ s.is pgHif F.hifCfgQuad != quad then
        { s with hif := { s.hif with quadNext := some (s.is pgHif F.hifCfgQuad) } }
      else s
    let s := if pageKind p = .aeso then s.setAud p (fun x => { x with csNew := true }) else s
    event ((s.setF p F.cmtGo 0).setF p F.cmtPending 0) p 0

/-- PG_CMT_TICK. -/
def cmtTick (s : State) (p : Nat) : Nat := s.rd p F.cmtTickHi * 2 ^ 32 + s.rd p F.cmtTickLo

/-- A tick has begun at the block. -/
def begunTick (s : State) (p tick : Nat) : Bool :=
  match s.arch.began.find p with
  | some n => decide (tick ≤ n)
  | none => false

/-- A write of PG_COMMIT (R62 to R64). -/
def commitWrite (s : State) (p : Nat) (v : Word) : State :=
  let go := v.getLsbD 0
  let at_ := v.getLsbD 1
  if s.is p F.cmtPending then
    if go then s else ((s.setF p F.cmtPending 0).setF p F.cmtGo 0).setB p F.cmtAtTick at_
  else
    let s := s.setB p F.cmtAtTick at_
    if !go then s
    else
      let s := s.setF p F.cmtFailed 0
      if at_ && begunTick s p (cmtTick s p) then commitFail s p (cmtContext s p)
      else if !at_ && !engaged s p then commitNow s p
      else (s.setF p F.cmtGo 1).setF p F.cmtPending 1

-- Writes.

/-- A register of class L takes a word: until the boundary, an engaged block keeps working with the old one (R33, R59). -/
def putLive (s : State) (p ofs : Nat) (new_ : Word) : State :=
  let k := keyOf p ofs
  let s := if engaged s (ownerPage p) && (s.held.find k).isNone then { s with held := s.held.put k (s.reg p ofs) } else s
  s.setReg p ofs new_

/-- A word with the bits of a mask taken from another. -/
def mixWord (old new_ mask : Word) : Word := (old &&& ~~~mask) ||| (new_ &&& mask)

/-- A write of PG_CTRL (R50, R51, R59); EN = 0 takes RED to OFF at once (R486). -/
def ctrlWrite (s : State) (p : Nat) (v : Word) : State :=
  let old := s.is p F.ctrlEn
  let en := v.getLsbD 0 || enFixed (pageKind p)
  let srst := s.is p F.ctrlSrst || v.getLsbD 1
  let w := w32 ((if v.getLsbD 2 then 4 else 0) + (if srst then 2 else 0) + (if en then 1 else 0))
  let s := putLive s p 0x008 w
  match pageKind p with
  | .mac => if en && !old then macReserve s (p - 0x20) else if old && !en && !s.running p then macUnbind s (p - 0x20) else s
  | .tdm | .aesi | .aeso => if v.getLsbD 0 then audEnabled s p else s
  | .red => if en then s else redStop s
  | _ => s

/-- An accepted write to the header. -/
def headerWrite (s : State) (p ofs : Nat) (v : Word) : State :=
  let k := pageKind p
  match ofs with
  | 0x008 => ctrlWrite s p v
  | 0x010 => s.setReg p ofs (s.reg p ofs &&& ~~~(v &&& fltMask k))
  | 0x014 => putLive s p ofs ((v &&& fltMask k) ||| fltEnFixed k)
  | 0x018 => { s with arch := { s.arch with force := s.arch.force.put p (s.arch.force.get 0 p ||| (v &&& fltMask k)) } }
  | 0x01C => putLive s p ofs (v &&& 0x03FFFFFF)
  | 0x020 => s.setReg p ofs (s.reg p ofs &&& ~~~(v &&& evtMask k))
  | 0x024 => putLive s p ofs (v &&& evtMask k)
  | 0x028 => commitWrite s p v
  | 0x02C => putLive s p ofs v
  | 0x030 => putLive s p ofs (v &&& 0xFFFF)
  | 0x034 => putLive s p ofs v
  | _ => s

/-- START and STOP of a context of SEQ (R427, R428): both together are a STOP. On an engaged SEQ they act at its next
boundary (R59); on another, no context runs and no trigger is taken (R431). -/
def seqCtrl (s : State) (c : Nat) (v : Word) : State :=
  if engaged s pgSeq && (v.getLsbD 0 || v.getLsbD 1) then
    s.setCtx c (fun x => { x with ctl := x.ctl ++ [!v.getLsbD 0] })
  else s

/-- Writes to LATG: a staged base, a check (R59, R245). A running LATG that drains takes no check (log 12). -/
def latgWrote (s : State) (ofs : Nat) (v : Word) : State :=
  if ofs = 0x040 then baseWritten s
  else if ofs = 0x044 ∧ v.getLsbD 31 ∧ !(s.running pgLatg && draining s pgLatg) then checkStart s (engaged s pgLatg)
  else s

/-- The bits of a register of class L that start an operation, and whose chapter gives no earlier moment for it: on an
engaged block it acts at the block's next local tick boundary (R33, R59, Table 2.11). -/
def opBits (p ofs : Nat) : Word :=
  match pageKind p, ofs with
  | .mac, 0x08C => 1
  | .plk, 0x08C => 1
  | .sec, 0x044 => 2
  | .flt, 0x054 => 4
  | .diag, 0x040 => 0xC0000000
  | .diag, 0x07C => 0x80000000
  | .refs, 0x060 => 2
  | _, _ => 0

/-- An operation acts. -/
def opAct (s : State) (p ofs : Nat) (v : Word) : State :=
  match pageKind p with
  | .mac | .plk => macOp s (p - 0x20)
  | .sec => sealStart s
  | .flt => firstClear s
  | .diag => diagOp s ofs v
  | .refs => refsOp s
  | _ => s

/-- The operations that an accepted write starts: they wait for the boundary of an engaged block, and else act at once. -/
def opWrote (s : State) (p ofs : Nat) (v : Word) : State :=
  let b := v &&& opBits p ofs
  if b = 0 then s
  else if engaged s p then { s with arch := { s.arch with acts := s.arch.acts ++ [(keyOf p ofs, b)] } }
  else opAct s p ofs b

/-- What an accepted write of a block register does at once beyond the register. -/
def blockWrote (s : State) (m p ofs : Nat) (v old : Word) : State :=
  match pageKind p with
  | .dev => devWrote s ofs v
  | .clk => if ofs = 0x044 ∧ v.getLsbD 0 then freezeTake s 2 m else s
  | .dbg => dbgWrote s ofs v
  | .mem => memWrote s (p - 4) ofs
  | .sec => secWrote s ofs v
  | .flt => fltWrote s ofs v
  | .seq => if 0x100 ≤ ofs ∧ ofs < 0x200 ∧ ofs % 32 = 4 then seqCtrl s ((ofs - 0x100) / 32) v else s
  | .red => redWrote s ofs v
  | .qmg => qmgWrote s m ofs v
  | .qdesc => descWrote s p ofs v old
  | .mac | .plk => macWrote s (p - 0x20) ofs v
  | .tsu => tsuWrote s ofs v
  | .tpg => tpgWrote s ofs v
  | .refs => refsWrote s ofs v
  | .mcg => mcgWrote s ofs v
  | .ing | .egr => kindLoad s p ofs v old
  | .spx => spxWrote s ofs v
  | .latg => latgWrote s ofs v
  | .tile => tileWrote s (p - 0x41) ofs (engaged s p)
  | .drv => drvWrote s (p - 0xA0) ofs v
  | .mea => meaWrote s ofs v
  | _ => s

/-- Bits with access W1S that read back until they take effect: MCG_REALIGN (Table 5.5). -/
def keptW1s (p ofs : Nat) (d : RegDesc) : Word := if p = pgMcg ∧ ofs = 0x050 then d.w1s else 0

/-- An accepted write puts its word into the register (Table 2.11). -/
def storeReg (s : State) (p ofs : Nat) (v : Word) (d : RegDesc) : State :=
  let s := if d.w1c = 0 then s else s.setReg p ofs (s.reg p ofs &&& ~~~(v &&& d.w1c))
  let k := keptW1s p ofs d
  let s := if k = 0 then s else s.setReg p ofs (s.reg p ofs ||| (v &&& k))
  if d.rw = 0 then s
  else
    match d.cls with
    | .staged => { s with shadow := s.shadow.put (keyOf p ofs)
                            (mixWord ((s.shadow.find (keyOf p ofs)).getD (s.reg p ofs)) v d.rw) }
    | .live => putLive s p ofs (mixWord (s.reg p ofs) v d.rw)
    | _ => s.setReg p ofs (mixWord (s.reg p ofs) v d.rw)

/-- A write of a block register: refused, or stored with what follows. -/
def blockWrite (s : State) (m p ofs : Nat) (v : Word) (d : RegDesc) : Nat × State :=
  if p = pgDbg ∧ ofs = 0x040 ∧ m ≠ 0 then (rOk, s)
  else
    match orVeto (classVeto s p d) (blockVeto s p ofs v) with
    | some x => refuseWrite s p ofs x
    | none =>
      let old := s.reg p ofs
      (rOk, opWrote (blockWrote (storeReg s p ofs v d) m p ofs v old) p ofs v)

/-- A register that a write can change. -/
def RegDesc.writable (d : RegDesc) : Bool := (d.rw ||| d.w1c ||| d.w1s ||| d.wo) != 0

/-- A write of an implemented page by a master: the reply and the state (R45, R59, R63, R67, R68). -/
def regWrite (s : State) (m p ofs : Nat) (v : Word) : Nat × State :=
  if pageStopped s p then (rFrozen, s)
  else if isRegPage p && decide (0x800 ≤ ofs) then (rOk, s)
  else if isRegPage p && decide (ofs < 0x40) then
    match headerVeto s p ofs v with
    | some x => refuseWrite s p ofs x
    | none => (rOk, headerWrite s p ofs v)
  else
    match descOf s p ofs with
    | some d => if d.writable then blockWrite s m p ofs v d else (rOk, s)
    | none => (rOk, s)

-- The bus.

/-- The register window answers the master at the address (R42 to R44). -/
def windowOk (m a : Nat) (be : BitVec 4) : Bool :=
  [0, 1, 6, 7].contains m && a % 4 == 0 && be == 0xF
    && (match windowOf a with
      | some (p, _) => pageKind p != .reserved
      | none => false)

/-- A bank answers the master at the address; in a freeze, through the snapshot port (R402, R399, R527). -/
def bankOk (s : State) (m b a : Nat) (wr : Bool) : Bool :=
  if s.dev.frozen then [0, 6].contains m && !(b == 7 && decide (a < 0x0A008000)) else bankReach s m b a wr

/-- The target that an access reaches: 0 to 7 a bank, 8 the register bridge, 15 the default target (R40, R402). -/
def targetOf (s : State) (m a : Nat) (be : BitVec 4) (wr : Bool) : Nat :=
  match busTarget a with
  | 8 => if windowOk m a be then 8 else 15
  | 15 => 15
  | b => if bankOk s m b a wr then b else 15

/-- The core answers accesses: it is released, and not in EXTEST (R519, R520). -/
def State.answers (s : State) : Bool := s.dev.phase == .on

/-- An access of a bank through port B: reply and data (R390, R393, R394). -/
def bankAccess (s : State) (b a : Nat) (wr : Option Word) (be : BitVec 4) : (Nat × Word) × State :=
  match wr with
  | none =>
    let (w, r) := bankRead s b a
    let stopped := s.dev.frozen || s.devState == 4
    let s := if stopped then s
      else if r = 2 then eccUncorrected s b a
      else if s.mx.wback.contains a && !(b == 7 && s.mx.wiping.isSome) then eccCorrected s b a
      else s
    ((if r = 2 then rDecode else rOk, w), s)
  | some v =>
    if s.dev.frozen || s.devState == 4 then ((rFrozen, 0), s)
    else
      let (r, s) := bankWrite s b a v be
      ((if r = 2 then rDecode else rOk, 0), s)

/-- The access waits: the Memory subsystem restarts (R17), the slice of its path changes, the target is locked, the bank is
not filled or its page resets, or the master's queue at the bridge is held by a stalled pop (R392, R404, R405, R407,
R378). -/
def mustWait (s : State) (m tgt : Nat) : Bool :=
  if s.dev.frozen then false
  else if memStalled s || sliceHeld s m tgt then true
  else if tgt = 8 then lockedOut s m 8 || (s.qport m).stall.isSome
  else if tgt = 15 then false
  else lockedOut s m tgt || (s.devState != 4 && (!bankReady s tgt || s.resetting (pgMem tgt)))

/-- The target serves an access: reply and data, or none while a page holds it. -/
def serve (s : State) (m tgt a : Nat) (wr : Option Word) (be : BitVec 4) : Option (Nat × Word) × State :=
  if tgt = 15 then
    (some (rDecode, 0), if s.dev.frozen || s.devState == 4 then s else defaultAnswer s m (w32 a))
  else if tgt = 8 then
    match windowOf a, wr with
    | some (p, ofs), none =>
      let (w, s) := regRead s m p ofs
      (w.map (fun w => (rOk, w)), s)
    | some (p, ofs), some v =>
      let (r, s) := regWrite s m p ofs v
      (some (r, 0), s)
    | none, _ => (some (rDecode, 0), s)
  else
    let (r, s) := bankAccess s tgt (a / 4 * 4) wr be
    (some r, s)

/-- The read returns what a stalled pop of the master was given (R378). -/
def resumes (s : State) (m a : Nat) : Bool :=
  match windowOf a with
  | some (p, ofs) => inPop p ofs && ofs % 8 == 0 && (s.qport m).stallRes.isSome
  | none => false

/-- An access that its target has granted: what the master is answered, and its record. -/
def serveAs (s : State) (m tgt a : Nat) (wr : Option Word) (be : BitVec 4) (broken : Bool) : Option (Nat × Word) × State :=
  match serve s m tgt a wr be with
  | (none, s) => (none, s)
  | (some (r, d), s) =>
    let (r, d) := if broken then (rLocked, 0) else (r, d)
    let resp := if broken then 4 else if tgt = 15 then 1 else if tgt < 8 ∧ r = rDecode then 2 else 0
    (some (r, d), { s with mx := { s.mx with lastResp := resp, lastData := d, lastReply := r } })

/-- The access meets no lock: it goes to the default target, or returns what an earlier request was given. -/
def lockless (s : State) (m tgt a : Nat) : Bool := tgt == 15 || s.dev.frozen || resumes s m a

/-- One access of a master: its reply code and data, or none while it waits (R67, R402, R407, R440). -/
def busAccess (s : State) (m a : Nat) (wr : Option Word) (be : BitVec 4) (locked : Bool) : Option (Nat × Word) × State :=
  let tgt := targetOf s m a be wr.isSome
  if mustWait s m tgt then (none, s)
  else
    let s := pathsSwitch s m tgt
    let (broken, s) := if lockless s m tgt a then (false, s) else lockUse s m tgt locked locked
    let ends := lockEnds s m tgt
    let (r, s) := serveAs s m tgt a wr be broken
    (r, if ends && r.isSome then lockDone s m tgt else s)

/-- A single read. -/
def busRead (s : State) (m a : Nat) : Option (Nat × Word) × State := busAccess s m a none 0xF false

/-- A single write. -/
def busWrite (s : State) (m a : Nat) (v : Word) : Option (Nat × Word) × State := busAccess s m a (some v) 0xF false

/-- A command that is a read by a master. -/
def doRead (s : State) (m : Master) (a : Nat) : State := if s.answers then (busRead s (masterNo m) a).2 else s

/-- A command that is a write by a master. -/
def doWrite (s : State) (m : Master) (a : Nat) (v : Word) : State :=
  if s.answers then (busWrite s (masterNo m) a v).2 else s

/-- A command that reads a register. -/
def doRegRead (s : State) (m : Master) (p ofs : Nat) : State := doRead s m (regAddr p ofs).toNat

/-- A command that writes a register. -/
def doRegWrite (s : State) (m : Master) (p ofs : Nat) (v : Word) : State := doWrite s m (regAddr p ofs).toNat v

end Sys2Proof.Machine
end

