-- ==== Sys2Proof/Machine/SeqRun.lean ====
section
/-! DEFINITION. The event sequencer (15): the action words, the issue of an action, its replies, the waits, and SEQ's
local tick boundary. A bus action makes its access at its issue and takes the reply later (R415, R416). -/

namespace Sys2Proof.Machine

-- Action words (Table 15.1, Table 15.2).

/-- An action as fetched: opcode, flags, fields. -/
structure Action where
  op : Nat
  f0 : Bool
  f1 : Bool
  a  : Nat
  b  : Word
  deriving DecidableEq, Repr

/-- The byte address of an action in B5 (R412). -/
def actionAddr (pc : Nat) : Nat := 0x08000000 + 8 * pc

/-- A word of B5 as port A returns it: zero where it is in error by two bits (R394, R430). -/
def fetchWord (s : State) (a : Nat) : Word := if s.mx.dead.contains a then 0 else s.memWord a

/-- The fetch of an action of n words meets errors of B5 (R393, R394, R430). -/
def fetched (s : State) (pc n : Nat) : State := eccReads s (inWords (actionAddr pc) (2 * n))

/-- The action at a PC. -/
def actionAt (s : State) (pc : Nat) : Action :=
  let lo := fetchWord s (actionAddr pc)
  let hi := fetchWord s (actionAddr pc + 4)
  { op := getBits hi 31 26, f1 := hi.getLsbD 25, f0 := hi.getLsbD 24, a := getBits hi 23 0, b := lo }

/-- What Table 15.2 gives of an opcode: words, whether F0 and F1 have a meaning, the bits of A and of B that do, and
those of word 2 B. -/
structure OpRow where
  op    : Nat
  words : Nat
  f0    : Bool
  f1    : Bool
  aBits : Nat
  bMask : Word
  b2Mask : Word
  deriving DecidableEq, Repr

/-- Table 15.2. -/
def opTable : List OpRow := [
  ⟨0x00, 1, false, false, 0, 0, 0⟩, ⟨0x01, 1, true, true, 24, 0xFFFFFFFF, 0⟩,
  ⟨0x02, 2, true, true, 24, 0xFFFFFFFF, 0xFFFFFFFF⟩, ⟨0x08, 1, true, false, 18, 0xFFFFFFFF, 0⟩,
  ⟨0x09, 2, true, false, 16, 0xFFFFFFFF, 0xFF⟩, ⟨0x0A, 1, false, false, 15, 0xFFFFFFFF, 0⟩,
  ⟨0x10, 1, true, true, 24, 0xFFFFFFFF, 0⟩, ⟨0x11, 1, false, false, 18, 0, 0⟩, ⟨0x12, 1, false, false, 18, 0, 0⟩,
  ⟨0x13, 1, false, false, 0, 0, 0⟩, ⟨0x18, 1, true, false, 10, 0xFFFFFFFF, 0⟩, ⟨0x19, 1, true, true, 10, 0xFFFFFFFF, 0⟩,
  ⟨0x3F, 1, false, false, 0, 0, 0⟩]

/-- The row of an opcode. -/
def opRow (op : Nat) : Option OpRow := opTable.find? (·.op == op)

/-- Words of an action with an opcode, for a skip (R418). -/
def opWords (op : Nat) : Nat := ((opRow op).map (·.words)).getD 1

/-- Field A of WAIT_TICK is in order: 0 without MUTE; with it, last is not below first (R420). -/
def muteOk (x : Action) : Bool := if x.f0 then x.a % 512 ≤ x.a / 512 else x.a == 0

/-- An action and its second word hold no reserved bit, region or operand (R412 to R414, R420). -/
def actionOk (s : State) (pc : Nat) (x : Action) (r : OpRow) : Bool :=
  let y := actionAt s (pc + 1)
  (r.f0 || !x.f0) && (r.f1 || !x.f1) && decide (x.a < 2 ^ r.aBits) && (x.b &&& ~~~r.bMask) == 0
    && (r.words == 1 || (y.op == 0 && !y.f0 && !y.f1 && y.a == 0 && (y.b &&& ~~~r.b2Mask) == 0))
    && (!([0x01, 0x02, 0x10].contains x.op) || (actionTarget x.a).isSome)
    && (x.op != 0x08 || muteOk x)

-- Contexts.

/-- SEQ's tick: the one whose boundary it passed last. -/
def seqTick (s : State) : Nat := s.arch.began.get 0 pgSeq

/-- The PC of a context. -/
def seqPc (s : State) (c : Nat) : Nat := s.rd pgSeq (seqF F.seqCtxStatPc c)

/-- A context stops in ERROR with a cause of Table 15.4 (R428). -/
def seqErr (s : State) (c cause : Nat) : State :=
  let s := seqUnlock s c
  let at_ := w32 (actionAddr (seqPc s c))
  let s := (s.setF pgSeq (seqF F.seqCtxStatCause c) cause).setF pgSeq (seqF F.seqCtxStatState c) 4
  let s := s.setCtx c (fun x => { x with
    wait := .none, txn := none, stopping := false, expired := false, released := none })
  let s := match cause with
    | 1 => raise s pgSeq 2 at_
    | 4 => raise s pgSeq F.seqFltWatchdog.lo (w32 c)
    | 5 => raise s pgSeq 2 0x08200000
    | _ => s
  event s pgSeq (16 + c)

/-- PC takes a value; past 262,143 the context stops (R419). -/
def seqGoto (s : State) (c pc : Nat) : State :=
  if 262143 < pc then seqErr s c 5 else s.setF pgSeq (seqF F.seqCtxStatPc c) pc

/-- PC advances. -/
def seqAdv (s : State) (c n : Nat) : State := seqGoto s c (seqPc s c + n)

/-- The action after the present one, of n words, is skipped (R418). -/
def seqSkip (s : State) (c n : Nat) : State := seqAdv s c (n + opWords (actionAt s (seqPc s c + n)).op)

/-- A context is ready: in RUN with no transaction outstanding (R415). -/
def seqReady (s : State) (c : Nat) : Bool := seqState s c == 1 && (s.ctx c).txn.isNone

/-- The context that the engine issues next: the lowest PRIO, and among equals the lowest index (R415). -/
def seqNext (s : State) : Option Nat :=
  ((List.range 8).filter (seqReady s)).foldl (fun (b : Option Nat) c =>
    match b with
    | none => some c
    | some x =>
      if s.act pgSeq (seqF F.seqCtxCfgPrio c) < s.act pgSeq (seqF F.seqCtxCfgPrio x) then some c else b) none

-- Bus actions.

/-- A WR or RMW with LOCK = 0 ends the locks of its context on other targets (R417). -/
def seqLockTo (s : State) (c tgt : Nat) (lock : Bool) : State :=
  let l := (s.ctx c).locked.filter (· != tgt)
  if lock || l.isEmpty then s
  else (l.foldl (seqFree c) s).setCtx c (fun x => { x with locked := x.locked.filter (· == tgt) })

/-- What a context holds of the lock of a target after a transaction of its WR or RMW. -/
def seqHold (s : State) (c tgt : Nat) (lock : Bool) : State :=
  s.setCtx c (fun x => { x with locked := x.locked.filter (· != tgt) ++ (if lock && tgt != 15 then [tgt] else []) })

/-- A write of a context to an address, with LOCK or not (R417): its reply. -/
def seqWrite (s : State) (c a : Nat) (v : Word) (lock : Bool) : Option Nat × State :=
  let tgt := targetOf s 1 a 0xF true
  let s := seqLockTo s c tgt lock
  match busAccess s 1 a (some v) 0xF (lock || otherLock s c tgt) with
  | (none, s) => (none, s)
  | (some (r, _), s) => (some r, seqHold s c tgt lock)

/-- A read of a context: the lock of its target stays as it is (R417, R418). -/
def seqRead (s : State) (a : Nat) (lock : Bool) : Option (Nat × Word) × State :=
  let tgt := targetOf s 1 a 0xF false
  let held := match s.mx.locks.find tgt with
    | some l => l.master == 1
    | none => false
  busAccess s 1 a none 0xF (lock || held)

/-- The writes of a COMMIT in order: offset and word (R425). -/
def commitWrites (x : SeqTxn) : List (Nat × Word) :=
  if x.f0 then
    let t := (x.tick + x.b.toNat) % 2 ^ 48
    [(0x02C, w32 t), (0x030, w32 (t / 2 ^ 32)), (0x028, 3)]
  else [(0x028, 1)]

/-- The context waits for the page's COMMIT_DONE or COMMIT_FAILED from its write of GO on (R425). -/
def commitAwait (s : State) (c p : Nat) (on : Bool) : State :=
  s.setCtx c (fun y => { y with wait := if on then .commit p else .none })

/-- The writes of a COMMIT, one locked sequence, until one is refused or waits (R425): the reply, how many writes were
taken, and the state. A sequence that a refusal ends leaves no lock. -/
def commitSeq (s : State) (c p n : Nat) (wait : Bool) : List (Nat × Word) → Option Nat × Nat × State
  | [] => (some rOk, n, s)
  | (ofs, v) :: rest =>
    let a := 0x40000000 + p * 4096 + ofs
    let go := wait && rest.isEmpty
    let s := if go then commitAwait s c p true else s
    match busAccess s 1 a (some v) 0xF (!rest.isEmpty || otherLock s c 8) with
    | (none, s) => (none, n, if go then commitAwait s c p false else s)
    | (some (r, _), s) =>
      if r = rOk then commitSeq s c p (n + 1) wait rest
      else (some r, n + 1, seqFree c (if go then commitAwait s c p false else s) 8)

/-- The access of a bus action is made, or tried: what the transaction then holds (R415 to R418, R425). -/
def seqAccess (s : State) (c : Nat) (x : SeqTxn) : SeqTxn × State :=
  let a := (actionTarget x.a).getD 0
  match x.op with
  | 0x01 =>
    let (r, s) := seqWrite s c a x.b x.f0
    ({ x with reply := r, writes := if r.isSome then 1 else 0 }, s)
  | 0x02 =>
    let mix := fun (d : Word) => mixWord d x.b2 x.b
    if 0 < x.tries then
      let (r, s) := seqWrite s c a (mix x.data) x.f0
      ({ x with reply := r, writes := if r.isSome then 1 else 0 }, s)
    else
      let tgt := targetOf s 1 a 0xF true
      let s := seqLockTo s c tgt x.f0
      match seqRead s a true with
      | (none, s) => (x, s)
      | (some (r, d), s) =>
        if r ≠ rOk then
          let s := if x.f0 then s else seqFree c s tgt
          ({ x with reply := some r }, seqHold s c tgt x.f0)
        else
          let (r, s) := seqWrite s c a (mix d) x.f0
          ({ x with reply := r, data := d, writes := if r.isSome then 1 else 0 }, s)
  | 0x10 =>
    match seqRead s a false with
    | (none, s) => (x, s)
    | (some (r, d), s) => ({ x with reply := some r, data := d }, s)
  | _ =>
    let (r, n, s) := commitSeq (seqLockTo s c 8 false) c (x.a % 1024) 0 x.f1 (commitWrites x)
    ({ x with reply := r, writes := n }, s)

/-- The target of a transaction's access. -/
def txnTarget (s : State) (x : SeqTxn) : Nat := targetOf s 1 (txnAddr x) 0xF (x.op != 0x10)

/-- A transaction that was issued earlier waits for the same target: transactions reach it in the order of issue (R415). -/
def seqBehind (s : State) (c : Nat) (x : SeqTxn) : Bool :=
  (List.range 8).any (fun d => d != c && (match (s.ctx d).txn with
    | some y => y.reply.isNone && !y.again && decide (y.order < x.order) && txnTarget s y == txnTarget s x
    | none => false))

/-- The transaction of a context is tried, in its turn. -/
def seqTry (s : State) (c : Nat) (x : SeqTxn) : State :=
  if seqBehind s c x then s
  else
    let (x, s) := seqAccess s c x
    s.setCtx c (fun y => { y with txn := y.txn.map (fun _ => x) })

/-- A transaction takes its place in the order of issue, and is tried. -/
def seqPut (s : State) (c : Nat) (x : SeqTxn) : State :=
  let x := { x with order := s.seq.issued }
  let s := { s with seq := { s.seq with issued := s.seq.issued + 1 } }
  seqTry (s.setCtx c (fun y => { y with txn := some x })) c x

/-- A bus action is issued. -/
def seqBus (s : State) (c : Nat) (x : Action) (b2 : Word) : State :=
  seqPut s c { op := x.op, f0 := x.f0, f1 := x.f1, a := x.a, b := x.b, b2 := b2, tick := seqTick s }

-- Actions without an access.

/-- WAIT_TICK (R420). -/
def seqWaitTick (s : State) (c : Nat) (x : Action) : State :=
  let n := seqTick s
  let t := x.b.toNat
  let s := if x.f0 && t != 0 then
      let h : Hold := { first := x.a % 512, last := x.a / 512, from_ := n + 1, to_ := n + t }
      { s with seq := { s.seq with holds := s.seq.holds ++ [h] } }
    else s
  let s := s.setF pgSeq (seqF F.seqCtxStatState c) 2
  seqAdv (s.setCtx c (fun y => { y with wait := .tick (n + 1 + t) })) c 1

/-- The moment of a WAIT_AT has passed: phase counts 256ths of the tick, from its tick event; once the next tick event has
come, every moment of the tick has passed, though SEQ's boundary is still to come (R422). -/
def momentPassed (s : State) (n phase : Nat) : Bool :=
  let now := seqTick s
  decide (n < now) || (n == now && decide (now < s.time.tick)) || (n == now && decide (100000 * phase ≤ (s.time.frc.toNat - s.time.tickC) * 768))

/-- WAIT_AT (R422). -/
def seqWaitAt (s : State) (c : Nat) (x : Action) (phase : Nat) : State :=
  let n := x.a * 2 ^ 32 + x.b.toNat
  if momentPassed s n phase then
    let s := event (s.bump pgSeq (seqF F.seqCtxCnt2Late c)) pgSeq F.seqEvtLate.lo
    if x.f0 then seqSkip s c 2 else seqAdv s c 2
  else
    let s := s.setF pgSeq (seqF F.seqCtxStatState c) 2
    seqAdv (s.setCtx c (fun y => { y with wait := .at_ n phase })) c 2

/-- WAIT_EVT (R424). -/
def seqWaitEvt (s : State) (c : Nat) (x : Action) : State :=
  let timed := x.b != 0
  let s := s.setF pgSeq (seqF F.seqCtxStatState c) 3
  seqAdv (s.setCtx c (fun y => { y with wait := .evt (x.a % 1024) (x.a / 1024 % 32) timed })) c 1

/-- The stack of a context takes a value, and DEPTH shows it. -/
def seqStack (s : State) (c : Nat) (l : List Nat) : State :=
  (s.setF pgSeq (seqF F.seqCtxStatDepth c) l.length).setCtx c (fun x => { x with stack := l })

/-- CALL (R419). -/
def seqCall (s : State) (c : Nat) (x : Action) : State :=
  let l := (s.ctx c).stack
  if 4 ≤ l.length then seqErr s c 2 else seqGoto (seqStack s c ((seqPc s c + 1) :: l)) c x.a

/-- RET (R419). -/
def seqRet (s : State) (c : Nat) : State :=
  match (s.ctx c).stack with
  | [] => seqErr s c 2
  | pc :: l => seqGoto (seqStack s c l) c pc

/-- SIGNAL (R426). -/
def seqSignal (s : State) (c : Nat) (x : Action) : State :=
  let s := attRaise s attSeq pgSeq 0x1E 13
  let s := if x.f0 then s
    else
      let (ok, s) := pushItem s (x.a % 1024) [w32 (c * 2 ^ 29 + seqTick s % 65536), x.b] false
      if ok then s else event s pgSeq F.seqEvtSigRefused.lo
  seqAdv s c 1

/-- END (Table 15.3). -/
def seqEnd (s : State) (c : Nat) : State :=
  let s := if s.is pgSeq (seqF F.seqCtxStatPending c) then (seqEnter s c).setF pgSeq (seqF F.seqCtxStatPending c) 0
    else (s.setF pgSeq (seqF F.seqCtxStatState c) 0).setCtx c (fun x => { x with wait := .none, released := none })
  event s pgSeq (8 + c)

/-- What an action in order does (R414). -/
def seqDo (s : State) (c : Nat) (x : Action) (b2 : Word) : State :=
  match x.op with
  | 0x00 => seqAdv s c 1
  | 0x08 => seqWaitTick s c x
  | 0x09 => seqWaitAt s c x (b2.toNat % 256)
  | 0x0A => seqWaitEvt s c x
  | 0x11 => seqGoto s c x.a
  | 0x12 => seqCall s c x
  | 0x13 => seqRet s c
  | 0x18 => seqSignal s c x
  | 0x3F => seqEnd s c
  | _ => seqBus s c x b2

/-- The engine issues the action of a context; it acts where the context is the one chosen and the action at its PC has
the opcode named, or is an error (R414, R415). -/
def seqIssue (s : State) (c op : Nat) : State :=
  if !s.live || !s.running pgSeq || memStalled s || seqNext s != some c then s
  else
    let s := s.signal pgSeq
    let pc := seqPc s c
    let x := actionAt s pc
    let s := if x.op = op ∨ (opRow x.op).isNone then fetched s pc (opWords x.op) else s
    match opRow x.op with
    | none => seqErr s c 1
    | some r =>
      if x.op ≠ op then s
      else if r.words = 2 ∧ pc = 262143 then seqErr s c 5
      else if actionOk s pc x r then seqDo s c x (if r.words = 2 then (actionAt s (pc + 1)).b else 0)
      else seqErr s c 1

-- Replies (R416, R423).

/-- A bus action has completed with OK, or failed with CONT = 1 (R416 to R418, R425). -/
def seqComplete (s : State) (c : Nat) (x : SeqTxn) (ok : Bool) : State :=
  match x.op with
  | 0x01 => seqAdv s c 1
  | 0x02 => seqAdv s c 2
  | 0x10 =>
    let half := if x.f0 then getBits x.data 31 16 else getBits x.data 15 0
    let m := getBits x.b 31 16
    if ok && (half &&& m) == (getBits x.b 15 0 &&& m) then seqAdv s c 1 else seqSkip s c 1
  | _ =>
    let s := if (s.ctx c).wait = .none then s else s.setF pgSeq (seqF F.seqCtxStatState c) 3
    seqAdv s c 1

/-- The reply of a transaction reaches its context (R416). -/
def seqDeliver (s : State) (c : Nat) (x : SeqTxn) (r : Nat) : State :=
  let s := s.setF pgSeq (seqF F.seqCtxReplyCode c) r
  let late := match (s.ctx c).released with
    | some t => decide (t < seqTick s)
    | none => false
  let s := if late then s.bumpBy pgSeq (seqF F.seqCtxCnt2Slip c) x.writes else s
  if r = rBusy ∧ x.tries < 4 ∧ !(s.ctx c).stopping ∧ !(s.ctx c).expired then
    s.setCtx c (fun y => { y with txn := some { x with again := true } })
  else
    let s := s.setCtx c (fun y => { y with txn := none })
    if (s.ctx c).stopping then seqIdle s c
    else if (s.ctx c).expired then seqErr s c 4
    else if r = rOk then seqComplete s c x true
    else if x.f1 && x.op != 0x19 then seqComplete s c x false
    else seqErr s c 3

/-- ACTION_REPLY: the reply of a context's outstanding transaction; an access not yet granted is tried (R416). One that a
stop awaits is handled whether SEQ still runs or not (R428, R431). -/
def seqReply (s : State) (c : Nat) : State :=
  if !s.live || !(s.running pgSeq || (s.ctx c).stopping) then s
  else
    match (s.ctx c).txn with
    | none => s
    | some x =>
      if x.again then s
      else
        match x.reply with
        | some r => seqDeliver s c x r
        | none =>
          let s := seqTry s c x
          match (s.ctx c).txn with
          | some x => match x.reply with
            | some r => seqDeliver s c x r
            | none => s
          | none => s

-- Releases.

/-- A timed wait ends: the watchdog restarts (R423, R429). -/
def seqReleaseTime (s : State) (c : Nat) : State :=
  let s := s.setF pgSeq (seqF F.seqCtxStatState c) 1
  s.setCtx c (fun x => { x with wait := .none, wdog := 0, released := some (seqTick s) })

/-- WAIT_TICK_RELEASE: SEQ's boundary that begins the tick has come (R420). -/
def seqTickRelease (s : State) (c : Nat) : State :=
  if !s.live || !s.running pgSeq then s
  else
    match (s.ctx c).wait with
    | .tick n => if n ≤ seqTick s then seqReleaseTime s c else s
    | _ => s

/-- WAIT_AT_RELEASE: the moment named has come (R422). -/
def seqAtRelease (s : State) (c : Nat) : State :=
  if !s.live || !s.running pgSeq then s
  else
    match (s.ctx c).wait with
    | .at_ n phase => if momentPassed s n phase then seqReleaseTime s c else s
    | _ => s

/-- WAIT_EVT_TIMEOUT: B µs without an occurrence (R424). -/
def seqEvtTimeout (s : State) (c : Nat) : State :=
  if !s.live || !s.running pgSeq then s
  else
    match (s.ctx c).wait with
    | .evt _ _ true => if seqState s c = 3 then seqRelease s c false else s
    | _ => s

/-- CONTEXT_WATCHDOG: the count has reached WDOG; the stop waits for an outstanding transaction (R428, R429). -/
def seqWatchdog (s : State) (c : Nat) : State :=
  let st := seqState s c
  if s.live && s.running pgSeq && (st == 1 || st == 3) && decide (s.act pgSeq (seqF F.seqCtxWdogTicks c) ≤ (s.ctx c).wdog)
  then (if seqOut s c then s.setCtx c (fun x => { x with expired := true }) else seqErr s c 4) else s

-- The boundary.

/-- A transaction that met BUSY_RETRY is repeated (R416). -/
def seqRepeat (s : State) (c : Nat) : State :=
  match (s.ctx c).txn with
  | some x =>
    if !x.again then s else seqPut s c { x with again := false, tries := x.tries + 1, reply := none, writes := 0 }
  | none => s

/-- The watchdog of a context counts a tick in RUN and WAIT_EVT (R429). -/
def seqCount (s : State) (c : Nat) : State :=
  if seqState s c = 1 ∨ seqState s c = 3 then s.setCtx c (fun x => { x with wdog := x.wdog + 1 }) else s

/-- One context at SEQ's boundary: EN = 0 stops it; otherwise a repeat, and the tick's trigger (R416, R427, R428). -/
def seqCtxBoundary (s : State) (c : Nat) : State :=
  if !s.actIs pgSeq (seqF F.seqCtxCtrlEn c) then (if seqState s c = 0 || (s.ctx c).stopping then s else seqStop s c)
  else
    let s := seqRepeat s c
    if s.act pgSeq (seqF F.seqCtxCfgTrigKind c) = 2 then seqTrigger s c else s

/-- SEQ's local tick boundary that begins a tick: the watchdogs count the tick that ends before a list is entered (R429).
Holds run out whether SEQ runs or not, and are kept while a packet of up to 24 ticks may still carry their samples (R194,
R421, R431). -/
def seqBoundary (s : State) (n : Nat) : State :=
  let s := { s with seq := { s.seq with holds := s.seq.holds.filter (fun h => decide (n ≤ h.to_ + 64)) } }
  let s := if s.running pgSeq then (List.range 8).foldl seqCount s else s
  let s := (List.range 8).foldl seqTakeAll s
  if s.running pgSeq then (List.range 8).foldl seqCtxBoundary s else s

end Sys2Proof.Machine
end

