-- ==== Sys2Proof/Machine/Boundary.lean ====
section
/-! DEFINITION. The local tick boundary of a block (R32, R33), the PG_TMO expiry, and faults that PG_FLT_FORCE
injects. -/

namespace Sys2Proof.Machine

-- Timeouts of a block (R12, R57).

/-- TIMEOUT_L2 of a block with the severity and reaction of PG_TMO.ACTION (R57). -/
def tmoRaise (s : State) (p : Nat) (ctx : Word) : State :=
  match s.act p F.tmoAction with
  | 1 =>
    let had := (s.arch.rstReq.find p).isSome
    let s := raiseSev s p 0 ctx true reactBlock
    if !had && (s.arch.rstReq.find p).isSome then { s with arch := { s.arch with rstReq := s.arch.rstReq.put p 2 } } else s
  | 2 => raiseSev s p 0 ctx true reactSubsys
  | _ => raise s p 0 ctx

/-- PG_TMO_EXPIRY: an operation that the block awaits has taken too long (R56, R57); the context is not stated (log 3). -/
def tmoExpiry (s : State) (p : Nat) : State :=
  if !s.live || !s.running p || !awaits s p then s
  else
    let (v, s) := s.fresh
    tmoRaise (s.setF p F.statWedged 1) p (v.extractLsb' 0 32)

/-- The number of a unit of a block. -/
def unitKey (p u : Nat) : Nat := p * 16 + u

/-- STALL_WATCHDOG_EXPIRY: the unit restarts the stalled operation from its start; TIMEOUT_L0 is reported once for an
operation that completes after two or more restarts (R12), and PARITY where its word comes from a FIFO with a parity
error (R456, log 5). -/
def stallRestart (s : State) (p u : Nat) (rep : CellReport) : State :=
  if !s.live || !s.running p then s
  else
    let n := s.arch.restarts.get 0 (unitKey p u) + 1
    if rep = .waits then { s with arch := { s.arch with restarts := s.arch.restarts.put (unitKey p u) n } }
    else
      let s := { s with arch := { s.arch with restarts := s.arch.restarts.del (unitKey p u) } }
      let s := match rep with
        | .parity fifo => raise s p 6 (fifo.zeroExtend 32)
        | _ => s
      if n < 2 then s
      else
        let (v, s) := s.fresh
        raise s p 4 (v.extractLsb' 0 32)

/-- UNIT_RETRY_LIMIT: the operation is abandoned and reported (R12). -/
def unitAbandon (s : State) (p u : Nat) (ctx : Word) : State :=
  if !s.live || !s.running p then s
  else raise { s with arch := { s.arch with restarts := s.arch.restarts.del (unitKey p u) } } p 5 ctx

-- Forced faults (R53).

/-- A fault injected into a page is handled as a detected one, with context 0xFFFF_FFFF (R53). -/
def forceFault (s : State) (p bit : Nat) : State :=
  let ctx : Word := 0xFFFFFFFF
  if bit = 0 then tmoRaise s p ctx
  else
    match pageKind p with
    | .drv => if 8 ≤ bit ∧ bit ≤ 10 then drvForced s (p - 0xA0) bit else raise s p bit ctx
    | .bst => if 8 ≤ bit then bstForced s (p - 0xB0) bit else raise s p bit ctx
    | .tile => if bit = F.tileFltEccUncorr.lo then raiseSev s p bit ctx true reactBlock else raise s p bit ctx
    | .red => redForced s bit ctx
    | .dev =>
      if bit = F.devFltTimeoutL3.lo then raiseSev s p bit ctx true reactSubsys
      else if bit = F.devFltClkLoss.lo then raiseSev (safeDrive s 0xFFFF 0xF) p bit ctx true reactDevice
      else raise s p bit ctx
    | _ => raise s p bit ctx

/-- The flags written to PG_FLT_FORCE set at the boundary (R53). -/
def forceFaults (s : State) (p : Nat) : State :=
  match s.arch.force.find p with
  | none => s
  | some w =>
    let s := { s with arch := { s.arch with force := s.arch.force.del p } }
    (bitList 32 w.toNat).foldl (fun s b => forceFault s p b) s

-- The boundary.

/-- Pages whose registers take effect at a block's boundary: its own, and the tables it owns. -/
def tablesOf (p : Nat) : List Nat :=
  if p = pgStrg then pagesFrom 0x30 0x38 else if p = pgQmg then pagesFrom 0x18 0x1C else [p]

/-- Live fields written since the boundary before take effect together (R33). -/
def liveTakes (s : State) (p : Nat) : State :=
  let mine := fun (k : Nat) => (tablesOf p).any (fun q => keyIn q k)
  { s with held := s.held.filter (fun e => !mine e.1) }

/-- Queues whose threshold word takes effect at QMG's boundary (R369). -/
def thrChanged (s : State) : List Nat :=
  (s.held.filter (fun e => decide (0x19 ≤ e.1 / 4096 ∧ e.1 / 4096 ≤ 0x1C) && e.1 % 16 == 8)).map
    (fun e => (e.1 / 4096 - 0x19) * 256 + e.1 % 4096 / 16)

/-- PG_STAT.RUN follows EN (R51). `idle`: DRAIN was set and the block reported IDLE before EN changes. -/
def runFollows (s : State) (p : Nat) (idle : Bool) : State :=
  let en := s.is p F.ctrlEn
  let run := s.running p
  if en && !run then blockStart (s.setF p F.statRun 1) p
  else if !en && run then (ceaseAll (blockStop (if idle then s else feedAbsent s p) p) p).setF p F.statRun 0
  else s

/-- Operations written since the boundary act, in the order written (R33, R59). -/
def actsTake (s : State) (p : Nat) : State :=
  let l := s.arch.acts.filter (fun e => keyIn p e.1)
  let s := { s with arch := { s.arch with acts := s.arch.acts.filter (fun e => !keyIn p e.1) } }
  l.foldl (fun s e => opAct s p (e.1 % 4096) e.2) s

/-- The commit that falls at the boundary that begins tick n (R62, R64). -/
def commitPoint (s : State) (p n : Nat) : State :=
  if !s.is p F.cmtPending then s
  else if !s.is p F.cmtAtTick then commitNow s p
  else if cmtTick s p < n then commitFail s p (cmtContext s p)
  else if cmtTick s p = n then commitNow s p
  else s

/-- The work of a block at the boundary that begins tick n; some of it whatever PG_CTRL.EN (R101, R161). -/
def boundaryWork (s : State) (p n : Nat) : State :=
  match pageKind p with
  | .strg => strgBoundary s n
  | .asrc => asrcBoundary s n
  | .latg => s
  | .flt => fltBoundary s
  | .dev => devBoundary s
  | .seq => seqBoundary s n
  | .mcg => mcgBoundary s
  | .mac => headsReach (macBoundary s (p - 0x20)) (p - 0x20)
  | .plk => macBoundary s 4
  | .qmg => s
  | .tile =>
    let s := bistTake s (p - 0x41)
    if s.running p then blockTick s p n else s
  | _ => if s.running p then blockTick s p n else s

/-- LATG's boundary that begins tick n while it resets (R16). -/
def latgAbsent (s : State) (n : Nat) : State := outputTakes (formDigest s (n - 1)) (n - 1)

/-- A boundary of a block that is not in reset (R33, R51, R53, R62). The stop of a port under R308 comes first; the
outputs of the tick that ends commit before an image is swapped in (R204, R248, R249). -/
def boundaryAct (s : State) (p n : Nat) : State :=
  let s := if audAutoDis s p then audDisable s p else s
  let idle := draining s p && !busy s p
  let thr := if p = pgQmg then thrChanged s else []
  let s := if p = pgQmg then qmgBoundary s else s
  let s := thr.foldl thrEval (liveTakes s p)
  let s := forceFaults (actsTake (runFollows s p idle) p) p
  if s.is p F.ctrlSrst then
    let s := resetBlock s p 1
    if p = pgLatg then latgAbsent s n else s
  else
    let s := if p = pgLatg then checkBegin (outputCommit s n) else s
    let s := commitPoint s p n
    let s := boundaryWork s p n
    if s.dev.phase = .on then progressed s p else s

/-- A boundary that falls during a block reset: a timed commit for its tick fails (R64); LATG's consumers find every
output absent (R16), and STRG's contexts miss the tick (R171). -/
def boundaryReset (s : State) (p n : Nat) : State :=
  let s := if s.is p F.cmtPending && s.is p F.cmtAtTick && decide (cmtTick s p ≤ n) then commitFail s p (cmtContext s p)
    else s
  let s := if pageKind p = .mac || pageKind p = .plk then stormWindow s (p - 0x20) else s
  let s := if p = pgStrg then strgBoundary s n else s
  if p = pgLatg then latgAbsent s n else s

/-- LOCAL_TICK_BOUNDARY: the tick event reaches a block, once a tick (R32). -/
def localBoundary (s : State) (p : Nat) : State :=
  let n := s.time.tick
  if !s.live || !s.time.ticking || !isRegPage p || s.arch.began.find p == some n then s
  else
    let s := { s with arch := { s.arch with began := s.arch.began.put p n } }
    if s.resetting p then boundaryReset s p n else boundaryAct s p n

end Sys2Proof.Machine
end

