-- ==== Sys2Proof/Machine/CmdArch.lean ====
section
/-! DEFINITION. Commands of the architecture: ticks, watchdogs, resets and clock losses (01). -/

namespace Sys2Proof.Machine

/-- TICK_EVENT: MCG begins the next tick, whatever its EN, and TSU records its time (R27, R31, R126, R157, R161). -/
def execTickEvent (frac : BitVec 17) (s : State) : Out := .next (s.whenLive (fun s => tickEventAct s frac.toNat))

/-- LOCAL_TICK_BOUNDARY: the tick begins at a block (R4, R32, R33, R37, and each chapter's boundary). -/
def execLocalTickBoundary (p : Page) (s : State) : Out := .next (localBoundary s p)

/-- STALL_WATCHDOG_EXPIRY: a stalled unit restarts its operation (R12, R456). -/
def execStallWatchdogExpiry (p : Page) (u : Fin 16) (rep : CellReport) (s : State) : Out :=
  .next (stallRestart s p u rep)

/-- UNIT_RETRY_LIMIT: a unit abandons its operation (R12). -/
def execUnitRetryLimit (p : Page) (u : Fin 16) (ctx : Word) (s : State) : Out := .next (unitAbandon s p u ctx)

/-- BLOCK_RESET: a block reset that was asked for starts (R14, R15, R16, R65). -/
def execBlockReset (p : Page) (s : State) : Out :=
  .next (s.whenLive (fun s => match s.arch.rstReq.find p with
    | some cause => resetBlock s p cause
    | none => s))

/-- BLOCK_RESET_DONE: the reset of a block completes (R15). -/
def execBlockResetDone (p : Page) (s : State) : Out :=
  .next (s.whenLive (fun s => if s.resetting p then resetEnd s p else s))

/-- SUBSYSTEM_WATCHDOG_EXPIRY (R17, R18, R100, R473). -/
def execSubsystemWatchdogExpiry (n : Fin 16) (s : State) : Out := .next (subsysExpire s n)

/-- LIVENESS_TOKEN: FLT sends the device watchdog a token (R19). -/
def execLivenessToken (s : State) : Out := .next (sendToken s)

/-- DEVICE_WATCHDOG_EXPIRY (R19, R474, R475, R522). -/
def execDeviceWatchdogExpiry (s : State) : Out := .next (deviceExpire s)

/-- REFCLK_LOSS (R28, R333). -/
def execRefclkLoss (s : State) : Out := .next (refclkLost s)

/-- PLL_LOCK_LOSS (R28, R517). -/
def execPllLockLoss (pll : Pll) (s : State) : Out := .next (pllLost s pll)

end Sys2Proof.Machine
end

