-- ==== Sys2Proof/Machine/CmdAud.lean ====
section
/-! DEFINITION. Commands of the audio ports (10). -/

namespace Sys2Proof.Machine

/-- TDM_FRAME_RECEIVE (R297, R298, R300, R301, R304, R305). -/
def execTdmFrameReceive (n : Fin 16) (w : SerialFrame) (s : State) : Out := .next (s.whenLive (fun s => tdmReceive s n w))

/-- MISPLACED_FRAME_START (R300, R305, R307). -/
def execMisplacedFrameStart (n : Fin 16) (s : State) : Out := .next (s.whenLive (fun s => tdmMisplaced s n))

/-- TDM_CLOCK_LOSS (R300, R305, R307). -/
def execTdmClockLoss (n : Fin 16) (s : State) : Out := .next (s.whenLive (fun s => tdmClockLoss s n))

/-- TDM_FRAME_TRANSMIT (R297, R299, R301, R306, R309). -/
def execTdmFrameTransmit (x : TdmStart) (s : State) : Out :=
  .next (s.whenLive (fun s => tdmTransmit s x.n x.cyc.toNat))

/-- AES3_SUBFRAME (R305, R311 to R313, R315). -/
def execAes3Subframe (n : Fin 4) (pre : Preamble) (bits : BitVec 28) (biphase : Bool) (s : State) : Out :=
  .next (s.whenLive (fun s => aesSubframe s n pre bits biphase))

/-- AES3_LOCK (R307, R311, R468). -/
def execAes3Lock (n : Fin 4) (hz : BitVec 18) (s : State) : Out := .next (s.whenLive (fun s => aesLock s n hz.toNat))

/-- AES3_LOCK_LOSS (R305, R307, R311). -/
def execAes3LockLoss (n : Fin 4) (s : State) : Out := .next (s.whenLive (fun s => aesUnlock s n))

/-- AES3_FRAME_TRANSMIT (R306, R309, R316, R317). -/
def execAes3FrameTransmit (x : AesStart) (s : State) : Out :=
  .next (s.whenLive (fun s => aesTransmit s x.n x.cyc.toNat))

/-- ASRC_ENABLE: the word with EN of an ASRC channel is written (R319, R320). -/
def execAsrcEnable (m : Master) (ch : Fin 64) (v : Word) (s : State) : Out :=
  .next (doRegWrite s m pgAsrc (0x104 + 16 * ch) v)

/-- ASRC_SETTLED (R320). -/
def execAsrcSettled (ch : Fin 64) (ratio : BitVec 24) (s : State) : Out := .next (s.whenLive (fun s => asrcSettle s ch ratio))

/-- ASRC_SOURCE_LOSS (R320). -/
def execAsrcSourceLoss (ch : Fin 64) (s : State) : Out := .next (s.whenLive (fun s => asrcLose s ch))

end Sys2Proof.Machine
end

