-- ==== Sys2Proof/Machine/CmdDev.lean ====
section
/-! DEFINITION. Commands of the Device subsystem: supplies, resets, start-up, freeze, JTAG, life cycle, tamper (20). -/

namespace Sys2Proof.Machine

/-- VAUX_APPLY (R515, R517). -/
def execVauxApply (s : State) : Out := .next (vauxOn s)

/-- VAUX_REMOVE (R514, R547). -/
def execVauxRemove (s : State) : Out := .next (vauxOff s)

/-- SUPPLY_OUT_OF_RANGE: a core supply leaves its range, and the core is reset (R492, R515, R517, R529, R547). -/
def execSupplyOutOfRange (rail : Supply) (s : State) : Out := .next (supplyLost s rail)

/-- RESET_ASSERT: RESET_N is low (R492, R516, R517, R529, R562). -/
def execResetAssert (s : State) : Out := .next (deviceReset s 2)

/-- START_UP: t0; the straps as sampled, and the life-cycle state the fuses match, if any (R481, R516 to R519, R536,
R537). -/
def execStartUp (mode : BitVec 3) (rolePref : Bool) (fuses : Option LifeCycle) (s : State) : Out :=
  .next (startUp s mode rolePref fuses)

/-- PLL_LOCK: every PLL has locked, and the core domains are released (R392, R400, R476, R519, R522). -/
def execPllLock (s : State) : Out := .next (pllsLocked s)

/-- DEVICE_READY: start-up is complete, with the failures of the start-up tile BIST (R519, R522). -/
def execDeviceReady (bistFail : BitVec 48) (s : State) : Out := .next (deviceReadyAct s bistFail)

/-- DEV_RUN: DEV_RUN.RUN = 1 is written (R100, R519, R521). -/
def execDevRun (m : Master) (s : State) : Out := .next (doRegWrite s m pgDev 0x044 1)

/-- SWRST: DEV_CTRL is written with SWRST = 1 and a KEY (R538). -/
def execSwrst (m : Master) (key : BitVec 16) (s : State) : Out :=
  .next (doRegWrite s m pgDev 0x048 (w32 (key.toNat * 65536 + 1)))

/-- FREEZE_PIN: FREEZE_N has been low for 4 cycles (R523, R524). -/
def execFreezePin (s : State) : Out := .next (freezePinLow s)

/-- FREEZE_REQUEST: CLK_FRZ.REQ = 1 is written (R523, R524). -/
def execFreezeRequest (m : Master) (s : State) : Out := .next (doRegWrite s m pgClk 0x044 1)

/-- FREEZE_STOP: every domain has stopped (R36, R477, R524 to R526). -/
def execFreezeStop (s : State) : Out := .next (freezeHold s)

/-- THAW: DBG_THAW.GO = 1 is written; `pinLow` is the level of FREEZE_N (R477, R528, R529, R540). -/
def execThaw (m : Master) (pinLow : Bool) (s : State) : Out :=
  .next (if s.dev.phase = .vauxOff then s
    else doRegWrite { s with dev := { s.dev with frzPin := pinLow } } m pgDbg 0x048 1)

/-- SNAP_DATA_READ: a read of DBG_SNAP_DATA (R203, R527). -/
def execSnapDataRead (m : Master) (s : State) : Out := .next (doRegRead s m pgDbg 0x068)

/-- DBG_ACC may be selected and makes accesses (R533, R534, R540). -/
def dbgMay (s : State) : Bool :=
  s.answers && s.running pgDbg && (match lcState s with
    | 2 => s.actIs pgDbg F.dbgCfgJtagEn
    | 4 => false
    | _ => true)

/-- An access of DBG_ACC is made, or waits (R532). -/
def dbgTry (s : State) (addr : Word) (wr : Option Word) : State :=
  match busAccess s 6 addr.toNat wr 0xF false with
  | (some (r, d), s) => { s with dev := { s.dev with dbgRuns := none, dbgAcc := (r, addr, if r = rOk then d else 0) } }
  | (none, s) => { s with dev := { s.dev with dbgRuns := some wr, dbgAcc := (0xF, addr, 0) } }

/-- The access that still runs goes on. -/
def dbgGoOn (s : State) : State :=
  match s.dev.dbgRuns with
  | some wr => dbgTry s s.dev.dbgAcc.2.1 wr
  | none => s

/-- DBG_ACCESS: Update-DR with OP, ADDR and DATA under instruction DBG_ACC (R532, R540). -/
def execDbgAccess (op : BitVec 4) (addr data : Word) (s : State) : Out :=
  .next (
    if s.dev.phase = .vauxOff then s
    else
      let s := { s with dev := { s.dev with tap := if lcState s = 4 then 0x1F else 0x10, extest := false } }
      if op = 0 then (if dbgMay s then dbgGoOn s else s)
      else if !dbgMay s || !(op == 1 || op == 2) then
        { s with dev := { s.dev with dbgRuns := none, dbgAcc := (rDecode, addr, 0) } }
      else
        let s := dbgGoOn s
        if s.dev.dbgRuns.isSome then s else dbgTry s addr (if op = 2 then some data else none))

/-- EXTEST is selected (R530, R531). -/
def execExtest (s : State) : Out := .next (tapSelect s 0x00)

/-- SAMPLE/PRELOAD is selected (R530). -/
def execSamplePreload (s : State) : Out := .next (tapSelect s 0x01)

/-- IDCODE is selected (R530). -/
def execIdcode (s : State) : Out := .next (tapSelect s 0x02)

/-- BYPASS is selected (R530). -/
def execBypass (s : State) : Out := .next (tapSelect s 0x1F)

/-- TAP_RESET: TRST_N is low; IDCODE is selected (R530). -/
def execTapReset (s : State) : Out := .next (tapSelect s 0x02)

/-- LC_ARM: DEV_LC_ARM is written (R535). -/
def execLcArm (m : Master) (v : Word) (s : State) : Out := .next (doRegWrite s m pgDev 0x068 v)

/-- LC_ARM_LAPSE: 1 ms has passed since the arming (R535); in a freeze the timer holds its count (R36). -/
def execLcArmLapse (s : State) : Out :=
  .next (if s.dev.phase = .on ∧ !s.dev.frozen then { s with dev := { s.dev with lcArmed := none } } else s)

/-- LC_GO: DEV_LC_CTRL.GO = 1 is written (R401, R535). -/
def execLcGo (m : Master) (s : State) : Out := .next (doRegWrite s m pgDev 0x06C 1)

/-- LC_DONE: the fuses are programmed (R535, R536). -/
def execLcDone (s : State) : Out := .next (lcDoneAct s)

/-- TAMPER_ASSERT: a tamper pin has been low for 100 cycles (R401, R529, R537). -/
def execTamperAssert (pin : Fin 2) (s : State) : Out := .next (tamperLow s pin)

/-- TAMPER_RELEASE: both tamper pins are high (R468, R537). -/
def execTamperRelease (s : State) : Out := .next (tamperHigh s)

end Sys2Proof.Machine
end

