-- ==== Sys2Proof/Machine/CmdFlt.lean ====
section
/-! DEFINITION. Commands of the fault collector (17). -/

namespace Sys2Proof.Machine

/-- FLT accepts messages: it works, and no reset sequence runs (R463, R474, R477). -/
def fltTakes (s : State) : Bool := s.live && s.running pgFlt

/-- FAULT_MESSAGE_ACCEPT: FLT takes the RAISE that is next (R17, R333, R341, R354, R445, R454 to R463, R469 to R471,
R490). -/
def execFaultMessageAccept (s : State) : Out := .next (if fltTakes s then acceptNext s else s)

/-- CEASE: FLT takes the CEASE that is next (R465, R467). -/
def execCease (s : State) : Out := .next (if fltTakes s then ceaseNext s else s)

/-- SHADOW_END (R470, R472). -/
def execShadowEnd (s : State) : Out := .next (if fltTakes s then shadowEnd s else s)

/-- RECORD_POP: FLT_CTRL.POP = 1 is written (R465, R466). -/
def execRecordPop (m : Master) (s : State) : Out := .next (doRegWrite s m pgFlt 0x054 1)

/-- CLEAR_ALL: FLT_CTRL.CLEAR_ALL = 1 is written (R465, R466). -/
def execClearAll (m : Master) (s : State) : Out := .next (doRegWrite s m pgFlt 0x054 2)

/-- FIRST_CLR: FLT_CTRL.FIRST_CLR = 1 is written (R464). -/
def execFirstClr (m : Master) (s : State) : Out := .next (doRegWrite s m pgFlt 0x054 4)

/-- OUT_RELEASE: FLT_SAFE_CTRL.OUT_RELEASE = 1 is written (R309, R335, R458). -/
def execOutRelease (m : Master) (s : State) : Out := .next (doRegWrite s m pgFlt 0x0B0 0x00020000)

/-- OUT_SET: FLT_SAFE_CTRL.OUT_SET = 1 is written (R458). -/
def execOutSet (m : Master) (s : State) : Out := .next (doRegWrite s m pgFlt 0x0B0 0x00010000)

/-- DRV_RELEASE: bits of FLT_SAFE_CTRL.DRV_RELEASE are written (R333, R459). -/
def execDrvRelease (m : Master) (mask : BitVec 16) (s : State) : Out :=
  .next (doRegWrite s m pgFlt 0x0B0 (w32 mask.toNat))

/-- DEVICE_RESET_ASSERT: 83.3 µs into the sequence of Table 17.3 the core goes into reset (R474). -/
def execDeviceResetAssert (s : State) : Out :=
  .next (match s.arch.resetSeq with
    | some cause => deviceReset s cause
    | none => s)

end Sys2Proof.Machine
end

