-- ==== Sys2Proof/Machine/HifRun.lean ====
section
/-! DEFINITION. The host link: frames, deferral, replies, and the network channel (16). -/

namespace Sys2Proof.Machine

-- CRC-16.

/-- One bit of the CRC-16. -/
def crc16Bit (c : BitVec 16) : BitVec 16 := if c.getLsbD 15 then (c <<< 1) ^^^ 0x1021 else c <<< 1

/-- One byte of the CRC-16. -/
def crc16Byte (c : BitVec 16) (b : Byte) : BitVec 16 :=
  crc16Bit (crc16Bit (crc16Bit (crc16Bit (crc16Bit (crc16Bit (crc16Bit (crc16Bit
    (c ^^^ (b.zeroExtend 16 <<< 8)))))))))

/-- The CRC-16 of the host link (R435). -/
def crc16 (l : List Byte) : BitVec 16 := l.foldl crc16Byte 0xFFFF

/-- Words as bytes, most significant first (R433). -/
def wordsAsBytes (l : List Word) : List Byte := l.flatMap (fun w => bytesBE 4 w.toNat)

-- The lines (R433): for each HQ_CLK cycle HQ_IO3 to HQ_IO0, most significant first.

/-- The nibbles of a byte on the four lines (R433). -/
def laneNibbles (b : Byte) : List (BitVec 4) := [b.extractLsb' 4 4, b.extractLsb' 0 4]

/-- The bits of a byte, most significant first. -/
def laneBits (b : Byte) : List Bool := (List.range 8).map (fun i => b.getLsbD (7 - i))

/-- Bytes as the host sends them in a width: in single-lane width on HQ_IO0, the other lines left to their pull-ups
(R433, Table 21.6). -/
def laneSend (quad : Bool) (l : List Byte) : List (BitVec 4) :=
  l.flatMap (fun b => if quad then laneNibbles b else (laneBits b).map (fun x => if x then 0xF else 0xE))

/-- Bytes as the device drives them: in single-lane width on HQ_IO1 (R433). -/
def laneDrive (quad : Bool) (l : List Byte) : List (BitVec 4) :=
  l.flatMap (fun b => if quad then laneNibbles b else (laneBits b).map (fun x => if x then 0xF else 0xD))

/-- A byte of eight samples of HQ_IO0. -/
def laneByte (l : List (BitVec 4)) : Byte := BitVec.ofNat 8 (l.foldl (fun n x => 2 * n + (if x.getLsbD 0 then 1 else 0)) 0)

/-- The bytes that the device reads from the lines in the width in force (R433, R442). -/
def laneTake : Bool → List (BitVec 4) → List Byte
  | true, h :: l :: r => (h ++ l) :: laneTake true r
  | false, a :: b :: c :: d :: e :: f :: g :: h :: r => laneByte [a, b, c, d, e, f, g, h] :: laneTake false r
  | _, _ => []

-- Commands (Table 16.1).

abbrev cmdRead : Nat := 0x0B
abbrev cmdWrite : Nat := 0x02
abbrev cmdPoll : Nat := 0x05
abbrev cmdBurstRead : Nat := 0x3B
abbrev cmdBurstWrite : Nat := 0x32

def knownCmd (c : Nat) : Bool := [cmdRead, cmdWrite, cmdPoll, cmdBurstRead, cmdBurstWrite].contains c
def isWriteCmd (c : Nat) : Bool := c == cmdWrite || c == cmdBurstWrite
def isReadCmd (c : Nat) : Bool := c == cmdRead || c == cmdBurstRead
def isBurstCmd (c : Nat) : Bool := c == cmdBurstRead || c == cmdBurstWrite

/-- The byte address of word i of a command. -/
def HostCmd.at_ (c : HostCmd) (i : Nat) : Nat := (c.addr + w32 (4 * i)).toNat

/-- A burst lies within one target (R436). -/
def HostCmd.inTarget (c : HostCmd) : Bool :=
  (List.range c.n).all (fun i => busTarget (c.at_ i) == busTarget (c.at_ 0))

/-- The last two checks of R437: the REPLY of a refusal. -/
def cmdRefusal (c : HostCmd) : Option Nat :=
  if !knownCmd c.cmd then some rDecode
  else if c.cmd = cmdPoll ∧ c.len ≠ 0 then some rLength
  else if isBurstCmd c.cmd ∧ !c.inTarget then some rLength
  else none

-- STATUS and ATTN_DETAIL.

/-- STATUS with a REPLY (Table 16.4). -/
def statusWord (s : State) (reply : Nat) : Nat :=
  let bits := s.rd pgHif F.hifAttnBits * 16
  let att := bits + (if s.flt.recs.isEmpty then 0 else 2048)
  s.hif.epoch * 8192 + (if att = 0 then 0 else 4096) + att + reply

/-- ATTN_DETAIL (Table 16.6). -/
def attnDetail (s : State) : Word := regWord s 0 pgHif 0x054

/-- A status poll restarts EVENTS (R446). -/
def pollDone (s : State) : State :=
  s.setReg pgHif F.hifAttnDetail.ofs (setBits (s.reg pgHif F.hifAttnDetail.ofs) 7 0 0)

-- Words of a command.

/-- A beat of a burst. The lock is met where a piece of at most 16 beats begins, and ends when the last beat has completed
(R403, R407, R436). -/
def burstBeat (s : State) (c : HostCmd) (i : Nat) (wr : Option Word) : Option (Nat × Word) × State :=
  let a := c.at_ i
  let tgt := targetOf s 0 a 0xF wr.isSome
  if mustWait s 0 tgt then (none, s)
  else
    let s := pathsSwitch s 0 tgt
    let s := if i % 16 ≠ 0 ∨ resumes s 0 a then s
      else if lockless s 0 tgt a then { s with hif := { s.hif with broken := false } }
      else
        let (b, s) := lockUse s 0 tgt true (decide (i + 16 < c.n))
        { s with hif := { s.hif with broken := b } }
    let last := i + 1 = c.n
    let (r, s) := serveAs (if last then lockLast s 0 tgt else s) 0 tgt a wr 0xF s.hif.broken
    (r, if last && r.isSome then lockDone s 0 tgt else s)

/-- Word i of a command of a channel: its reply code and data, or none while it waits (R436, R451). -/
def hifWord (s : State) (net : Bool) (c : HostCmd) (i : Nat) : Option (Nat × Word) × State :=
  if (s.qport 0).stallRes.isSome && s.hif.popNet != net then (none, s)
  else
    let wr := if isWriteCmd c.cmd then some (nth 0 c.data i) else none
    let (r, s) := if isBurstCmd c.cmd then burstBeat s c i wr else busAccess s 0 (c.at_ i) wr 0xF false
    let s := if (s.qport 0).stall.isSome ∧ r.isNone then { s with hif := { s.hif with popNet := net } } else s
    (r, s)

/-- The words of a command in turn, as far as they complete: the words done, and the state. -/
def hifWords (net : Bool) (c : HostCmd) : Nat → List (Nat × Word) → State → List (Nat × Word) × State
  | 0, done, s => (done, s)
  | k + 1, done, s =>
    match hifWord s net c done.length with
    | (none, s) => (done, s)
    | (some r, s) => hifWords net c k (done ++ [r]) s

/-- The words of a command that are not done. -/
def hifRest (s : State) (net : Bool) (c : HostCmd) (done : List (Nat × Word)) : List (Nat × Word) × State :=
  hifWords net c (c.n - done.length) done s

/-- The combined reply of a command (R67, R440). -/
def combined (done : List (Nat × Word)) : Nat :=
  match done.find? (fun r => r.1 != 0) with
  | none => rOk
  | some r => if done.all (fun r => r.1 != 0) then r.1 else rPartial

/-- The data words of a reply: a word that failed reads 0 (R434, R440). -/
def replyData (c : HostCmd) (done : List (Nat × Word)) : List Word :=
  if isReadCmd c.cmd then done.map (fun r => if r.1 = 0 then r.2 else 0) else []

-- QSPI frames.

/-- The QSPI reply: STATUS at the reply point, the data and the CRC-16 (R434, R443). -/
def hifReply (s : State) (reply : Nat) (data : List Word) : State :=
  let st := statusWord s reply
  let crc := crc16 (bytesBE 2 st ++ wordsAsBytes data)
  let s := s.setF pgHif F.hifStatLastReply reply
  { s with hif := { s.hif with reply := some (st :: data.map BitVec.toNat ++ [crc.toNat]) } }

/-- The lines as the last reply drives them, one value for each HQ_CLK cycle: released where none was driven (R433, R434,
R562). -/
def hqLines (s : State) : List (BitVec 4) :=
  match s.hif.reply with
  | none => []
  | some l =>
    let body := (l.drop 1).dropLast
    laneDrive (s.is pgHif F.hifStatQuad)
      (bytesBE 2 (nth 0 l 0) ++ body.flatMap (fun w => bytesBE 4 w) ++ bytesBE 2 (nth 0 l.reverse 0))

/-- The lane width changes. -/
def hifWidth (s : State) (quad : Bool) : State :=
  let s := s.setB pgHif F.hifStatQuad quad
  { s with hif := { s.hif with quadNext := none, fails := 0 } }

/-- HQ_CS_N falls: a committed change of the width takes effect, and no reply is driven yet (R442). -/
def hifSelect (s : State) : State :=
  let s := match s.hif.quadNext with
    | some q => hifWidth s q
    | none => s
  { s with hif := { s.hif with reply := none } }

/-- A frame fails; the fourth failure in a row in quad width ends that width (R442). -/
def hifFail (s : State) : State :=
  if !s.is pgHif F.hifStatQuad then s
  else
    let n := s.hif.fails + 1
    if n < 4 ∨ !s.actIs pgHif F.hifCfgFallback then { s with hif := { s.hif with fails := n } }
    else
      let s := s.setF pgHif F.hifCfgQuad 0
      let k := keyOf pgHif F.hifCfgQuad.ofs
      let s := match s.shadow.find k with
        | some w => { s with shadow := s.shadow.put k (w &&& ~~~1) }
        | none => s
      eventF { s with hif := { s.hif with fails := 0, quadNext := some false } } pgHif F.hifEvtFallback

/-- A frame discarded under the first two checks of R437. -/
def hifDiscard (s : State) : State := hifFail (s.bump pgHif F.hifCntFrameCount)

/-- The deferred command and its held result leave HIF. -/
def hifDrop (s : State) : State :=
  let s := ((s.setF pgHif F.hifStatDeferred 0).setF pgHif F.hifStatDone 0).setF pgHif F.hifStatCmd 0
  { s with hif := { s.hif with deferred := none, done := [], complete := false } }

/-- A command is deferred with the words done so far (R438). -/
def hifDefer (s : State) (c : HostCmd) (done : List (Nat × Word)) : State :=
  let s := ((s.setF pgHif F.hifStatDeferred 1).setF pgHif F.hifStatDone 0).setF pgHif F.hifStatCmd c.cmd
  let s := s.bump pgHif F.hifCntDeferDeferred
  hifReply { s with hif := { s.hif with deferred := some c, done := done, complete := false } } rBusy []

/-- The reply of an executed command. -/
def hifAnswer (s : State) (c : HostCmd) (done : List (Nat × Word)) : State :=
  let r := combined done
  hifReply s r (if r = rBusy then [] else replyData c done)

/-- A command that has passed every check is executed (R438, R439). -/
def hifExec (s : State) (c : HostCmd) (late : Bool) : State :=
  if c.cmd = cmdPoll then
    let d := attnDetail s
    hifReply (pollDone s) rOk [d]
  else
    match s.hif.deferred with
    | some d =>
      if d.cmd = c.cmd ∧ d.addr = c.addr ∧ d.len = c.len ∧ d.crc = c.crc ∧ s.hif.complete then
        let done := s.hif.done
        hifAnswer (hifDrop s) d done
      else hifReply s rBusy []
    | none =>
      let (done, s) := hifRest s false c []
      if late ∨ done.length < c.n then hifDefer s c done else hifAnswer s c done

/-- The bytes that the host CRC covers (R435). -/
def frameBytes (cmd : Nat) (f : HostFrame) : List Byte :=
  bytesBE 1 cmd ++ bytesBE 4 f.addr.toNat ++ [f.len] ++ wordsAsBytes f.data

/-- The bits of a frame, with its CRC-16 (R434). -/
def frameSent (cmd : Nat) (f : HostFrame) : List Byte := frameBytes cmd f ++ bytesBE 2 f.crc.toNat

/-- The command of a frame. -/
def cmdOf (cmd : Nat) (f : HostFrame) : HostCmd :=
  { cmd := cmd, addr := f.addr, n := f.len.toNat + 1, len := f.len.toNat, data := f.data, crc := f.crc.toNat }

/-- Words of write data that a frame of a command carries (R434, R437). -/
def wordsDue (cmd : Nat) (f : HostFrame) : Nat := if isWriteCmd cmd then f.len.toNat + 1 else 0

/-- The bytes that complete a frame of CMD and LEN (R434, R437). -/
def bytesDue (cmd len : Nat) : Nat := 8 + (if isWriteCmd cmd then 4 * (len + 1) else 0)

/-- The command and the frame that received bytes spell; none where they end before the CRC-16 is complete (R434,
R437). -/
def frameRead (quad late : Bool) (l : List Byte) : Option (Nat × HostFrame) :=
  let cmd := beAt l 0 1
  let n := bytesDue cmd (beAt l 5 1)
  if l.length < n ∨ l.length < 6 then none
  else some (cmd, { addr := w32 (beAt l 1 4), len := nth 0 l 5, data := wordsBE ((l.take (n - 2)).drop 6),
                    crc := BitVec.ofNat 16 (beAt l (n - 2) 2), late := late, quad := quad })

/-- A frame as the device receives it in the width in force (R433, R442). -/
def hostIn (s : State) (cmd : Nat) (f : HostFrame) : Option (Nat × HostFrame) :=
  let w := s.is pgHif F.hifStatQuad
  frameRead w f.late (laneTake w (laneSend f.quad (frameSent cmd f)))

/-- A complete frame is checked, then executed, deferred or refused (R437). -/
def frameTaken (s : State) (cmd : Nat) (f : HostFrame) : State :=
  if crc16 (frameBytes cmd f) ≠ f.crc then hifReply (hifFail (s.bump pgHif F.hifCntCrcCount)) rCrc []
  else
    let s := { s with hif := { s.hif with fails := 0 } }
    let c := cmdOf cmd f
    match cmdRefusal c with
    | some r => hifReply (if r = rDecode then s.bump pgHif F.hifCntFrameCount else s) r []
    | none => hifExec s c f.late

/-- A QSPI frame (R433 to R442). While the core is not released, or HIF resets, no reply is driven (R562). -/
def hostFrame (s : State) (cmd : Nat) (f : HostFrame) : State :=
  if !s.answers then s
  else if s.resetting pgHif then { s with hif := { s.hif with reply := none } }
  else
    let s := hifSelect (s.signal pgHif)
    match hostIn s cmd f with
    | none => hifDiscard s
    | some (k, g) => frameTaken s k g

/-- A frame ends, or times out, before it is complete (R437). -/
def frameLost (s : State) : State :=
  if !s.answers || s.resetting pgHif then s else hifDiscard (hifSelect s)

/-- DEFERRED_COMPLETE: the words left of the deferred command are done (R438). -/
def deferredDone (s : State) : State :=
  if !s.answers then s
  else
    match s.hif.deferred with
    | none => s
    | some c =>
      if s.hif.complete then s
      else
        let (done, s) := hifRest s false c s.hif.done
        let all := c.n ≤ done.length
        let s := { s with hif := { s.hif with done := done, complete := all } }
        if all then s.setF pgHif F.hifStatDone 1 else s

/-- HOLD_TIMEOUT: a held result is discarded (R439). -/
def holdExpire (s : State) : State :=
  if !s.answers || s.hif.deferred.isNone || !s.hif.complete then s
  else eventF ((hifDrop s).bump pgHif F.hifCntDeferDiscarded) pgHif F.hifEvtDiscard

-- The network channel (R448 to R452).

/-- The key of HIF_NET.KEY_SLOT (R449). -/
def netKey (s : State) : List Byte :=
  (List.range 32).map (fun i => Memory.read s.mem (bankBase 7 + 32 * s.act pgHif F.hifNetKeySlot + i))

/-- The tail of a frame: the first 16 bytes of its HMAC (R449). -/
def netTail (s : State) (body : List Byte) : List Byte := (hmac (netKey s) body).take 16

/-- The last accepted counter L (R450). -/
def netL (s : State) : Nat := s.rd pgHif F.hifNetCtrHiL * 2 ^ 32 + s.rd pgHif F.hifNetCtrLoL

/-- The command of a request's payload (R448). -/
def netCmd (pay : List Byte) : HostCmd :=
  { cmd := beAt pay 0 1, addr := w32 (beAt pay 1 4), len := beAt pay 5 1, n := beAt pay 5 1 + 1,
    data := (wordsBE (pay.drop 6)).take (beAt pay 5 1 + 1) }

/-- PAYLOAD_LEN and LEN agree with R448. -/
def netLength (h : AuxHdr) (pay : List Byte) (c : HostCmd) : Bool :=
  h.payLen == pay.length && decide (6 ≤ pay.length)
    && (if isWriteCmd c.cmd then decide (c.len ≤ 253) && pay.length == 6 + 4 * c.n
        else if isReadCmd c.cmd then decide (c.len ≤ 254) && pay.length == 6
        else if c.cmd = cmdPoll then pay.length == 6
        else true)

/-- A reply frame goes to the source of its request (R452). -/
def netReply (s : State) (q src : Nat) (header : List Byte) (reply : Nat) (data : List Word) : State :=
  let h := auxParse header
  let st := if reply = rAuth then rAuth else statusWord s reply
  let pay := bytesBE 2 st ++ wordsAsBytes data
  let raw := auxBytes {
    type := tControl, ashOk := s.actIs pgStrg F.strgCfgAshAccept, node := h.node, stream := h.stream, tick := s.time.tick,
    payLen := pay.length, hi := h.hi, lo := h.lo }
  let tail := if s.is pgSec F.secStatKeysUsable then netTail s (raw ++ pay) else List.replicate 16 0
  let f := auxOnPort s q src false (raw ++ pay ++ tail)
  let s := if reply = rAuth then s else s.bump pgHif F.hifCntNetAccepted
  let s := { s with hif := { s.hif with netReply := f } }
  offer s (2 ^ q) (fun _ => { express := false, rank := 5, bytes := f })

/-- A request fails a check of R450. -/
def netRefuse (s : State) (q src : Nat) (header : List Byte) (reply : Nat) : State :=
  netReply (eventF s pgHif F.hifEvtAuthFail) q src header reply []

/-- A CONTROL frame reaches HIF (R448, R450, R451). -/
def netRequest (s : State) (q src : Nat) (header pay tail : List Byte) : State :=
  if !s.live || s.resetting pgHif then s
  else if !s.actIs pgHif F.hifNetNetEn then s.bump pgHif F.hifCntNetDropped
  else
    let h := auxParse header
    let cnt := h.hi.toNat * 2 ^ 32 + h.lo.toNat
    let s := if s.mx.wiping.isSome then s else eccReads s (inWords (bankBase 7 + 32 * s.act pgHif F.hifNetKeySlot) 8)
    if !s.is pgSec F.secStatKeysUsable || netTail s (header ++ pay) != tail then
      netRefuse (s.bump pgHif F.hifCntAuthAuthFail) q src header rAuth
    else if cnt ≤ netL s then netRefuse (s.bump pgHif F.hifCntAuthReplay) q src header rAuth
    else
      let s := (s.setReg pgHif F.hifNetCtrLoL.ofs h.lo).setReg pgHif F.hifNetCtrHiL.ofs h.hi
      let c := netCmd pay
      if !netLength h pay c then netRefuse s q src header rLength
      else
        match cmdRefusal c with
        | some r =>
          netRefuse (if r = rDecode then s.bump pgHif F.hifCntFrameCount else s) q src header r
        | none =>
          if 4 ≤ s.hif.net.length then s.bump pgHif F.hifCntNetDropped
          else { s with hif := { s.hif with
                   net := s.hif.net ++ [{ port := q, src := src, header := header, cmd := c }] } }

/-- NETWORK_REQUEST_RUN: the first request held runs; when it is complete, its reply is sent (R451, R452). -/
def netRun (s : State) : State :=
  if !s.live then s
  else
    match s.hif.net with
    | [] => s
    | x :: rest =>
      if x.cmd.cmd = cmdPoll then
        let d := attnDetail s
        let s := { pollDone s with hif := { (pollDone s).hif with net := rest } }
        netReply s x.port x.src x.header rOk [d]
      else
        let (done, s) := hifRest s true x.cmd x.done
        if done.length < x.cmd.n then
          { s with hif := { s.hif with net := { x with done := done, waits := true } :: rest } }
        else
          let s := { s with hif := { s.hif with net := rest } }
          netReply s x.port x.src x.header (combined done) (replyData x.cmd done)

end Sys2Proof.Machine
end

