-- ==== Sys2Proof/Machine/CmdHif.lean ====
section
/-! DEFINITION. Commands of the host link (16). -/

namespace Sys2Proof.Machine

/-- READ (R67, R68, R434 to R440, R443). -/
def execRead (f : HostFrame) (s : State) : Out := .next (hostFrame s cmdRead f)

/-- WRITE (R67, R68, R434 to R440, R443). -/
def execWrite (f : HostFrame) (s : State) : Out := .next (hostFrame s cmdWrite f)

/-- STATUS_POLL (R434, R436, R437, R439, R443, R446, R447). -/
def execStatusPoll (f : HostFrame) (s : State) : Out := .next (hostFrame s cmdPoll f)

/-- BURST_READ (R403, R407, R434, R436 to R440, R443). -/
def execBurstRead (f : HostFrame) (s : State) : Out := .next (hostFrame s cmdBurstRead f)

/-- BURST_WRITE (R67, R403, R407, R434, R436 to R440, R443). -/
def execBurstWrite (f : HostFrame) (s : State) : Out := .next (hostFrame s cmdBurstWrite f)

/-- UNKNOWN_COMMAND: a frame with another CMD (R437). -/
def execUnknownCommand (cmd : Byte) (f : HostFrame) (s : State) : Out := .next (hostFrame s cmd.toNat f)

/-- FRAME_ABORT: HQ_CS_N rises before the CRC is complete (R437, R442). -/
def execFrameAbort (s : State) : Out := .next (frameLost s)

/-- FRAME_TIMEOUT: HQ_CS_N stays low for HIF_TMO.FRAME (R437, R442). -/
def execFrameTimeout (s : State) : Out := .next (frameLost s)

/-- DEFERRED_COMPLETE (R438). -/
def execDeferredComplete (s : State) : Out := .next (deferredDone s)

/-- HOLD_TIMEOUT (R439). -/
def execHoldTimeout (s : State) : Out := .next (holdExpire s)

/-- ATTN_CLEAR: HIF_ATTN or HIF_ATTN_SUB is written (R445). -/
def execAttnClear (m : Master) (sub : Bool) (mask : Word) (s : State) : Out :=
  .next (doRegWrite s m pgHif (if sub then 0x058 else 0x04C) mask)

/-- NETWORK_REQUEST: a CONTROL frame reaches HIF (R448 to R451). -/
def execNetworkRequest (q : Port) (src : BitVec 48) (header payload tail : List Byte) (s : State) : Out :=
  .next (netRequest s q src.toNat header payload tail)

/-- NETWORK_REQUEST_RUN (R443, R451, R452). -/
def execNetworkRequestRun (s : State) : Out := .next (netRun s)

end Sys2Proof.Machine
end

