-- ==== Sys2Proof/Machine/CmdLat.lean ====
section
/-! DEFINITION. Commands of the lattice (08, 09). -/

namespace Sys2Proof.Machine

/-- TASK_START: a tile starts the first ready task of its list (R237, R238, R253, R263 to R291). -/
def execTaskStart (t : TileIx) (s : State) : Out := .next (s.whenLive (fun s => taskBegin s t))

/-- TASK_FINISH: the running task of a tile finishes, or meets an uncorrectable error (R199, R208 to R213, R233, R236,
R238, R240, R254, R257, R261 to R292, R350). -/
def execTaskFinish (t : TileIx) (r : TaskRun) (s : State) : Out := .next (s.whenLive (fun s => taskEnd s t r))

/-- RING_DELIVERY: a block on the ring lands at a tile (R235, R236). -/
def execRingDelivery (t : TileIx) (s : State) : Out := .next (s.whenLive (fun s => ringLand s t))

/-- IMAGE_CHECK: LATG_CHECK.GO = 1 is written (R23, R35, R245, R246, R251). -/
def execImageCheck (m : Master) (s : State) : Out := .next (doRegWrite s m pgLatg 0x044 0x80000000)

/-- IMAGE_CHECK_DONE (R215, R245 to R247). -/
def execImageCheckDone (s : State) : Out := .next (s.whenLive checkEnd)

/-- IMAGE_BASE_WRITE: the staged base of LATG is written (R245). -/
def execImageBaseWrite (m : Master) (v : Word) (s : State) : Out := .next (doRegWrite s m pgLatg 0x040 v)

/-- PRELOAD_DONE: the tiles have preloaded the staged image (R247). -/
def execPreloadDone (s : State) : Out := .next (s.whenLive preloadEnd)

/-- TILE_BIST_START: TILE_BIST is written (R258). -/
def execTileBistStart (m : Master) (t : TileIx) (mode : BitVec 2) (s : State) : Out :=
  .next (doRegWrite s m (pgTile t) 0x05C (w32 mode.toNat))

/-- TILE_BIST_DONE: a pass of a tile's self-test ends (R258, R486, R497 to R499). -/
def execTileBistDone (t : TileIx) (fail : Bool) (s : State) : Out := .next (s.whenLive (fun s => tileBistEnd s t fail))

end Sys2Proof.Machine
end

