-- ==== Sys2Proof/Machine/CmdMeas.lean ====
section
/-! DEFINITION. Commands of measurement and diagnosis (12). -/

namespace Sys2Proof.Machine

/-- SENSE_FRAME: a sense frame of a port completes (R337, R343, R346, R349, R356, R361). -/
def execSenseFrame (g : Fin 4) (w : SerialFrame) (s : State) : Out := .next (s.whenLive (fun s => senseFrameAct s g w))

/-- SENSE_MISPLACED_FRAME_START (R349). -/
def execSenseMisplacedFrameStart (g : Fin 4) (s : State) : Out := .next (s.whenLive (fun s => senseMisplaced s g))

/-- SENSE_CLOCK_LOSS (R349, R360). -/
def execSenseClockLoss (g : Fin 4) (s : State) : Out := .next (s.whenLive (fun s => senseLoss s g))

/-- SENSE_COUNT_CHECK (R349). -/
def execSenseCountCheck (g : Fin 4) (s : State) : Out := .next (s.whenLive (fun s => senseCount s g))

/-- EXPOSURE_SECOND: a second of an exposure channel closes (R352, R353). -/
def execExposureSecond (e : Fin 8) (s : State) : Out := .next (s.whenLive (fun s => expSecond s e))

/-- CAPTURE_GO: MEA_CAP_CTRL is written with GO = 1 (R354). -/
def execCaptureGo (m : Master) (v : Word) (s : State) : Out := .next (doRegWrite s m pgMea 0x040 (v ||| 0x80000000))

/-- CAPTURE_STOP: MEA_CAP_CTRL is written with STOP = 1, the rest as it reads (R354, R355). -/
def execCaptureStop (m : Master) (s : State) : Out :=
  .next (doRegWrite s m pgMea 0x040 ((s.reg pgMea 0x040 &&& 0xF) ||| 0x40000000))

/-- SWEEP_GO: DIAG_CTRL is written with GO = 1 (R357, R364). -/
def execSweepGo (m : Master) (mask : BitVec 16) (s : State) : Out :=
  .next (doRegWrite s m pgDiag 0x040 (w32 mask.toNat ||| 0x80000000))

/-- SWEEP_STEP_END (R357 to R360). -/
def execSweepStepEnd (s : State) : Out := .next (s.whenLive sweepStep)

/-- SWEEP_ABORT: DIAG_CTRL is written with ABORT = 1 (R360). -/
def execSweepAbort (m : Master) (mask : BitVec 16) (s : State) : Out :=
  .next (doRegWrite s m pgDiag 0x040 (w32 mask.toNat ||| 0x40000000))

/-- PILOT_WINDOW: the pilot window of a channel closes (R358, R361). -/
def execPilotWindow (ch : Fin 16) (s : State) : Out := .next (s.whenLive (fun s => pilotEnd s ch))

/-- PILOT_CAPTURE: DIAG_PILOT_WIN.CAPTURE = 1 is written, TICKS as it reads (R361). -/
def execPilotCapture (m : Master) (s : State) : Out :=
  .next (doRegWrite s m pgDiag 0x07C (s.reg pgDiag 0x07C ||| 0x80000000))

end Sys2Proof.Machine
end

