-- ==== Sys2Proof/Machine/CmdMem.lean ====
section
/-! DEFINITION. Commands of the banks and the bus matrix (14). -/

namespace Sys2Proof.Machine

/-- The number of a macro of a bank (R388, R389). -/
def macroKey (b a : Nat) : Nat := b * 4096 + (a - bankBase b) / 32768

/-- A conflict of the two ports on a macro: port B stalls, and wins after 16 stalls (R389). -/
def portConflict (s : State) (b a : Nat) : State :=
  let k := macroKey b a
  let n := s.mx.stalls.get 0 k
  if n < 16 then
    let s := s.bump (pgMem b) F.memConflictBStalls
    { s with mx := { s.mx with stalls := s.mx.stalls.put k (n + 1) } }
  else
    let s := s.bump (pgMem b) F.memConflictBWins
    { s with mx := { s.mx with stalls := s.mx.stalls.del k } }

/-- Port A writes the word that port B addresses in the same cycle: it writes first (R391). -/
def portCollide (s : State) (b a : Nat) (w : Word) (write : Bool) : State :=
  let s := s.setMemWord (a / 4 * 4) w
  if write then s.bump (pgMem b) F.memCollCount else s

/-- Bits of a word are found in error by an access that reads it (R390, R393, R394); a word with two reads as zero on either
port from then on. -/
def wordBad (s : State) (b a : Nat) (wr : Option Word) (be : BitVec 4) (bits : Nat) : State :=
  let a := a / 4 * 4
  if bits = 0 ∨ s.mx.dead.contains a ∨ (wr.isSome ∧ (be = 0xF ∨ be = 0)) then s
  else if bits = 1 then
    if wr.isSome then (if s.mx.wback.contains a then s else eccCorrected s b a)
    else { s with mx := { s.mx with wback := if s.mx.wback.contains a then s.mx.wback else s.mx.wback ++ [a] } }
  else deadWord s a

/-- TRANSACTION_RESPONSE: a crossbar transaction of a master completes, or waits and is kept (R38, R389 to R394, R397, R399, R402 to
R407). -/
def execTransactionResponse (x : Txn) (s : State) : Out :=
  .next (
    let m := masterNo x.m
    let a := x.addr.toNat
    let tgt := targetOf s m a x.be x.wr.isSome
    if !s.answers then s
    else
      let s :=
        if !s.live || decide (8 ≤ tgt) || mustWait s m tgt || (decide (tgt = 7) && s.mx.wiping.isSome) then s
        else
          let s := if x.conflict || x.collide.isSome then portConflict s tgt a else s
          let s := match x.collide with
            | some w => portCollide s tgt a w x.wr.isSome
            | none => s
          wordBad s tgt a x.wr x.be x.badBits
      let (r, s) := busAccess s m a x.wr x.be x.locked
      let wait := r.isNone && (s.qport m).stall.isNone
      { s with mx := { s.mx with waits := if wait then s.mx.waits.put m x.addr else s.mx.waits.del m } })

/-- ECC_WRITE_BACK: a corrected word is written back (R393). -/
def execEccWriteBack (b : Bank) (s : State) : Out := .next (s.whenLive (fun s => writeBack s b))

/-- SCRUB_STEP: the scrubber of a bank reads one word, with no, one or two bits in error (R395). -/
def execScrubStep (x : ScrubRead) (s : State) : Out :=
  .next (s.whenLive (fun s => if scrubOn s x.bank && bankReady s x.bank then scrubWord s x.bank x.bits else s))

/-- BIST_WINDOW_PHASE: a phase of a test window completes; `bad` is a word that failed (R396, R398). -/
def execBistWindowPhase (b : Bank) (bad : Option (Fin 256)) (s : State) : Out :=
  .next (s.whenLive (fun s => bistPhase s b (bad.map (·.val))))

/-- BANK_INIT_DONE: a bank is filled with zero words (R392). -/
def execBankInitDone (b : Bank) (s : State) : Out :=
  .next (s.whenLive (fun s => if bankReady s b then s else bankFill s b))

/-- SEAL: SEC_CTRL.SEAL = 1 is written (R400). -/
def execSeal (m : Master) (s : State) : Out := .next (doRegWrite s m pgSec 0x044 2)

/-- SEAL_DONE: a seal computation ends (R400). -/
def execSealDone (s : State) : Out := .next (s.whenLive sealEnd)

/-- WIPE: SEC_CTRL.WIPE = 1 is written (R401). -/
def execWipe (m : Master) (s : State) : Out := .next (doRegWrite s m pgSec 0x044 1)

/-- WIPE_DONE: a wipe ends, the core powered or not (R401). -/
def execWipeDone (s : State) : Out := .next (wipeEnd s)

/-- XBR ends a transaction with response TIMEOUT (R406). -/
def xbrTimeout (s : State) (m : Nat) (a : Word) : State :=
  xbrFault (s.bump pgXbr F.xbrCntTmoCount) F.xbrFltXactTmo 0x12 a m (busTarget a.toNat)

/-- The waiting word of HIF's deferred command, or else of its first network request, ends with TIMEOUT. -/
def hifTimeout (s : State) : State :=
  let a := fun (c : HostCmd) (n : Nat) => c.addr + w32 (4 * n)
  let net := match s.hif.net with
    | x :: rest =>
      if x.waits then
        xbrTimeout { s with hif := { s.hif with net := { x with done := x.done ++ [(rTimeout, 0)], waits := false } :: rest } }
          0 (a x.cmd x.done.length)
      else s
    | [] => s
  match s.hif.deferred with
  | some c =>
    if s.hif.done.length < c.n then
      xbrTimeout { s with hif := { s.hif with done := s.hif.done ++ [(rTimeout, 0)] } } 0 (a c s.hif.done.length)
    else net
  | none => net

/-- The waiting transaction of SEQ ends with TIMEOUT. -/
def seqTimeout (s : State) : State :=
  match (List.range 8).find? (fun c => match (s.ctx c).txn with | some x => x.reply.isNone && !x.again | none => false) with
  | some c =>
    let a := match (s.ctx c).txn with | some x => w32 (txnAddr x) | none => 0
    xbrTimeout (s.setCtx c (fun y => { y with txn := y.txn.map (fun x => { x with reply := some rTimeout, data := 0 }) })) 1 a
  | none => s

/-- A waiting transaction of a master that TRANSACTION_RESPONSE left ends with TIMEOUT and data zero. -/
def waitTimeout (s : State) (m : Nat) (a : Word) : State :=
  xbrTimeout { s with mx := { s.mx with waits := s.mx.waits.del m, lastResp := 3, lastData := 0, lastReply := rTimeout } } m a

/-- TRANSACTION_TIMEOUT: a master's transaction has had no response for XBR_TMO; a stalled pop is exempt (R378, R406). -/
def execTransactionTimeout (m : Master) (s : State) : Out :=
  .next (s.whenLive (fun s =>
    if (s.qport (masterNo m)).stall.isSome then s
    else if let some a := s.mx.waits.find (masterNo m) then waitTimeout s (masterNo m) a
    else match m with
      | .hif => hifTimeout s
      | .seq => seqTimeout s
      | .dbg =>
        if s.dev.dbgRuns.isSome then
          xbrTimeout { s with dev := { s.dev with dbgRuns := none, dbgAcc := (rTimeout, s.dev.dbgAcc.2.1, 0) } } 6
            s.dev.dbgAcc.2.1
        else s
      | _ => s))

/-- LOCK_BREAK: MAX_CYC cycles have passed since the grant of a lock (R407). -/
def execLockBreak (m : Master) (tgt : Fin 16) (s : State) : Out :=
  .next (s.whenLive (fun s => match s.mx.locks.find tgt with
    | some l => if l.master = masterNo m then lockBreakAct s l.master tgt else s
    | none => s))

end Sys2Proof.Machine
end

