-- ==== Sys2Proof/Machine/Receive.lean ====
section
/-! DEFINITION. Frames received on a link: the checks and counters of a port, and the one destination of each frame
(R77 to R87, R102, R104, R170, R171). -/

namespace Sys2Proof.Machine

/-- STRG takes the frame on a port (R85, R171); a draining STRG only one that it has begun to take (log 12). -/
def strgTakes (s : State) (q : Nat) : Bool :=
  s.running pgStrg && !s.resetting pgStrg && (!draining s pgStrg || (s.port q).rxOpen.isSome)

/-- The Auxenos part of a frame that STRG is to look at, its header good and of a type of Table 6.2. -/
def auxKnown (h : AuxHdr) : Bool := h.version == 1 && decide (1 ≤ h.type) && decide (h.type ≤ 5)

/-- MEDIA or CORRECTION. -/
def isStream (h : AuxHdr) : Bool := h.type == tMedia || h.type == tCorrection

/-- The context that a stream frame on a port matches. -/
def streamCtx (s : State) (q : Nat) (d : List Byte) : Option Nat :=
  if strgTakes s q && isAux s d then
    let h := (auxOf d).hdr
    if auxKnown h && isStream h then auxMatch s q h else none
  else none

/-- The header of a frame is complete (R172, R176): a frame that was in reception before is cut off. -/
def headerIn (s : State) (q : Nat) (d : List Byte) : State :=
  match streamCtx s q d with
  | none => s
  | some c =>
    let raw := (auxOf d).raw
    match (s.port q).rxOpen with
    | some o => if o.hdr = raw then s else headerSeen (frameCut s q) q c raw
    | none => headerSeen s q c raw

/-- A matched stream frame ends, good or not (R173 to R178). -/
def streamEnd (s : State) (q : Nat) (d : List Byte) (good : Bool) : State :=
  if (streamCtx s q d).isNone then s
  else
    let s := headerIn s q d
    sealRerun (frameEnds (if good then handOff s q d else s) q d good)

/-- Size and address counters of a frame that is not discarded (R84). -/
def rxKept (s : State) (q : Nat) (b : List Byte) : State :=
  countAll s q [sizeIdx b.length, 14 + castIdx (dstOf b)]

/-- MAC control, at an FRC count (R85 step 1, R97). -/
def rxControl (s : State) (q : Nat) (b : List Byte) (c : Nat) : State :=
  let o := l3Ofs b
  if beAt b o 2 = 1 then
    let s := rxKept s q b
    count (pauseSet s q (beAt b (o + 2) 2) c) q 20
  else count s q 36

/-- An IPv6 frame, or an IPv4 datagram in fragments (R87). -/
def ipUnsupported (d : List Byte) : Bool :=
  etypeOf d == 0x86DD || (match ipv4Of d with | some h => h.frag | none => false)

/-- What STRG does with a good frame of its EtherType: true where it consumes it (R165, R170, R171). -/
def rxAuxenos (s : State) (q : Nat) (d : List Byte) : Bool × State :=
  let f := auxOf d
  let h := f.hdr
  if !auxKnown h then (true, s.bump pgStrg F.strgCntMalformedCount)
  else
    let s := if f.good then redPeerFrame s q h else s
    if h.type = tControl then
      if h.node = s.act pgStrg F.strgNodeNodeId then (true, netRequest s q (srcOf d) f.raw f.pay f.tail) else (false, s)
    else if h.type = tHeartbeat then (true, s)
    else if h.type = tHealth then (true, (healthIn s q d).2)
    else if (streamCtx s q d).isSome then (true, streamEnd s q d true)
    else (false, s.bump pgStrg F.strgCntUnmatchedCount)

/-- A frame that no block of the device consumes. -/
def rxOther (s : State) (q : Nat) (b : List Byte) (ts : Option Nat) : State :=
  let (kept, s) := hostOrForward s q b ts
  let s := if kept then rxKept s q b else s
  if kept && (ptpOfs (withoutFcs b)).isSome then count s q 19 else s

/-- A frame that passes the checks goes to its one destination (R85), at an FRC count. -/
def rxGood (s : State) (q : Nat) (b : List Byte) (ts : Option Nat) (c : Nat) : State :=
  let d := withoutFcs b
  if etypeOf d = 0x8808 then rxControl s q b c
  else if strgTakes s q && isAux s d then
    match rxAuxenos s q d with
    | (true, s) => count (rxKept s q b) q 17
    | (false, s) => rxOther s q b ts
  else
    let s := if ipUnsupported d then count s q 37 else s
    match (if strgTakes s q && !ipUnsupported d then aes67Match s q d else none) with
    | some x => count (rxKept (jbReceive s x d) q b) q 18
    | none => rxOther s q b ts

/-- A frame fails a check (R84): it is counted once, and what of it has passed to STRG turns Soot (R80, R81, R173). -/
def rxBad (s : State) (q n : Nat) (b : List Byte) (info : RxInfo) : State :=
  let s := count s q n
  if linkState s q ≠ 2 then s
  else
    let s := if !fcsOk b && !info.pcsErr && decide (b.length ≤ s.act (pgLink q) F.macMaxlenMaxlen) then fcsStorm s q else s
    streamEnd s q (withoutFcs b) false

/-- A verify or respond frame of the preemption protocol (R89). -/
def rxMpkt (s : State) (q : Nat) (respond : Bool) : State :=
  if linkState s q ≠ 2 then s
  else if respond then (if s.rd (pgLink q) F.macPreStatState = 1 then verifyEnd s q 2 else s)
  else s.setPort q (fun x => { x with respond := true })

/-- Remote fault is no longer received: the line carries frames (R75). -/
def remoteEnds (s : State) (l : Nat) : State := s.setF (pgLink l) F.macLinkRemoteFault 0

/-- A frame on a network port. -/
def portReceive (s : State) (q : Nat) (info : RxInfo) (b : List Byte) : State :=
  if linkState s q = 0 then s
  else if info.mpkt ≠ 0 then rxMpkt s q (info.mpkt = 2)
  else
    let s := if 2 ≤ info.frags then countN s q 40 info.frags else s
    match rxError s q info b with
    | some n => rxBad s q n b info
    | none => rxGood s q b (ingressTs s q info) info.crossing.frc.toNat

/-- The first check that a frame on PLK fails, as its counter (Table 3.5, R104). -/
def plkError (s : State) (info : RxInfo) (b : List Byte) : Option Nat :=
  if info.pcsErr || linkState s 4 ≠ 2 then some 2
  else if 2048 < b.length || b.length < 64 then some 3
  else if !fcsOk b then some 1
  else none

/-- A good frame of the peer is put before RED, and is counted; one that RED does not accept is discarded (R104, R105). -/
def plkGive (s : State) (d : List Byte) (take : State → List Byte → Bool × State) : State :=
  if etypeOf d ≠ s.act pgStrg F.strgCfgEtype then count s 4 4
  else
    let (ok, s') := take s d
    if ok then count s' 4 0 else count s 4 4

/-- RED looks at a frame of the peer: a HEARTBEAT, or a HEALTH frame (R484, R485). -/
def redTakes (s : State) (d : List Byte) : Bool × State :=
  let (ok, s') := heartbeatIn s d
  if ok then (true, s') else healthIn s 4 d

/-- A frame on PLK (R104, R105, R484, R485). -/
def plkReceive (s : State) (info : RxInfo) (b : List Byte) : State :=
  if linkState s 4 = 0 then s
  else
    match plkError s info b with
    | some n => count s 4 n
    | none => plkGive s (withoutFcs b) redTakes

/-- A frame comes from the PCS of a link; a draining link takes none that it has not begun (log 12). -/
def lineIn (s : State) (l : Nat) (info : RxInfo) (b : List Byte) : State :=
  if draining s (pgLink l) && (s.port l).rxOpen.isNone then s
  else if l = 4 then plkReceive (remoteEnds s l) info b
  else portReceive (remoteEnds s l) l info b

/-- FRAME_RECEIVE: a frame has ended on a link. While PRBS31 stands in place of traffic its checker counts bit errors;
near-end loopback cuts the link off from its line; with far-end loopback what is received is sent as well (Tables 3.6,
3.7; log 45). -/
def frameIn (s : State) (l : Nat) (info : RxInfo) (b : List Byte) : State :=
  let p := pgLink l
  if !s.live || !s.running p then s
  else
    let s := s.signal p
    if s.actIs p F.macTestPrbsEn then s.bumpBy p F.macTestPrbsErrors info.bitErrs
    else
      match s.act p F.macTestLoopback with
      | 1 => s
      | 2 => lineIn (s.setPort l (fun x => { x with sent := b, sentFrags := [b] })) l info b
      | _ => lineIn s l info b

/-- A frame of the peer that has passed the checks of PLK, its FCS cut off: it is put before RED where the lane is UP and
its line is not cut off by a test (R77, R104, R107). -/
def plkFrame (s : State) (d : List Byte) (take : State → List Byte → Bool × State) : State :=
  if s.actIs pgPlk F.macTestPrbsEn || s.act pgPlk F.macTestLoopback == 1 || draining s pgPlk || linkState s 4 == 0 then s
  else
    let s := remoteEnds (s.signal pgPlk) 4
    if linkState s 4 ≠ 2 then count s 4 2 else plkGive s d take

/-- Near-end loopback in the PCS: a frame just sent comes back whole (Tables 3.6, 3.7). -/
def loopBack (s : State) (l : Nat) (i : Instant) : State :=
  if s.act (pgLink l) F.macTestLoopback ≠ 1 || (s.port l).sent.isEmpty then s
  else
    lineIn s l { pcsErr := false, smdErr := false, asmErr := false, frags := (s.port l).sentFrags.length, mpkt := 0,
                 crossing := i, bitErrs := 0 } (s.port l).sent

end Sys2Proof.Machine
end

