-- ==== Sys2Proof/Machine/CmdNet.lean ====
section
/-! DEFINITION. Commands of the network ports and the peer-link lane (03). -/

namespace Sys2Proof.Machine

/-- A link leaves UP or ACQUIRE, its frames in transmission and in reception cut off; with lock it acquires anew (R77,
Table 3.2). -/
def linkLeaves (s : State) (l : Nat) (tx : Option Instant) (rx : Bool) : State :=
  let s := linkDown (rxLost (txCut s l tx) l rx) l
  if (s.port l).lock then linkAcquire s l else s

/-- LOCK_GAINED (R75, R103); a PCS in reset gains none (R106). -/
def execLockGained (l : Link) (s : State) : Out :=
  .next (s.whenLive (fun s =>
    if s.resetting (pgLink l) then s
    else
      let s := s.setPort l (fun x => { x with lock := true })
      if s.running (pgLink l) && linkState s l == 0 then linkAcquire s l else s))

/-- LOCK_LOST: a frame in transmission, which began at an instant, is abandoned, and one in reception is cut off (R75,
R76, R77, R103). -/
def execLockLost (l : Link) (tx : Option Instant) (rx : Bool) (s : State) : Out :=
  .next (s.whenLive (fun s =>
    let s := (s.setPort l (fun x => { x with lock := false })).setF (pgLink l) F.macLinkAnDone 0
    if linkState s l = 0 then s else (linkLeaves s l tx rx).setF (pgLink l) F.macLinkRemoteFault 0))

/-- HOLDUP_EXPIRY: the conditions of ACQUIRE have held for HOLDUP ms (R75, R76, R89). -/
def execHoldupExpiry (l : Link) (s : State) : Out := .next (s.whenRun (pgLink l) (fun s => tryUp s l))

/-- REMOTE_FAULT_TIMEOUT: remote fault for 1 ms without a break (R75, R76, R77). -/
def execRemoteFaultTimeout (x : LinkCut) (s : State) : Out :=
  .next (s.whenRun (pgLink x.l) (fun s =>
    if linkState s x.l = 2 ∧ s.is (pgLink x.l) F.macLinkRemoteFault then linkLeaves s x.l x.tx x.rx else s))

/-- LOCAL_FAULT: the link leaves UP, or its HOLDUP count restarts (R75, R76, R77). -/
def execLocalFault (x : LinkCut) (s : State) : Out :=
  .next (s.whenLive (fun s =>
    if s.resetting (pgLink x.l) then s
    else
      let s := s.setF (pgLink x.l) F.macLinkLocalFault 1
      if linkState s x.l = 2 then linkLeaves s x.l x.tx x.rx else s))

/-- LOCAL_FAULT_CLEAR: the conditions of ACQUIRE may hold together (R75). -/
def execLocalFaultClear (l : Link) (s : State) : Out :=
  .next (s.whenLive (fun s =>
    let s := s.setF (pgLink l) F.macLinkLocalFault 0
    if s.running (pgLink l) then tryUpAtOnce s l else s))

/-- REMOTE_FAULT_RECEIVED: the 1 ms count starts (R75). -/
def execRemoteFaultReceived (l : Link) (s : State) : Out :=
  .next (s.whenRun (pgLink l) (fun s => s.setF (pgLink l) F.macLinkRemoteFault 1))

/-- AN_COMPLETE: Clause 37 auto-negotiation completes (R75). -/
def execAnComplete (q : Port) (s : State) : Out :=
  .next (s.whenRun (pgLink q) (fun s =>
    if anNeeded s q then tryUpAtOnce (s.setF (pgLink q) F.macLinkAnDone 1) q else s))

/-- AN_RESTART: it starts again (R75). -/
def execAnRestart (q : Port) (s : State) : Out :=
  .next (s.whenRun (pgLink q) (fun s => s.setF (pgLink q) F.macLinkAnDone 0))

/-- FRAME_RECEIVE: a frame has ended on a link, given from its destination address to its FCS (R77 to R87, R96 to
R105, R116, R165 to R178). -/
def execFrameReceive (l : Link) (info : RxInfo) (bytes : List Byte) (s : State) : Out :=
  .next (frameIn s l info bytes)

/-- PAUSE_TIMER_EXPIRY (R97). -/
def execPauseTimerExpiry (q : Port) (s : State) : Out :=
  .next (s.whenRun (pgLink q) (fun s =>
    (s.setF (pgLink q) F.macPauseStatRxPaused 0).setF (pgLink q) F.macPauseStatRxRemain 0))

/-- PAUSE_REPEAT: half of TX_QUANTA has elapsed (R98). -/
def execPauseRepeat (q : Port) (s : State) : Out := .next (s.whenLive (fun s => pauseAgain s q))

/-- FRAME_TRANSMIT: the next frame of a link leaves; express frames became ready after the counts `cuts` of its bytes
(R77, R82, R88 to R95, R104, R116, R120 to R123, R191, R227). -/
def execFrameTransmit (l : Link) (inst : Instant) (deferred : Bool) (cuts : List Nat) (s : State) : Out :=
  .next (s.whenLive (fun s =>
    let s := s.setPort l (fun x => { x with sent := [], sentFrags := [] })
    loopBack (frameOut s l inst deferred cuts) l inst))

/-- LAUNCH_TIME_REACHED: the launch time of the head item of a host queue has come, by local time (R93). -/
def execLaunchTimeReached (q : Port) (express : Bool) (s : State) : Out :=
  .next (s.whenRun (pgLink q) (fun s =>
    let s := headsReach s q
    match (hostHead s q express).bind (·.launch) with
    | some t => if t ≤ s.now ∧ headSt s q express = .waits then headReady s q express else s
    | none => s))

/-- The verify protocol runs on a port (R89). -/
def verifying (s : State) (q : Nat) : Bool := linkState s q == 2 && s.rd (pgLink q) F.macPreStatState == 1

/-- VERIFY_FRAME_SEND: one of up to VERIFY_LIMIT verify frames (R89). -/
def execVerifyFrameSend (q : Port) (s : State) : Out :=
  .next (s.whenRun (pgLink q) (fun s =>
    if verifying s q && decide ((s.port q).verifies < s.act (pgLink q) F.macPreVerifyLimit)
    then s.setPort q (fun x => { x with verifies := x.verifies + 1 }) else s))

/-- VERIFY_TIMEOUT: the last interval ends without a respond frame (R89). -/
def execVerifyTimeout (q : Port) (s : State) : Out :=
  .next (s.whenRun (pgLink q) (fun s =>
    if verifying s q && decide (s.act (pgLink q) F.macPreVerifyLimit ≤ (s.port q).verifies)
    then verifyEnd s q 3 else s))

/-- RECOVERY_WINDOW_CLOSE (R100). -/
def execRecoveryWindowClose (l : Link) (s : State) : Out :=
  .next (s.whenLive (fun s => { s with net := { s.net with recovery := s.net.recovery.put l false } }))

/-- COUNTER_CLEAR: MAC_CNT_CLR.CLEAR = 1 is written (R99). -/
def execCounterClear (m : Master) (l : Link) (s : State) : Out := .next (doRegWrite s m (pgLink l) 0x08C 1)

end Sys2Proof.Machine
end

