-- ==== Sys2Proof/Machine/CmdPow.lean ====
section
/-! DEFINITION. Commands of the drive path (11). -/

namespace Sys2Proof.Machine

/-- CARRIER_PERIOD: period k of a tick of a channel's carrier (R327 to R331, R335, R356). -/
def execCarrierPeriod (ch : Fin 16) (k : Fin 24) (s : State) : Out := .next (s.whenLive (fun s => carrierGo s ch k))

/-- OVERCURRENT_TRIP: DCn_OC_N is low, filtered (R333, R336, R342, R360). -/
def execOvercurrentTrip (oc : OcPin) (s : State) : Out := .next (overcurrent s oc.ch oc.low)

/-- BOOST_HOLD_EXPIRY (R342). -/
def execBoostHoldExpiry (g : Fin 4) (s : State) : Out := .next (s.whenLive (fun s => bstHoldEnd s g))

/-- RETRY_EXPIRY (R333, R336). -/
def execRetryExpiry (ch : Fin 16) (s : State) : Out := .next (s.whenLive (fun s => retryTime s ch))

/-- PRECHARGE_DONE (R333). -/
def execPrechargeDone (ch : Fin 16) (s : State) : Out := .next (s.whenLive (fun s => prechargeEnd s ch))

/-- TRIP_COUNT_CLEAR (R336). -/
def execTripCountClear (ch : Fin 16) (s : State) : Out := .next (s.whenLive (fun s => tripsClear s ch))

/-- UNLATCH: DRV_CTRL.UNLATCH = 1 is written (R333). -/
def execUnlatch (m : Master) (ch : Fin 16) (s : State) : Out := .next (doRegWrite s m (pgDrv ch) 0x058 1)

/-- SAFE_PIN_ASSERT: DRV_SAFE_N falls (R333, R341, R508); while the core does not work, only its level is noted. -/
def execSafePinAssert (s : State) : Out :=
  .next (if s.live then safePinLow s else { s with dev := { s.dev with safePin := true } })

/-- SAFE_PIN_RELEASE: DRV_SAFE_N rises (R333, R341). -/
def execSafePinRelease (s : State) : Out := .next { s with dev := { s.dev with safePin := false } }

/-- DC_WINDOW (R333, R339). -/
def execDcWindow (ch : Fin 16) (s : State) : Out := .next (s.whenLive (fun s => dcCheck s ch))

/-- BOOST_PERIOD: period k of a tick of a boost controller (R343). -/
def execBoostPeriod (g : Fin 4) (k : Fin 24) (s : State) : Out := .next (s.whenLive (fun s => boostGo s g k))

/-- BOOST_ILIM (R343). -/
def execBoostIlim (g : Fin 4) (s : State) : Out := .next (s.whenLive (fun s => boostLimit s g))

/-- BOOST_OVP_PIN: BGg_OVP_N changes, filtered (R343, R508). -/
def execBoostOvpPin (g : Fin 4) (low : Bool) (s : State) : Out := .next (boostPin s g low)

/-- SENSE_TIMEOUT: no rail sample within its time (R343). -/
def execSenseTimeout (g : Fin 4) (s : State) : Out := .next (s.whenLive (fun s => bstBlind s g))

/-- THERMAL_CLEAR (R343, R468). -/
def execThermalClear (g : Fin 4) (s : State) : Out := .next (s.whenLive (fun s => bstThermalEnd s g))

end Sys2Proof.Machine
end

