-- ==== Sys2Proof/Machine/CmdQue.lean ====
section
/-! DEFINITION. Commands of the queue manager (13). -/

namespace Sys2Proof.Machine

/-- QUEUE_PUSH: a write to the push window; `last` writes its last word, the end mark (R366 to R376). -/
def execQueuePush (m : Master) (last : Bool) (w : Word) (s : State) : Out :=
  .next (doRegWrite s m pgQmg (if last then 0x7FC else 0x400) w)

/-- PUSH_ABORT: QMG_PUSH_ABORT.GO = 1 is written (R374, R376, R382). -/
def execPushAbort (m : Master) (s : State) : Out := .next (doRegWrite s m pgQmg 0x064 1)

/-- ITEM_TIMEOUT: the open item of a master has had no word for QMG_ITEM_TMO (R374, R376, R382). -/
def execItemTimeout (m : Master) (s : State) : Out := .next (s.whenRun pgQmg (fun s => abandonOpen s (masterNo m)))

/-- QUEUE_POP: a read of a doubleword of the pop window (R372, R377 to R380, R383). -/
def execQueuePop (m : Master) (s : State) : Out := .next (doRegRead s m pgQmg 0x200)

/-- STALL_TIMEOUT: no item within STALL_TMO of a stalled read (R378). -/
def execStallTimeout (m : Master) (s : State) : Out := .next (s.whenLive (fun s => stallExpire s (masterNo m)))

/-- HELD_ITEM_TIMEOUT: the holder of a queue's head item has popped nothing for QMG_ITEM_TMO (R379). -/
def execHeldItemTimeout (q : QueueIx) (s : State) : Out := .next (s.whenRun pgQmg (fun s => heldExpire s q))

/-- QUEUE_ENABLE: word 0 of a queue's entry is written (R370, R371). -/
def execQueueEnable (m : Master) (q : QueueIx) (v : Word) (s : State) : Out :=
  .next (doRegWrite s m (descPage q) (q % 256 * 16) v)

/-- FLUSH_REQUEST: FLUSH = 1 is written, the rest of the word as it reads (R382). -/
def execFlushRequest (m : Master) (q : QueueIx) (s : State) : Out :=
  .next (doRegWrite s m (descPage q) (q % 256 * 16) (s.reg (descPage q) (q % 256 * 16) ||| 0x40000000))

/-- LINK_ECC_ERROR: the link memory shows an error, of a queue or of none (R386). -/
def execLinkEccError (q : Option QueueIx) (uncorr : Bool) (lost : Nat) (s : State) : Out :=
  .next (s.whenLive (fun s => linkError s (q.map (·.val)) uncorr lost))

end Sys2Proof.Machine
end

