-- ==== Sys2Proof/Machine/CmdRed.lean ====
section
/-! DEFINITION. Commands of the redundant pair (18). -/

namespace Sys2Proof.Machine

/-- HEARTBEAT_SEND (R104, R483). -/
def execHeartbeatSend (s : State) : Out := .next (s.whenLive heartbeatDue)

/-- HEARTBEAT_RECEIVE: a HEARTBEAT from PLK, its FCS checked and cut off: FRAME_RECEIVE has not given it (log 45; R104,
R468, R481, R484, R486 to R489, R491, R497, R498). -/
def execHeartbeatReceive (bytes : List Byte) (s : State) : Out :=
  .next (s.whenRun pgPlk (fun s => plkFrame s bytes heartbeatIn))

/-- HEARTBEAT_MISS (R487, R501). -/
def execHeartbeatMiss (s : State) : Out := .next (s.whenLive heartbeatMissed)

/-- HEALTH_SEND (R485). -/
def execHealthSend (s : State) : Out := .next (s.whenLive healthSendAct)

/-- HEALTH_RECEIVE: a HEALTH frame from PLK, its FCS checked and cut off: FRAME_RECEIVE has not given it (log 45; R104,
R485, R500). -/
def execHealthReceive (bytes : List Byte) (s : State) : Out :=
  .next (s.whenRun pgPlk (fun s => plkFrame s bytes (fun s d => healthIn s 4 d)))

/-- SEQUENCE_MAP_SEND (R500). -/
def execSequenceMapSend (s : State) : Out := .next (s.whenLive seqMapGo)

/-- LISTEN_EXPIRY (R481, R486). -/
def execListenExpiry (s : State) : Out := .next (s.whenLive listenEnd)

/-- PROMOTE: RED_CTRL.PROMOTE = 1 is written (R489, R502). -/
def execPromote (m : Master) (s : State) : Out := .next (doRegWrite s m pgRed 0x058 2)

/-- HANDOVER: RED_CTRL.HANDOVER = 1 is written (R486, R490, R502). -/
def execHandover (m : Master) (s : State) : Out := .next (doRegWrite s m pgRed 0x058 1)

/-- REJOIN: RED_CTRL.REJOIN = 1 is written (R486). -/
def execRejoin (m : Master) (s : State) : Out := .next (doRegWrite s m pgRed 0x058 4)

/-- RELEASING_END (R486, R490). -/
def execReleasingEnd (s : State) : Out := .next (s.whenLive releaseEnd)

/-- VERDICT_DONE: every tile has finished the verdict check (R486, R498, R501). -/
def execVerdictDone (s : State) : Out := .next (s.whenLive verdictEnd)

/-- VERDICT_TIMEOUT: the peer's verdict has not come in time and counts as passed (R486, R498). -/
def execVerdictTimeout (s : State) : Out :=
  .next (s.whenRun pgRed (fun s => if s.red.waiting then actVerdict s 2 else s))

end Sys2Proof.Machine
end

