-- ==== Sys2Proof/Machine/CmdRef.lean ====
section
/-! DEFINITION. Commands of the references and the media clock (05). -/

namespace Sys2Proof.Machine

/-- MARKER: a marker of a candidate, `ph` units of 2^-16 ns after its grid point (R136, R138, R147, R150, R151). -/
def execMarker (n : Fin 8) (ph : Int) (s : State) : Out := .next (s.whenLive (fun s => refMarker s n ph))

/-- MARKER_TIMEOUT: no marker within 2 µs of its predicted time (R136, R138, R141, R143, R148). -/
def execMarkerTimeout (n : Fin 8) (s : State) : Out := .next (s.whenLive (fun s => candLose s n))

/-- REFS_MEASUREMENT: the measured offsets of the candidates and the media clock's frequency, in ppb (R137 to R144). -/
def execRefsMeasurement (ofs : List Int) (freq : Int) (s : State) : Out :=
  .next (s.whenLive (fun s => refMeasure s ofs freq))

/-- CANDIDATE_PRIO_WRITE: REFS_CANDn_CFG.PRIO is written (R138). -/
def execCandidatePrioWrite (m : Master) (n : Fin 8) (prio : BitVec 4) (s : State) : Out :=
  .next (doRegWrite s m pgRefs (0x100 + 0x20 * n) (w32 prio.toNat))

/-- REFS_PTP with VALID and KEEPALIVE as given and TMO as it reads. -/
def ptpWord (s : State) (keep valid : Bool) : Word :=
  (s.reg pgRefs 0x060 &&& ~~~3) ||| w32 ((if keep then 2 else 0) + (if valid then 1 else 0))

/-- PTP_VALID: REFS_PTP.VALID is written (R136, R138, R141, R143). -/
def execPtpValid (m : Master) (valid : Bool) (s : State) : Out :=
  .next (doRegWrite s m pgRefs 0x060 (ptpWord s false valid))

/-- PTP_KEEPALIVE: REFS_PTP.KEEPALIVE = 1 is written (R136). -/
def execPtpKeepalive (m : Master) (s : State) : Out :=
  .next (doRegWrite s m pgRefs 0x060 (ptpWord s true (s.is pgRefs F.refsPtpValid)))

/-- PTP_TIMEOUT: no KEEPALIVE for TMO seconds (R136, R138, R141, R143, R148). -/
def execPtpTimeout (s : State) : Out :=
  .next (s.whenRun pgRefs (fun s => candLose { s with ref := { s.ref with ptpDead := true } } 0))

/-- DPLL_LOCK: the phase error has stayed within ±LOCK_NS for 1 s (R145, R146). -/
def execDpllLock (s : State) : Out := .next (s.whenLive dpllLocks)

/-- DPLL_UNLOCK: it has stayed beyond ±LOCK_NS for 100 ms (R146). -/
def execDpllUnlock (s : State) : Out :=
  .next (s.whenRun pgRefs dpllUnlocks)

/-- PHSTEP_REQUEST: REFS_PHSTEP_HI is written (R152). -/
def execPhstepRequest (m : Master) (v : Word) (s : State) : Out := .next (doRegWrite s m pgRefs 0x06C v)

/-- REALIGN_OUTPUTS: MCG_REALIGN.OUTPUTS = 1 is written (R153). -/
def execRealignOutputs (m : Master) (s : State) : Out := .next (doRegWrite s m pgMcg 0x050 1)

/-- NUMBER_LOAD: MCG_REALIGN.NUMBER = 1 is written (R158). -/
def execNumberLoad (m : Master) (s : State) : Out := .next (doRegWrite s m pgMcg 0x050 2)

/-- TICK_OFFSET_WRITE: MCG_TICK_OFFSET_HI is written (R159). -/
def execTickOffsetWrite (m : Master) (v : Word) (s : State) : Out := .next (doRegWrite s m pgMcg 0x04C v)

/-- TICK_READ: a read of MCG_TICK_LO (R161). -/
def execTickRead (m : Master) (s : State) : Out := .next (doRegRead s m pgMcg 0x040)

end Sys2Proof.Machine
end

