-- ==== Sys2Proof/Machine/CmdRegs.lean ====
section
/-! DEFINITION. Commands that are accesses of registers common to every page, and of the default target (02). -/

namespace Sys2Proof.Machine

/-- PG_CTRL as a master writes it: EN and DRAIN as they read, SRST as given. -/
def ctrlWord (s : State) (p : Nat) (en drain srst : Bool) : Word :=
  w32 ((if drain then 4 else 0) + (if srst then 2 else 0) + (if en then 1 else 0))
    |> fun w => (s.reg p 0x008 &&& ~~~7) ||| w

/-- REGISTER_WRITE (R33, R45, R46, R55, R59 to R63, R67 to R69). -/
def execRegisterWrite (m : Master) (addr v : Word) (s : State) : Out := .next (doWrite s m addr.toNat v)

/-- REGISTER_READ_CLEAR: a read, which clears the RC fields it returns (R59, R99, R197, R362). -/
def execRegisterReadClear (m : Master) (addr : Word) (s : State) : Out := .next (doRead s m addr.toNat)

/-- DEFAULT_TARGET_ACCESS: an access that no target takes (R40, R42, R43, R44, R399, R402). -/
def execDefaultTargetAccess (m : Master) (addr : Word) (be : BitVec 4) (wr : Option Word) (s : State) : Out :=
  .next (if s.answers && targetOf s (masterNo m) addr.toNat be wr.isSome == 15
    then (busAccess s (masterNo m) addr.toNat wr be false).2 else s)

/-- DRAIN: PG_CTRL.DRAIN is written to 1 (R51). -/
def execDrain (m : Master) (p : Page) (s : State) : Out :=
  .next (doRegWrite s m p 0x008 (ctrlWord s p (s.is p F.ctrlEn) true false))

/-- SRST: PG_CTRL.SRST is written to 1 (R14, R50). -/
def execSrst (m : Master) (p : Page) (s : State) : Out :=
  .next (doRegWrite s m p 0x008 (ctrlWord s p (s.is p F.ctrlEn) (s.is p F.ctrlDrain) true))

/-- BLOCK_ENABLE: PG_CTRL.EN is written (R50, R51, R75, R76 and each chapter). -/
def execBlockEnable (m : Master) (p : Page) (en : Bool) (s : State) : Out :=
  .next (doRegWrite s m p 0x008 (ctrlWord s p en (s.is p F.ctrlDrain) false))

/-- FAULT_FLAG_CLEAR: flags of PG_FLT are written 1 (R54). -/
def execFaultFlagClear (m : Master) (p : Page) (mask : Word) (s : State) : Out := .next (doRegWrite s m p 0x010 mask)

/-- FAULT_FORCE: PG_FLT_FORCE is written (R52, R53, R454). -/
def execFaultForce (m : Master) (p : Page) (mask : Word) (s : State) : Out := .next (doRegWrite s m p 0x018 mask)

/-- PG_TMO_EXPIRY (R56, R57). -/
def execPgTmoExpiry (p : Page) (s : State) : Out := .next (tmoExpiry s p)

/-- COMMIT_REQUEST: PG_COMMIT.GO = 1 is written (R58, R62, R63, R64). -/
def execCommitRequest (m : Master) (p : Page) (atTick : Bool) (s : State) : Out :=
  .next (doRegWrite s m p 0x028 (if atTick then 3 else 1))

/-- COMMIT_CANCEL: PG_COMMIT.GO = 0 is written (R63). -/
def execCommitCancel (m : Master) (p : Page) (s : State) : Out :=
  .next (doRegWrite s m p 0x028 (if s.is p F.cmtAtTick then 2 else 0))

end Sys2Proof.Machine
end

