-- ==== Sys2Proof/Machine/CmdSeq.lean ====
section
/-! DEFINITION. Commands of the event sequencer: its actions and its contexts (15). -/

namespace Sys2Proof.Machine

/-- NOP (R414). -/
def execNop (c : SeqCtx) (s : State) : Out := .next (seqIssue s c 0x00)

/-- WR (R413, R414, R417). -/
def execWr (c : SeqCtx) (s : State) : Out := .next (seqIssue s c 0x01)

/-- RMW (R413, R414, R417). -/
def execRmw (c : SeqCtx) (s : State) : Out := .next (seqIssue s c 0x02)

/-- WAIT_TICK (R414, R420, R428). -/
def execWaitTick (c : SeqCtx) (s : State) : Out := .next (seqIssue s c 0x08)

/-- WAIT_AT (R414, R422, R428). -/
def execWaitAt (c : SeqCtx) (s : State) : Out := .next (seqIssue s c 0x09)

/-- WAIT_EVT (R414, R424, R428). -/
def execWaitEvt (c : SeqCtx) (s : State) : Out := .next (seqIssue s c 0x0A)

/-- IF_EQ (R413, R414, R418). -/
def execIfEq (c : SeqCtx) (s : State) : Out := .next (seqIssue s c 0x10)

/-- JMP (R414, R419). -/
def execJmp (c : SeqCtx) (s : State) : Out := .next (seqIssue s c 0x11)

/-- CALL (R414, R419). -/
def execCall (c : SeqCtx) (s : State) : Out := .next (seqIssue s c 0x12)

/-- RET (R414, R419). -/
def execRet (c : SeqCtx) (s : State) : Out := .next (seqIssue s c 0x13)

/-- SIGNAL (R385, R414, R426). -/
def execSignal (c : SeqCtx) (s : State) : Out := .next (seqIssue s c 0x18)

/-- COMMIT (R414, R425, R428). -/
def execCommit (c : SeqCtx) (s : State) : Out := .next (seqIssue s c 0x19)

/-- END (R414, R428). -/
def execEndList (c : SeqCtx) (s : State) : Out := .next (seqIssue s c 0x3F)

/-- ACTION_REPLY: the reply to a context's bus action (R416, R423). -/
def execActionReply (c : SeqCtx) (s : State) : Out := .next (seqReply s c)

/-- WAIT_TICK_RELEASE (R420, R423). -/
def execWaitTickRelease (c : SeqCtx) (s : State) : Out := .next (seqTickRelease s c)

/-- WAIT_AT_RELEASE (R422, R423). -/
def execWaitAtRelease (c : SeqCtx) (s : State) : Out := .next (seqAtRelease s c)

/-- WAIT_EVT_TIMEOUT (R424). -/
def execWaitEvtTimeout (c : SeqCtx) (s : State) : Out := .next (seqEvtTimeout s c)

/-- SEQ_CTXc_CTRL with START or STOP, EN as it reads. -/
def seqCtrlWord (s : State) (c : Nat) (bit : Word) : Word :=
  (s.reg pgSeq (0x104 + 0x20 * c) &&& 0x80000000) ||| bit

/-- CONTEXT_START: START = 1 is written (R427, R428). -/
def execContextStart (m : Master) (c : SeqCtx) (s : State) : Out :=
  .next (doRegWrite s m pgSeq (0x104 + 0x20 * c) (seqCtrlWord s c 2))

/-- CONTEXT_STOP: STOP = 1 is written (R428). -/
def execContextStop (m : Master) (c : SeqCtx) (s : State) : Out :=
  .next (doRegWrite s m pgSeq (0x104 + 0x20 * c) (seqCtrlWord s c 1))

/-- CONTEXT_WATCHDOG (R428, R429). -/
def execContextWatchdog (c : SeqCtx) (s : State) : Out := .next (seqWatchdog s c)

end Sys2Proof.Machine
end

