-- ==== Sys2Proof/Machine/CmdStrm.lean ====
section
/-! DEFINITION. Commands of streams and of speculative processing (06, 07). -/

namespace Sys2Proof.Machine

/-- A port takes part in reception from its line: it runs and is UP (R77), and no test cuts it off (Table 3.6). -/
def portUp (s : State) (q : Nat) : Bool :=
  s.running (pgLink q) && linkState s q == 2 && !s.actIs (pgLink q) F.macTestPrbsEn
    && s.act (pgLink q) F.macTestLoopback != 1

/-- HEADER_COMPLETE: the Auxenos header of a frame in reception is complete (R171, R172, R176, R177, R494). -/
def execHeaderComplete (q : Port) (bytes : List Byte) (s : State) : Out :=
  .next (s.whenLive (fun s => if portUp s q && !draining s (pgLink q) then headerIn s q bytes else s))

/-- CHANNEL_HANDOFF: the last payload byte of channels of a frame in reception has come (R167, R174, R198, R216 to
R222). -/
def execChannelHandoff (q : Port) (bytes : List Byte) (s : State) : Out :=
  .next (s.whenLive (fun s => if portUp s q then sealRerun (handOff s q (bytes.take (s.act (pgLink q) F.macMaxlenMaxlen))) else s))

/-- PREDICTION_DEADLINE (R198, R200, R216, R221, R222, R224). -/
def execPredictionDeadline (c : CtxIx) (s : State) : Out := .next (s.whenLive (fun s => sealRerun (pdlEvent s c)))

/-- COMMIT_DEADLINE (R171, R175, R179 to R184, R198, R200, R206, R207, R217, R225, R230, R310, R494). -/
def execCommitDeadline (c : CtxIx) (s : State) : Out := .next (s.whenLive (fun s => sealRerun (cdlEvent s c)))

/-- CONTEXT_ENABLE: the word with EN of a context entry is written (R181, R188, R195, R196): word 2 of an ingress
entry, word 3 of an egress entry. -/
def execContextEnable (m : Master) (egress : Bool) (c : CtxIx) (v : Word) (s : State) : Out :=
  .next (doRegWrite s m ((if egress then 0x35 else 0x31) + c / 128) (c % 128 * 32 + (if egress then 12 else 8)) v)

/-- CONTEXT_KIND_WRITE: word 0 of a context entry, which holds KIND, is written (R195). -/
def execContextKindWrite (m : Master) (egress : Bool) (c : CtxIx) (v : Word) (s : State) : Out :=
  .next (doRegWrite s m ((if egress then 0x35 else 0x31) + c / 128) (c % 128 * 32) v)

/-- SEGMENT_SEND: a segment of a tick is sent, committed or muted (R163, R166, R167, R169, R190, R193, R421, R495). -/
def execSegmentSend (c : CtxIx) (seg : Fin 4) (s : State) : Out := .next (s.whenLive (fun s => segmentGo s c seg))

/-- SPECULATIVE_SEGMENT_START: a segment is started before its data is committed (R190, R191, R227). -/
def execSpeculativeSegmentStart (c : CtxIx) (seg : Fin 4) (s : State) : Out :=
  .next (s.whenLive (fun s => specStart s c seg))

/-- SEGMENT_RESEND: a stomped segment is sent again (R191). -/
def execSegmentResend (c : CtxIx) (seg : Fin 4) (s : State) : Out := .next (s.whenLive (fun s => segmentAgain s c seg))

/-- CORRECTION_SEND (R192, R228). -/
def execCorrectionSend (c : CtxIx) (s : State) : Out := .next (s.whenLive (fun s => correctionGo s c))

/-- AES67_PACKET_SEND (R193, R194, R421, R493); a draining STRG begins no packet (log 12). -/
def execAes67PacketSend (c : CtxIx) (s : State) : Out :=
  .next (if accepts s pgStrg then packetGo s c else s)

/-- RERUN_START (R217, R218, R239, R266). -/
def execRerunStart (s : State) : Out := .next (s.whenLive rerunBegin)

/-- RERUN_DONE (R218). -/
def execRerunDone (s : State) : Out := .next (s.whenLive rerunEnd)

/-- SAF_HOLD_EXPIRY: the ticks of a store-and-forward hold have passed (R223). -/
def execSafHoldExpiry (c : CtxIx) (s : State) : Out := .next (s.whenLive (fun s => safExpire s c))

/-- SAF_END: SPX_SAF_END is written with GO = 1 (R223). -/
def execSafEnd (m : Master) (c : CtxIx) (s : State) : Out :=
  .next (doRegWrite s m pgSpx 0x0C0 (0x80000000 ||| w32 c.val))

/-- CONE_TABLE_READY (R215, R247). -/
def execConeTableReady (s : State) : Out := .next (s.whenLive coneReady)

end Sys2Proof.Machine
end

