-- ==== Sys2Proof/Machine/CmdTime.lean ====
section
/-! DEFINITION. Commands of network time and pulse generation (04). -/

namespace Sys2Proof.Machine

/-- RATE_WRITE: TSU_RATE_HI is written (R111). -/
def execRateWrite (m : Master) (v : Word) (s : State) : Out := .next (doRegWrite s m pgTsu 0x05C v)

/-- STEP_REQUEST: TSU_STEP_CTRL is written with GO = 1 (R112). -/
def execStepRequest (m : Master) (v : Word) (s : State) : Out := .next (doRegWrite s m pgTsu 0x068 (v ||| 0x80000000))

/-- NOW_READ: a read of TSU_NOW_NS (R114). -/
def execNowRead (m : Master) (s : State) : Out := .next (doRegRead s m pgTsu 0x048)

/-- FRC_READ: a read of TSU_FRC_LO (R114). -/
def execFrcRead (m : Master) (s : State) : Out := .next (doRegRead s m pgTsu 0x040)

/-- TICK_TIME_READ: a read of TSU_TICK_NUM_LO (R126). -/
def execTickTimeRead (m : Master) (s : State) : Out := .next (doRegRead s m pgTsu 0x0B0)

/-- PPSIN_READ: a read of TSU_PPSIN_NS (R127). -/
def execPpsinRead (m : Master) (s : State) : Out := .next (doRegRead s m pgTsu 0x0C8)

/-- TXTS_POP: TSU_TXTS_CTRL.POP = 1 is written (R124). -/
def execTxtsPop (m : Master) (s : State) : Out := .next (doRegWrite s m pgTsu 0x0A4 1)

/-- PPS_IN_EDGE: a rising edge of PPS_IN (R127). DESIGN CHOICE: a disabled TSU drops the edge whole, with neither a count
nor an event (log 46). -/
def execPpsInEdge (frac : BitVec 17) (s : State) : Out := .next (s.whenRun pgTsu (fun s => ppsEdge s frac.toNat))

/-- GEN_ARM: TPG_GENn_CTRL is written with ARM = 1 (R130, R131, R132); `cfg` is PERIODIC, BASE and POL. -/
def execGenArm (m : Master) (n : Fin 8) (cfg : BitVec 3) (s : State) : Out :=
  .next (doRegWrite s m pgTpg (0x040 + 0x20 * n) (w32 (2 * cfg.toNat + 1)))

/-- GEN_DISARM: the same with ARM = 0 (R130). -/
def execGenDisarm (m : Master) (n : Fin 8) (cfg : BitVec 3) (s : State) : Out :=
  .next (doRegWrite s m pgTpg (0x040 + 0x20 * n) (w32 (2 * cfg.toNat)))

/-- PULSE_START: a pulse of a generator begins (R129). -/
def execPulseStart (x : PulseAt) (s : State) : Out := .next (s.whenRun pgTpg (fun s => pulseBegin s x.n x.cyc.toNat))

/-- PULSE_END: a pulse of a generator ends (R129, R130). -/
def execPulseEnd (x : PulseAt) (s : State) : Out := .next (s.whenRun pgTpg (fun s => pulseFinish s x.n x.cyc.toNat))

end Sys2Proof.Machine
end

