-- ==== Sys2Proof/Machine/Dispatch.lean ====
section
/-! DEFINITION. Which meaning each command has: one arm per row of `spec/opcode_table.json`. -/

namespace Sys2Proof.Machine

/-- The effect of a command on everything but the queue. -/
def exec (i : Instr) (s : State) : Host.Outcome State Fault Refusal :=
  match i with
  | .tickEvent frac => Sys2Proof.Machine.execTickEvent frac s
  | .localTickBoundary p => Sys2Proof.Machine.execLocalTickBoundary p s
  | .stallWatchdogExpiry p u rep => Sys2Proof.Machine.execStallWatchdogExpiry p u rep s
  | .unitRetryLimit p u ctx => Sys2Proof.Machine.execUnitRetryLimit p u ctx s
  | .blockReset p => Sys2Proof.Machine.execBlockReset p s
  | .blockResetDone p => Sys2Proof.Machine.execBlockResetDone p s
  | .subsystemWatchdogExpiry n => Sys2Proof.Machine.execSubsystemWatchdogExpiry n s
  | .livenessToken => Sys2Proof.Machine.execLivenessToken s
  | .deviceWatchdogExpiry => Sys2Proof.Machine.execDeviceWatchdogExpiry s
  | .refclkLoss => Sys2Proof.Machine.execRefclkLoss s
  | .registerWrite m addr v => Sys2Proof.Machine.execRegisterWrite m addr v s
  | .registerReadClear m addr => Sys2Proof.Machine.execRegisterReadClear m addr s
  | .defaultTargetAccess m addr be wr => Sys2Proof.Machine.execDefaultTargetAccess m addr be wr s
  | .drain m p => Sys2Proof.Machine.execDrain m p s
  | .srst m p => Sys2Proof.Machine.execSrst m p s
  | .blockEnable m p en => Sys2Proof.Machine.execBlockEnable m p en s
  | .faultFlagClear m p mask => Sys2Proof.Machine.execFaultFlagClear m p mask s
  | .faultForce m p mask => Sys2Proof.Machine.execFaultForce m p mask s
  | .pgTmoExpiry p => Sys2Proof.Machine.execPgTmoExpiry p s
  | .commitRequest m p atTick => Sys2Proof.Machine.execCommitRequest m p atTick s
  | .commitCancel m p => Sys2Proof.Machine.execCommitCancel m p s
  | .lockGained l => Sys2Proof.Machine.execLockGained l s
  | .lockLost l tx rx => Sys2Proof.Machine.execLockLost l tx rx s
  | .holdupExpiry l => Sys2Proof.Machine.execHoldupExpiry l s
  | .remoteFaultTimeout x => Sys2Proof.Machine.execRemoteFaultTimeout x s
  | .localFault x => Sys2Proof.Machine.execLocalFault x s
  | .anComplete q => Sys2Proof.Machine.execAnComplete q s
  | .frameReceive l info bytes => Sys2Proof.Machine.execFrameReceive l info bytes s
  | .pauseTimerExpiry q => Sys2Proof.Machine.execPauseTimerExpiry q s
  | .pauseRepeat q => Sys2Proof.Machine.execPauseRepeat q s
  | .frameTransmit l inst deferred cuts => Sys2Proof.Machine.execFrameTransmit l inst deferred cuts s
  | .launchTimeReached q express => Sys2Proof.Machine.execLaunchTimeReached q express s
  | .verifyFrameSend q => Sys2Proof.Machine.execVerifyFrameSend q s
  | .verifyTimeout q => Sys2Proof.Machine.execVerifyTimeout q s
  | .recoveryWindowClose l => Sys2Proof.Machine.execRecoveryWindowClose l s
  | .counterClear m l => Sys2Proof.Machine.execCounterClear m l s
  | .rateWrite m v => Sys2Proof.Machine.execRateWrite m v s
  | .stepRequest m v => Sys2Proof.Machine.execStepRequest m v s
  | .nowRead m => Sys2Proof.Machine.execNowRead m s
  | .frcRead m => Sys2Proof.Machine.execFrcRead m s
  | .tickTimeRead m => Sys2Proof.Machine.execTickTimeRead m s
  | .ppsinRead m => Sys2Proof.Machine.execPpsinRead m s
  | .txtsPop m => Sys2Proof.Machine.execTxtsPop m s
  | .ppsInEdge frac => Sys2Proof.Machine.execPpsInEdge frac s
  | .genArm m n cfg => Sys2Proof.Machine.execGenArm m n cfg s
  | .genDisarm m n cfg => Sys2Proof.Machine.execGenDisarm m n cfg s
  | .pulseStart x => Sys2Proof.Machine.execPulseStart x s
  | .pulseEnd x => Sys2Proof.Machine.execPulseEnd x s
  | .marker n ph => Sys2Proof.Machine.execMarker n ph s
  | .markerTimeout n => Sys2Proof.Machine.execMarkerTimeout n s
  | .refsMeasurement ofs freq => Sys2Proof.Machine.execRefsMeasurement ofs freq s
  | .candidatePrioWrite m n prio => Sys2Proof.Machine.execCandidatePrioWrite m n prio s
  | .ptpValid m valid => Sys2Proof.Machine.execPtpValid m valid s
  | .ptpKeepalive m => Sys2Proof.Machine.execPtpKeepalive m s
  | .ptpTimeout => Sys2Proof.Machine.execPtpTimeout s
  | .dpllLock => Sys2Proof.Machine.execDpllLock s
  | .dpllUnlock => Sys2Proof.Machine.execDpllUnlock s
  | .phstepRequest m v => Sys2Proof.Machine.execPhstepRequest m v s
  | .realignOutputs m => Sys2Proof.Machine.execRealignOutputs m s
  | .numberLoad m => Sys2Proof.Machine.execNumberLoad m s
  | .tickOffsetWrite m v => Sys2Proof.Machine.execTickOffsetWrite m v s
  | .tickRead m => Sys2Proof.Machine.execTickRead m s
  | .headerComplete q bytes => Sys2Proof.Machine.execHeaderComplete q bytes s
  | .channelHandoff q bytes => Sys2Proof.Machine.execChannelHandoff q bytes s
  | .predictionDeadline c => Sys2Proof.Machine.execPredictionDeadline c s
  | .commitDeadline c => Sys2Proof.Machine.execCommitDeadline c s
  | .contextEnable m egress c v => Sys2Proof.Machine.execContextEnable m egress c v s
  | .contextKindWrite m egress c v => Sys2Proof.Machine.execContextKindWrite m egress c v s
  | .segmentSend c seg => Sys2Proof.Machine.execSegmentSend c seg s
  | .speculativeSegmentStart c seg => Sys2Proof.Machine.execSpeculativeSegmentStart c seg s
  | .segmentResend c seg => Sys2Proof.Machine.execSegmentResend c seg s
  | .correctionSend c => Sys2Proof.Machine.execCorrectionSend c s
  | .aes67PacketSend c => Sys2Proof.Machine.execAes67PacketSend c s
  | .rerunStart => Sys2Proof.Machine.execRerunStart s
  | .rerunDone => Sys2Proof.Machine.execRerunDone s
  | .safHoldExpiry c => Sys2Proof.Machine.execSafHoldExpiry c s
  | .safEnd m c => Sys2Proof.Machine.execSafEnd m c s
  | .coneTableReady => Sys2Proof.Machine.execConeTableReady s
  | .taskStart t => Sys2Proof.Machine.execTaskStart t s
  | .taskFinish t r => Sys2Proof.Machine.execTaskFinish t r s
  | .ringDelivery t => Sys2Proof.Machine.execRingDelivery t s
  | .imageCheck m => Sys2Proof.Machine.execImageCheck m s
  | .imageCheckDone => Sys2Proof.Machine.execImageCheckDone s
  | .imageBaseWrite m v => Sys2Proof.Machine.execImageBaseWrite m v s
  | .preloadDone => Sys2Proof.Machine.execPreloadDone s
  | .tileBistStart m t mode => Sys2Proof.Machine.execTileBistStart m t mode s
  | .tileBistDone t fail => Sys2Proof.Machine.execTileBistDone t fail s
  | .tdmFrameReceive n wire => Sys2Proof.Machine.execTdmFrameReceive n wire s
  | .misplacedFrameStart n => Sys2Proof.Machine.execMisplacedFrameStart n s
  | .tdmClockLoss n => Sys2Proof.Machine.execTdmClockLoss n s
  | .tdmFrameTransmit x => Sys2Proof.Machine.execTdmFrameTransmit x s
  | .aes3Subframe n pre bits biphase => Sys2Proof.Machine.execAes3Subframe n pre bits biphase s
  | .aes3Lock n hz => Sys2Proof.Machine.execAes3Lock n hz s
  | .aes3LockLoss n => Sys2Proof.Machine.execAes3LockLoss n s
  | .aes3FrameTransmit x => Sys2Proof.Machine.execAes3FrameTransmit x s
  | .asrcEnable m ch v => Sys2Proof.Machine.execAsrcEnable m ch v s
  | .asrcSettled ch ratio => Sys2Proof.Machine.execAsrcSettled ch ratio s
  | .asrcSourceLoss ch => Sys2Proof.Machine.execAsrcSourceLoss ch s
  | .carrierPeriod ch k => Sys2Proof.Machine.execCarrierPeriod ch k s
  | .overcurrentTrip oc => Sys2Proof.Machine.execOvercurrentTrip oc s
  | .boostHoldExpiry g => Sys2Proof.Machine.execBoostHoldExpiry g s
  | .retryExpiry ch => Sys2Proof.Machine.execRetryExpiry ch s
  | .prechargeDone ch => Sys2Proof.Machine.execPrechargeDone ch s
  | .tripCountClear ch => Sys2Proof.Machine.execTripCountClear ch s
  | .unlatch m ch => Sys2Proof.Machine.execUnlatch m ch s
  | .safePinAssert => Sys2Proof.Machine.execSafePinAssert s
  | .safePinRelease => Sys2Proof.Machine.execSafePinRelease s
  | .dcWindow ch => Sys2Proof.Machine.execDcWindow ch s
  | .boostPeriod g k => Sys2Proof.Machine.execBoostPeriod g k s
  | .boostIlim g => Sys2Proof.Machine.execBoostIlim g s
  | .boostOvpPin g low => Sys2Proof.Machine.execBoostOvpPin g low s
  | .senseTimeout g => Sys2Proof.Machine.execSenseTimeout g s
  | .thermalClear g => Sys2Proof.Machine.execThermalClear g s
  | .senseFrame g wire => Sys2Proof.Machine.execSenseFrame g wire s
  | .senseClockLoss g => Sys2Proof.Machine.execSenseClockLoss g s
  | .senseCountCheck g => Sys2Proof.Machine.execSenseCountCheck g s
  | .exposureSecond e => Sys2Proof.Machine.execExposureSecond e s
  | .captureGo m v => Sys2Proof.Machine.execCaptureGo m v s
  | .captureStop m => Sys2Proof.Machine.execCaptureStop m s
  | .sweepGo m mask => Sys2Proof.Machine.execSweepGo m mask s
  | .sweepStepEnd => Sys2Proof.Machine.execSweepStepEnd s
  | .sweepAbort m mask => Sys2Proof.Machine.execSweepAbort m mask s
  | .pilotWindow ch => Sys2Proof.Machine.execPilotWindow ch s
  | .pilotCapture m => Sys2Proof.Machine.execPilotCapture m s
  | .queuePush m last w => Sys2Proof.Machine.execQueuePush m last w s
  | .pushAbort m => Sys2Proof.Machine.execPushAbort m s
  | .itemTimeout m => Sys2Proof.Machine.execItemTimeout m s
  | .queuePop m => Sys2Proof.Machine.execQueuePop m s
  | .stallTimeout m => Sys2Proof.Machine.execStallTimeout m s
  | .heldItemTimeout q => Sys2Proof.Machine.execHeldItemTimeout q s
  | .queueEnable m q v => Sys2Proof.Machine.execQueueEnable m q v s
  | .flushRequest m q => Sys2Proof.Machine.execFlushRequest m q s
  | .linkEccError q uncorr lost => Sys2Proof.Machine.execLinkEccError q uncorr lost s
  | .transactionResponse x => Sys2Proof.Machine.execTransactionResponse x s
  | .eccWriteBack b => Sys2Proof.Machine.execEccWriteBack b s
  | .scrubStep x => Sys2Proof.Machine.execScrubStep x s
  | .bistWindowPhase b bad => Sys2Proof.Machine.execBistWindowPhase b bad s
  | .bankInitDone b => Sys2Proof.Machine.execBankInitDone b s
  | .seal m => Sys2Proof.Machine.execSeal m s
  | .wipe m => Sys2Proof.Machine.execWipe m s
  | .wipeDone => Sys2Proof.Machine.execWipeDone s
  | .transactionTimeout m => Sys2Proof.Machine.execTransactionTimeout m s
  | .lockBreak m tgt => Sys2Proof.Machine.execLockBreak m tgt s
  | .nop c => Sys2Proof.Machine.execNop c s
  | .wr c => Sys2Proof.Machine.execWr c s
  | .rmw c => Sys2Proof.Machine.execRmw c s
  | .waitTick c => Sys2Proof.Machine.execWaitTick c s
  | .waitAt c => Sys2Proof.Machine.execWaitAt c s
  | .waitEvt c => Sys2Proof.Machine.execWaitEvt c s
  | .ifEq c => Sys2Proof.Machine.execIfEq c s
  | .jmp c => Sys2Proof.Machine.execJmp c s
  | .call c => Sys2Proof.Machine.execCall c s
  | .ret c => Sys2Proof.Machine.execRet c s
  | .signal c => Sys2Proof.Machine.execSignal c s
  | .commit c => Sys2Proof.Machine.execCommit c s
  | .endList c => Sys2Proof.Machine.execEndList c s
  | .actionReply c => Sys2Proof.Machine.execActionReply c s
  | .waitTickRelease c => Sys2Proof.Machine.execWaitTickRelease c s
  | .waitAtRelease c => Sys2Proof.Machine.execWaitAtRelease c s
  | .waitEvtTimeout c => Sys2Proof.Machine.execWaitEvtTimeout c s
  | .contextStart m c => Sys2Proof.Machine.execContextStart m c s
  | .contextStop m c => Sys2Proof.Machine.execContextStop m c s
  | .contextWatchdog c => Sys2Proof.Machine.execContextWatchdog c s
  | .read f => Sys2Proof.Machine.execRead f s
  | .write f => Sys2Proof.Machine.execWrite f s
  | .statusPoll f => Sys2Proof.Machine.execStatusPoll f s
  | .burstRead f => Sys2Proof.Machine.execBurstRead f s
  | .burstWrite f => Sys2Proof.Machine.execBurstWrite f s
  | .unknownCommand cmd f => Sys2Proof.Machine.execUnknownCommand cmd f s
  | .frameAbort => Sys2Proof.Machine.execFrameAbort s
  | .frameTimeout => Sys2Proof.Machine.execFrameTimeout s
  | .deferredComplete => Sys2Proof.Machine.execDeferredComplete s
  | .holdTimeout => Sys2Proof.Machine.execHoldTimeout s
  | .attnClear m sub mask => Sys2Proof.Machine.execAttnClear m sub mask s
  | .networkRequest q src header payload tail => Sys2Proof.Machine.execNetworkRequest q src header payload tail s
  | .networkRequestRun => Sys2Proof.Machine.execNetworkRequestRun s
  | .faultMessageAccept => Sys2Proof.Machine.execFaultMessageAccept s
  | .cease => Sys2Proof.Machine.execCease s
  | .shadowEnd => Sys2Proof.Machine.execShadowEnd s
  | .recordPop m => Sys2Proof.Machine.execRecordPop m s
  | .clearAll m => Sys2Proof.Machine.execClearAll m s
  | .firstClr m => Sys2Proof.Machine.execFirstClr m s
  | .outRelease m => Sys2Proof.Machine.execOutRelease m s
  | .outSet m => Sys2Proof.Machine.execOutSet m s
  | .drvRelease m mask => Sys2Proof.Machine.execDrvRelease m mask s
  | .deviceResetAssert => Sys2Proof.Machine.execDeviceResetAssert s
  | .heartbeatSend => Sys2Proof.Machine.execHeartbeatSend s
  | .heartbeatReceive bytes => Sys2Proof.Machine.execHeartbeatReceive bytes s
  | .heartbeatMiss => Sys2Proof.Machine.execHeartbeatMiss s
  | .healthSend => Sys2Proof.Machine.execHealthSend s
  | .healthReceive bytes => Sys2Proof.Machine.execHealthReceive bytes s
  | .sequenceMapSend => Sys2Proof.Machine.execSequenceMapSend s
  | .listenExpiry => Sys2Proof.Machine.execListenExpiry s
  | .promote m => Sys2Proof.Machine.execPromote m s
  | .handover m => Sys2Proof.Machine.execHandover m s
  | .rejoin m => Sys2Proof.Machine.execRejoin m s
  | .releasingEnd => Sys2Proof.Machine.execReleasingEnd s
  | .verdictDone => Sys2Proof.Machine.execVerdictDone s
  | .verdictTimeout => Sys2Proof.Machine.execVerdictTimeout s
  | .vauxApply => Sys2Proof.Machine.execVauxApply s
  | .supplyOutOfRange rail => Sys2Proof.Machine.execSupplyOutOfRange rail s
  | .resetAssert => Sys2Proof.Machine.execResetAssert s
  | .startUp mode rolePref fuses => Sys2Proof.Machine.execStartUp mode rolePref fuses s
  | .pllLock => Sys2Proof.Machine.execPllLock s
  | .deviceReady bistFail => Sys2Proof.Machine.execDeviceReady bistFail s
  | .devRun m => Sys2Proof.Machine.execDevRun m s
  | .swrst m key => Sys2Proof.Machine.execSwrst m key s
  | .freezePin => Sys2Proof.Machine.execFreezePin s
  | .freezeRequest m => Sys2Proof.Machine.execFreezeRequest m s
  | .freezeStop => Sys2Proof.Machine.execFreezeStop s
  | .thaw m pinLow => Sys2Proof.Machine.execThaw m pinLow s
  | .snapDataRead m => Sys2Proof.Machine.execSnapDataRead m s
  | .dbgAccess op addr data => Sys2Proof.Machine.execDbgAccess op addr data s
  | .extest => Sys2Proof.Machine.execExtest s
  | .samplePreload => Sys2Proof.Machine.execSamplePreload s
  | .idcode => Sys2Proof.Machine.execIdcode s
  | .bypass => Sys2Proof.Machine.execBypass s
  | .tapReset => Sys2Proof.Machine.execTapReset s
  | .lcArm m v => Sys2Proof.Machine.execLcArm m v s
  | .lcArmLapse => Sys2Proof.Machine.execLcArmLapse s
  | .lcGo m => Sys2Proof.Machine.execLcGo m s
  | .lcDone => Sys2Proof.Machine.execLcDone s
  | .tamperAssert pin => Sys2Proof.Machine.execTamperAssert pin s
  | .tamperRelease => Sys2Proof.Machine.execTamperRelease s
  | .pllLockLoss pll => Sys2Proof.Machine.execPllLockLoss pll s
  | .vauxRemove => Sys2Proof.Machine.execVauxRemove s
  | .sealDone => Sys2Proof.Machine.execSealDone s
  | .senseMisplacedFrameStart g => Sys2Proof.Machine.execSenseMisplacedFrameStart g s
  | .localFaultClear l => Sys2Proof.Machine.execLocalFaultClear l s
  | .remoteFaultReceived l => Sys2Proof.Machine.execRemoteFaultReceived l s
  | .anRestart q => Sys2Proof.Machine.execAnRestart q s

end Sys2Proof.Machine
end

