-- ==== Sys2Proof/Machine/Idle.lean ====
section
/-! DEFINITION. The idle cycle: what passes when no command waits (log 4). -/

namespace Sys2Proof.Machine

/-- One cycle of CLK_TS: the free-running counter advances while the core works (R108; R525). While the freeze stands,
only the time since its stop edge is counted (Table 20.10). -/
def idleCycle (s : State) : State :=
  if s.live then { s with time := { s.time with frc := s.time.frc + 1 } }
  else if s.dev.frozen then { s with dev := { s.dev with frzCyc := s.dev.frzCyc + 1 } }
  else s

end Sys2Proof.Machine
end

