-- ==== Sys2Proof/Safety.lean ====
section
/-! DEFINITION. The terms in which the statements speak of runs: when an access is granted, what its answer leaves in the
state, and what a command leaves alone. -/

namespace Sys2Proof.Safety

open Sys2Proof.Machine

/-- A register access of a master is granted at once: the master can reach the register window (R42), the core works
(R519, R524) and its Memory subsystem does not restart (R17), the window is not locked and no broken lock sequence of the
master runs (R407), no read of the master stalls at the queue manager (R378), and no slice changes (R405). -/
def granted (s : State) (m : Master) : Bool :=
  s.live && m.reachesWindow && (s.mx.locks.find 8).isNone && (s.mx.broken.find (masterNo m * 16 + 8)).isNone
    && (s.qport (masterNo m)).stall.isNone && !memStalled s && s.mx.slicing.isEmpty

/-- The state with the answer of the last transaction: response OK, the reply code and the data (R67, R402). -/
def answered (s : State) (reply : Nat) (data : Word) : State :=
  { s with mx := { s.mx with lastResp := 0, lastData := data, lastReply := reply } }

/-- The block is disabled, stopped and not resetting: a live write is in force at once (R33, R51). -/
def idle (s : State) (p : Nat) : Bool := !engaged s p

/-- Memory and the waiting commands are as before. -/
def sameMemory (s t : State) : Prop := t.mem = s.mem ∧ t.pending = s.pending

/-- Every register of a page other than those listed reads as before. -/
def otherPages (s t : State) (ps : List Nat) : Prop := ∀ p ofs, ofs < 4096 → p ∉ ps → t.reg p ofs = s.reg p ofs

/-- Bank 2 holds the state that tasks keep there (STATE_LOC, Table 8.4). -/
abbrev inB2 (x : Nat) : Prop := bankBase 2 ≤ x ∧ x < bankBase 2 + bankSize 2

/-- A commit of a context's channels: no waiting command and no byte outside B2 changes, and none at all where no CONCEAL
task of its strips keeps its state in B2. -/
def concealFrame (s t : State) (c : Nat) : Prop :=
  t.pending = s.pending ∧ (∀ x, ¬ inB2 x → Memory.read t.mem x = Memory.read s.mem x) ∧
  ((∀ ch a, ch < ingChans s c → concealTask s (ingStrip s c + ch) = some a →
    (s.taskAt a.1 a.2).task.stateB2 = false) → t.mem = s.mem)

/-- Word i of a host command meets a bank that serves it at once: the host reaches it, it is filled and unlocked, and the
word is not in error (R392 to R394, R402, R407). -/
abbrev hostBank (s : State) (c : HostCmd) (i : Nat) : Prop :=
  targetOf s 0 (c.at_ i) 0xF (isWriteCmd c.cmd) < 8 ∧
  mustWait s 0 (targetOf s 0 (c.at_ i) 0xF (isWriteCmd c.cmd)) = false ∧
  s.mx.locks.find (targetOf s 0 (c.at_ i) 0xF (isWriteCmd c.cmd)) = none ∧
  s.mx.broken.find (targetOf s 0 (c.at_ i) 0xF (isWriteCmd c.cmd)) = none ∧
  c.at_ i / 4 * 4 ∉ s.mx.dead ∧ c.at_ i / 4 * 4 ∉ s.mx.wback ∧ s.mx.wiping = none

/-- Every word of a host command meets such a bank, no earlier pop is held, and a burst's pieces of 16 beats do not exceed
MAX_TXN (R403, R407); no slice changes (R405). -/
abbrev hostBanks (s : State) (c : HostCmd) : Prop :=
  (∀ i < c.n, hostBank s c i) ∧ s.mx.slicing = [] ∧ (s.qport 0).stall = none ∧ (s.qport 0).stallRes = none ∧
  (c.n + 15) / 16 ≤ s.act pgXbr F.xbrLockMaxTxn

end Sys2Proof.Safety
end

