-- ==== Sys2Proof/Certificates/Slice0/Obligations.lean ====
section
/-! DEFINITION. The statements about the model. Each docstring names the rules of spec/ it formalises, or the log entry of
the model's own choice it rests on. -/

open Sys2Proof Sys2Proof.Machine Sys2Proof.Safety

-- The queue, reset and memory.

/-- The model's own convention: a step takes the command at the front of the queue and runs it on the rest (log 1). -/
def Obligations.StepRunsTheFrontCommand : Prop :=
  ∀ (c : Instr) (rest : List Instr) (s : State), s.pending = c :: rest → step s = exec c { s with pending := rest }

/-- The model's choice (log 4): with no command waiting, one cycle of the free-running counter passes while the core
works (R108); in a freeze the counter stands and the time since the stop edge is counted (R525); otherwise nothing
changes. -/
def Obligations.IdleStepCountsOneCycle : Prop :=
  ∀ s : State, s.pending = [] →
    (s.live = true → step s = .next { s with time := { s.time with frc := s.time.frc + 1 } }) ∧
    (s.dev.frozen = true → step s = .next { s with dev := { s.dev with frzCyc := s.dev.frzCyc + 1 } }) ∧
    (s.live = false → s.dev.frozen = false → step s = .next s)

/-- PG_CTRL.EN (R50): it resets to 1 on the pages named and to 0 on every other register page; on DEV, CLK, HIF, XBR,
MEM0 to MEM7, SEC and FLT a write of 0 is ignored, EN reading 1, and no register of these pages is of class F.
PG_STAT.RUN is at reset what EN is. Completes: blockEnable. -/
def Obligations.EnableAfterReset : Prop :=
  ∀ p : Page, isRegPage p = true →
    State.reset.is p F.ctrlEn
      = [0, 1, 2, 3, 4, 5, 6, 7, 8, 9, 10, 11, 12, 0x10, 0x28, 0x2C, 0x2D, 0xF0].contains p.val ∧
    State.reset.running p = State.reset.is p F.ctrlEn ∧
    ([0, 1, 2, 3, 4, 5, 6, 7, 8, 9, 10, 11, 12, 0x10].contains p.val = true →
      (∀ (s : State) (m : Master), granted s m = true → s.is p F.ctrlEn = true →
        ∃ t, exec (.blockEnable m p false) s = .next t ∧ t.mx.lastReply = 0 ∧ t.is p F.ctrlEn = true) ∧
      (∀ d ∈ regsOf (pageKind p), d.cls ≠ .frozen))

/-- The reset state of the model: memory lists nothing, no command waits, the device is in INIT with its core released
(log 2), every register page shows its own page number and the type code of its kind (R44), no fault flag and no event
flag is set, and every channel of the drive is OFF. -/
def Obligations.ResetLeavesEveryPageClear : Prop :=
  State.reset.mem = [] ∧ State.reset.pending = [] ∧ State.reset.devState = 1 ∧ State.reset.live = true ∧
  (∀ p : Page, isRegPage p = true →
    State.reset.rd p F.pgIndex = p.val ∧ State.reset.rd p F.pgType = pageType (pageKind p) ∧
    State.reset.reg p 0x010 = 0 ∧ State.reset.reg p 0x020 = 0 ∧ State.reset.rd p F.statResetCount = 0) ∧
  (∀ ch : Fin 16, State.reset.rd (pgDrv ch) F.drvStatState = 0)

/-- At reset, memory has its canonical form. -/
def Obligations.MemoryIsCanonicalAtReset : Prop := Memory.wf State.reset.mem

/-- The canonical form of memory, addresses rising and no zero byte listed, is kept by every step, whatever command
waits and whatever state the device is in: whoever writes a bank, writes it through the one memory the spec gives it.
-/
def Obligations.EveryStepKeepsMemoryCanonical : Prop :=
  ∀ s t : State, Memory.wf s.mem → step s = .next t → Memory.wf t.mem

/-- Every command of the table completes, in every state and with every operand: it answers a next state, never a
stop; and no command sends another: what it does leaves the queue of waiting commands as it is. -/
def Obligations.NoCommandTouchesTheQueue : Prop :=
  ∀ (c : Instr) (s : State), ∃ t, exec c s = .next t ∧ t.pending = s.pending

/-- A bank write through port B (R390): the bytes whose byte-enables are 1 take the new value, the others keep theirs,
the word then reads back, and every byte of memory outside the word reads as before. It holds of a word that is not in
error, of a bank that is not being wiped. -/
def Obligations.BankWriteReplacesEnabledBytes : Prop :=
  ∀ (s : State) (b a : Nat) (w : Word) (be : BitVec 4), Memory.wf s.mem → a % 4 = 0 → be ≠ 0 →
    s.mx.wiping = none → s.mx.dead.contains a = false →
    ∃ t, bankWrite s b a w be = (0, t) ∧ Memory.wf t.mem ∧
      (∀ i : Fin 4, Memory.read t.mem (a + i.val) =
        if be.getLsbD i.val then w.extractLsb' (8 * i.val) 8 else Memory.read s.mem (a + i.val)) ∧
      bankRead t b a = (t.memWord a, 0) ∧
      (∀ x, (x < a ∨ a + 4 ≤ x) → Memory.read t.mem x = Memory.read s.mem x)

-- Register accesses common to every page.

/-- PG_CTRL.DRAIN and SRST are set by their commands, whatever they held (R14, R51): the write is answered OK, EN
keeps its value, a block that is neither disabled nor resetting keeps working with its old DRAIN until its boundary
(R33), and every other register, memory and queue is as before. Completes: drain, srst. -/
def Obligations.DrainAndSoftResetWriteTheirBits : Prop :=
  ∀ (s : State) (m : Master) (p : Page), granted s m = true → isRegPage p = true →
    (∃ t, exec (.drain m p) s = .next t ∧ t.mx.lastReply = 0 ∧ t.is p F.ctrlDrain = true ∧
      t.is p F.ctrlEn = (s.is p F.ctrlEn || enFixed (pageKind p)) ∧
      (engaged s p = true → t.act p F.ctrlDrain = s.act p F.ctrlDrain) ∧
      (∀ q r, r < 4096 → ¬ (q = p.val ∧ r = 0x008) → t.reg q r = s.reg q r) ∧ sameMemory s t) ∧
    (∃ t, exec (.srst m p) s = .next t ∧ t.mx.lastReply = 0 ∧ t.is p F.ctrlSrst = true ∧
      t.is p F.ctrlEn = (s.is p F.ctrlEn || enFixed (pageKind p)) ∧
      t.is p F.ctrlDrain = s.is p F.ctrlDrain ∧
      (∀ q r, r < 4096 → ¬ (q = p.val ∧ r = 0x008) → t.reg q r = s.reg q r) ∧ sameMemory s t)

/-- Clearing flags and forcing faults (R53, R54): a flag of PG_FLT written 1 clears and no other; a bit written to
PG_FLT_FORCE waits for the block's boundary, together with those that wait already. Nothing else changes but the
answer OK: no record, no message, no other register. Completes: faultFlagClear, faultForce. -/
def Obligations.FaultFlagsClearAndForce : Prop :=
  ∀ (s : State) (m : Master) (p : Page) (mask : Word), granted s m = true → isRegPage p = true →
    exec (.faultFlagClear m p mask) s
      = .next (answered (s.setReg p 0x010 (s.reg p 0x010 &&& ~~~(mask &&& fltMask (pageKind p)))) 0 0) ∧
    exec (.faultForce m p mask) s
      = .next (answered { s with arch := { s.arch with
          force := s.arch.force.put p (s.arch.force.get 0 p ||| (mask &&& fltMask (pageKind p))) } } 0 0)

/-- PG_CTRL.EN (R50, R51): where the device has left start-up and the block's configuration lets it start, the write
is answered OK and EN reads the value written, or 1 on a page whose EN is fixed; PG_STAT.RUN does not move before the
block's boundary, and memory is as before. A write of 1 to a page that does not reset to EN = 1 before READY is
answered BUSY_RETRY and changes nothing (R520). Completes: blockEnable. -/
def Obligations.EnableWaitsForTheBoundary : Prop :=
  ∀ (s : State) (m : Master) (p : Page) (en : Bool), granted s m = true → isRegPage p = true →
    ((en = true → s.is p F.ctrlEn = false → 2 ≤ s.devState ∧ enableOk s p = true) →
      ∃ t, exec (.blockEnable m p en) s = .next t ∧ t.mx.lastReply = 0 ∧
        t.is p F.ctrlEn = (en || enFixed (pageKind p)) ∧ t.running p = s.running p ∧ sameMemory s t) ∧
    (en = true → s.is p F.ctrlEn = false → s.devState < 2 → enReset (pageKind p) = false →
      exec (.blockEnable m p en) s = .next (answered s 8 0))

/-- A commit request (R62, R63): on an engaged block with none waiting it waits for the block's boundary, GO and
PENDING reading 1; while one waits, another is ignored, and a cancel ends it; the shadows, memory and every register
but PG_COMMIT are as before. Completes: commitRequest, commitCancel. -/
def Obligations.CommitRequestsWaitAndCancel : Prop :=
  ∀ (s : State) (m : Master) (p : Page), granted s m = true → isRegPage p = true →
    (engaged s p = true → s.is p F.cmtPending = false →
      ∃ t, exec (.commitRequest m p false) s = .next t ∧ t.is p F.cmtPending = true ∧ t.is p F.cmtGo = true ∧
        t.is p F.cmtAtTick = false ∧ t.is p F.cmtFailed = false ∧ t.shadow = s.shadow ∧
        (∀ q r, r < 4096 → ¬ (q = p.val ∧ r = 0x028) → t.reg q r = s.reg q r) ∧ sameMemory s t) ∧
    (∀ atTick, s.is p F.cmtPending = true → exec (.commitRequest m p atTick) s = .next (answered s 0 0)) ∧
    (s.is p F.cmtPending = true →
      ∃ t, exec (.commitCancel m p) s = .next t ∧ t.is p F.cmtPending = false ∧ t.is p F.cmtGo = false ∧
        t.is p F.cmtAtTick = s.is p F.cmtAtTick ∧ t.shadow = s.shadow ∧
        (∀ q r, r < 4096 → ¬ (q = p.val ∧ r = 0x028) → t.reg q r = s.reg q r) ∧ sameMemory s t)

/-- The layout of a register page (R45): block registers lie from 0x040 to 0x7FF, the shadow window from 0x800; an
offset that a block's map does not define, and the header offsets from 0x038, answer OK, read 0 and ignore writes,
with no fault. PG_SCRATCH takes any word, which reads back at once. A write of an offset whose register is of class F
is refused while EN is 1 (Table 2.12): the reply is FROZEN, CFG_FROZEN is set in PG_FLT, and the register keeps its
word. Completes: registerWrite, registerReadClear. -/
def Obligations.RegisterWriteOutcomes : Prop :=
  ∀ (s : State) (m : Master) (p : Page) (ofs : Nat) (v : Word), granted s m = true → isRegPage p = true → ofs % 4 = 0 →
    (∀ d ∈ regsOf (pageKind p), 0x040 ≤ d.base ∧ d.base + d.stride * (d.count - 1) < 0x800) ∧
    (0x800 ≤ ofs → ∀ k, regWord s k p ofs = shadowWord s p (ofs - 0x800)) ∧
    (∀ h ∈ [0x038, 0x03C],
      exec (.registerWrite m (regAddr p h) v) s = .next (answered s 0 0) ∧
      exec (.registerReadClear m (regAddr p h)) s = .next (answered s 0 0)) ∧
    (exec (.registerWrite m (regAddr p 0x034) v) s = .next (answered (putLive s p 0x034 v) 0 0)) ∧
    (0x040 ≤ ofs → ofs < 0x800 → descOf s p ofs = none → inPop p ofs = false →
      exec (.registerWrite m (regAddr p ofs) v) s = .next (answered s 0 0) ∧
      exec (.registerReadClear m (regAddr p ofs)) s = .next (answered s 0 0)) ∧
    (∀ d, 0x040 ≤ ofs → ofs < 0x800 → descOf s p ofs = some d → d.cls = .frozen → d.writable = true →
      ownEnPage (pageKind p) = false → p.val ≠ pgDbg → s.is p F.ctrlEn = true →
      ∃ t, exec (.registerWrite m (regAddr p ofs) v) s = .next t ∧ t.mx.lastReply = 5 ∧
        t.reg p ofs = s.reg p ofs ∧ (t.reg p 0x010).getLsbD 1 = true ∧ sameMemory s t)

/-- A read clears the RC fields it returns (R59): the master is answered the word with its counts, and only those
fields of that register change. It is said of the counters that no page shows through a latch or reloads at the read;
the counters of a port that Survey keeps are said in `PortTimersAndCountersFollowTheirRules`. Completes:
registerReadClear. -/
def Obligations.ReadClearsCounters : Prop :=
  ∀ (s : State) (m : Master) (p : Page) (ofs : Nat) (d : RegDesc), granted s m = true → pageKind p ≠ .reserved →
    ofs % 4 = 0 → ofs < 0x800 → (isRegPage p = true → 0x040 ≤ ofs) → descOf s p ofs = some d → d.rcs = 0 → d.rc ≠ 0 →
    pageKind p ≠ .tsu → pageKind p ≠ .mcg → ¬ (pageKind p = .sns ∧ ofs = 0x060) → ¬ (p.val = pgQmg ∧ ofs = 0x044) →
    ¬ (p.val = pgSpx ∧ ofs = 0x04C) → ¬ (p.val = pgLatg ∧ ofs = 0x05C) → inPop p ofs = false →
    ¬ (p.val = pgDbg ∧ ofs = 0x068) → pageView s (masterNo m) p ofs = none →
    exec (.registerReadClear m (regAddr p ofs)) s
      = .next (answered (s.setReg p ofs (s.reg p ofs &&& ~~~d.rc)) 0 (s.reg p ofs))

/-- The default target (R40, R42, R43, R44): an access outside the regions, or of the register window by a master that
cannot reach it, of an address not a multiple of 4, with byte-enables other than all four, or of a reserved page, is
answered DECODE_ERR with data 0; XBR counts it and keeps its address, DECODE_ERR is set in XBR's PG_FLT, and no
register of another page and no byte of memory changes. Completes: defaultTargetAccess. -/
def Obligations.DefaultTargetAnswersDecodeErr : Prop :=
  ∀ (s : State) (m : Master) (addr : Word) (be : BitVec 4) (wr : Option Word), s.live = true →
    bankOf addr.toNat = none →
    (windowOf addr.toNat = none ∨ m.reachesWindow = false ∨ addr.toNat % 4 ≠ 0 ∨ be ≠ 0xF ∨
      ∃ p ofs, windowOf addr.toNat = some (p, ofs) ∧ pageKind p = .reserved) →
    ∃ t, exec (.defaultTargetAccess m addr be wr) s = .next t ∧ t.mx.lastReply = 2 ∧ t.mx.lastData = 0 ∧
      t.rd pgXbr F.xbrCntDecodeCount = satAdd F.xbrCntDecodeCount.width (s.rd pgXbr F.xbrCntDecodeCount) 1 ∧
      t.reg pgXbr F.xbrLastErrAddr.ofs = addr ∧ t.is pgXbr F.xbrFltDecodeErr = true ∧
      otherPages s t [pgXbr] ∧ sameMemory s t

/-- In a freeze (R68, R527) writes of pages other than HIF and DBG are answered FROZEN and change nothing, and a read
of any page but the pop window and DBG_SNAP_DATA returns the register's word and changes nothing: it clears no RC
field. Completes: registerWrite, registerReadClear. -/
def Obligations.FreezeRefusesWrites : Prop :=
  ∀ (s : State) (m : Master) (p : Page) (ofs : Nat) (v : Word), s.dev.phase = .on → s.dev.frozen = true →
    m.reachesWindow = true → s.mx.slicing = [] → pageKind p ≠ .reserved → ofs < 4096 → ofs % 4 = 0 →
    (p.val ≠ pgHif → p.val ≠ pgDbg → exec (.registerWrite m (regAddr p ofs) v) s = .next (answered s 5 0)) ∧
    (inPop p ofs = false → ¬ (p.val = pgDbg ∧ ofs = 0x068) →
      exec (.registerReadClear m (regAddr p ofs)) s = .next (answered s 0 (regWord s (masterNo m) p ofs)))
-- Architecture: ticks, watchdogs, resets (01, 20).

/-- TICK_EVENT (R31, R126, R157): with no number load waiting, the tick number advances by 1 modulo 2^48, the first
tick event since reset beginning tick 0; the local time of the tick's start is kept, and MCG_PTP_NERR.VALID shows
whether candidate 0 is selected and the DPLL LOCKED. A waiting load of the number (R158) makes the number that of PTP
time. No block's boundary passes with it: memory, the queue, and every page but MCG, HIF and SEQ are as before.
Completes: tickEvent. -/
def Obligations.TickEventAdvancesTheNumber : Prop :=
  ∀ (s : State) (frac : BitVec 17), s.live = true →
    ∃ t, exec (.tickEvent frac) s = .next t ∧ t.time.ticking = true ∧
      t.time.tickT = s.localAt s.time.frc.toNat frac.toNat ∧
      (s.ref.number = false → t.time.tick = if s.time.ticking then (s.time.tick + 1) % 2 ^ 48 else 0) ∧
      (s.ref.number = true → t.ref.number = false ∧ t.time.tick = (ptpNumber t).toNat % 2 ^ 48) ∧
      t.is pgMcg F.mcgPtpNerrValid = ptpLocked s ∧ t.arch.began = s.arch.began ∧
      otherPages s t [pgMcg, pgHif, pgSeq] ∧ sameMemory s t

/-- LOCAL_TICK_BOUNDARY (R32, R33): the block begins the tick once. A second arrival of the same tick changes nothing.
On a block in reset with no commit waiting, but STRG, LATG and the links, whose neighbours see the tick go by (R16,
R102, R171), the boundary is noted and nothing else happens. On a block with no work of its own at a boundary (CLK,
HIF, XBR, SEC, WCK and DBG) that runs, with EN = 1, no soft reset, no forced fault and no commit waiting, every live
field written before is in force afterwards, and no register of a page outside DEV and its own moves; of WCK it is
said where NOM has not changed, which would return candidate 1 to ABSENT (R138). Completes: localTickBoundary. -/
def Obligations.BoundaryBringsLiveFieldsIntoForce : Prop :=
  ∀ (s : State) (p : Page), s.live = true → s.time.ticking = true → isRegPage p = true →
    (s.arch.began.find p = some s.time.tick → exec (.localTickBoundary p) s = .next s) ∧
    (s.arch.began.find p ≠ some s.time.tick → s.resetting p = true → s.is p F.cmtPending = false →
      pageKind p ∉ [.mac, .plk, .strg, .latg] →
      exec (.localTickBoundary p) s
        = .next { s with arch := { s.arch with began := s.arch.began.put p s.time.tick } }) ∧
    (s.arch.began.find p ≠ some s.time.tick → s.resetting p = false → s.running p = true → s.is p F.ctrlEn = true →
      s.is p F.ctrlSrst = false → s.is p F.cmtPending = false → s.arch.force.find p = none →
      pageKind p ∈ [.clk, .hif, .xbr, .sec, .wck, .dbg] →
      (pageKind p = .wck → s.rd pgWck F.wckInCfgNom = s.ref.nom) →
      ∃ t, exec (.localTickBoundary p) s = .next t ∧ t.arch.began.find p = some s.time.tick ∧
        (∀ ofs, ofs < 4096 → t.inForce p ofs = t.reg p ofs) ∧ otherPages s t [p.val, pgDev] ∧ sameMemory s t)

/-- L0 and L1 watchdogs (R12, R456): a restart of a stalled operation is reported by no flag and no message; TIMEOUT_L0
is set once for an operation that completes after two or more restarts, and TIMEOUT_L1 when a unit abandons its
operation; PARITY is set where the operation meets a word of a dual-clock FIFO with a parity error. The fault's message
goes to FLT where its enable bit is 1. Completes: stallWatchdogExpiry, unitRetryLimit. -/
def Obligations.StalledUnitsRestartAndReport : Prop :=
  ∀ (s : State) (p : Page) (u : Fin 16) (ctx : Word), s.live = true → s.running p = true →
    exec (.stallWatchdogExpiry p u .waits) s = .next { s with arch := { s.arch with
      restarts := s.arch.restarts.put (unitKey p u) (s.arch.restarts.get 0 (unitKey p u) + 1) } } ∧
    (s.arch.restarts.get 0 (unitKey p u) = 0 → ∃ t, exec (.stallWatchdogExpiry p u .completes) s = .next t ∧
      t = { s with arch := { s.arch with restarts := s.arch.restarts.del (unitKey p u) } }) ∧
    (1 ≤ s.arch.restarts.get 0 (unitKey p u) → ∃ t, exec (.stallWatchdogExpiry p u .completes) s = .next t ∧
      (t.reg p 0x010).getLsbD 4 = true ∧ otherPages s t [p.val] ∧ sameMemory s t) ∧
    (∀ fifo : Byte, ∃ t, exec (.stallWatchdogExpiry p u (.parity fifo)) s = .next t ∧
      (t.reg p 0x010).getLsbD 6 = true ∧
      ((s.inForce p 0x014).getLsbD 6 = true →
        ∃ x ∈ t.flt.msgs, x.src = p.val ∧ x.bit = 6 ∧ x.cease = false) ∧
      otherPages s t [p.val] ∧ sameMemory s t) ∧
    (∃ t, exec (.unitRetryLimit p u ctx) s = .next t ∧ (t.reg p 0x010).getLsbD 5 = true ∧
      ((s.inForce p 0x014).getLsbD 5 = true →
        ∃ x ∈ t.flt.msgs, x.src = p.val ∧ x.bit = 5 ∧ x.cease = false) ∧
      otherPages s t [p.val] ∧ sameMemory s t)

/-- PG_TMO (R56, R57): while a running block has an operation outstanding of those its chapter names, the expiry of
its timer sets PG_FLT.TMO and PG_STAT.WEDGED, and leaves the registers of other pages and memory as before; while it
has none the timer does not run, and an expiry does nothing. Which work counts as outstanding is the model's reading
(log 41). Completes: pgTmoExpiry. -/
def Obligations.BlockTimeoutSetsTmoAndWedged : Prop :=
  ∀ (s : State) (p : Page), s.live = true → s.running p = true →
    (awaits s p = true →
      ∃ t, exec (.pgTmoExpiry p) s = .next t ∧ (t.reg p 0x010).getLsbD 0 = true ∧ t.is p F.statWedged = true ∧
        t.running p = true ∧ otherPages s t [p.val] ∧ sameMemory s t) ∧
    (awaits s p = false → exec (.pgTmoExpiry p) s = .next s)

/-- BLOCK_RESET (R14, R15, R65): a reset that was asked for starts: RESETTING reads 1 and RUN 0, the status, event and
fault flags are clear, no shadow of the page is left, LAST_RESET_CAUSE tells the cause and SRST has cleared. Its end
(BLOCK_RESET_DONE) clears RESETTING, leaves RUN to the next boundary and sets RESET_DONE. Neither changes a byte of
memory. Completes: blockReset, blockResetDone. -/
def Obligations.BlockResetClearsAndCompletes : Prop :=
  ∀ (s : State) (p : Page) (cause : Nat), s.live = true → isRegPage p = true → cause < 16 →
    (s.arch.rstReq.find p = some cause → s.arch.resetSeq = none → s.resetting p = false →
      ∃ t, exec (.blockReset p) s = .next t ∧ t.resetting p = true ∧ t.running p = false ∧
        t.rd p F.statCause = cause ∧ t.is p F.statWedged = false ∧ t.reg p 0x010 = 0 ∧ t.reg p 0x020 = 0 ∧
        t.is p F.ctrlSrst = false ∧ (∀ e ∈ t.shadow, e.1 / 4096 ≠ p.val) ∧ t.mem = s.mem) ∧
    (s.resetting p = true → p.val ≠ pgQmg →
      ∃ t, exec (.blockResetDone p) s = .next t ∧ t.resetting p = false ∧ t.running p = s.running p ∧
        (t.reg p 0x020).getLsbD 2 = true ∧ otherPages s t [p.val, pgHif, pgSeq] ∧ sameMemory s t)

/-- Subsystem and device watchdogs (R17, R18, R19, R474, R475, R522). An expiry that finds a watched block without its
progress signal makes the subsystem not live in the next token and sets TIMEOUT_L3 at DEV, whose message waits for FLT
with the subsystem's number. Every block of a subsystem other than Supervision and Device is reset with cause 5 where no
wider reset runs; one of those two is not restarted. Where every watched block has signalled, or the subsystem is not
live already, nothing changes. A token shows FLT's view of every subsystem. The device watchdog's expiry starts the
reset sequence with a retained record of kind 0x14. Completes: subsystemWatchdogExpiry, livenessToken,
deviceWatchdogExpiry. -/
def Obligations.WatchdogsRaiseTimeouts : Prop :=
  ∀ s : State, s.live = true →
    (∀ n : Fin 16, 1 ≤ n.val → (s.devState = 2 ∨ s.devState = 3) →
      (s.arch.dead.get false n = false → (∃ p ∈ watched s n, s.arch.progress.get false p = false) →
        ∃ t, exec (.subsystemWatchdogExpiry n) s = .next t ∧ t.arch.dead.get false n = true ∧
        t.is pgDev F.devFltTimeoutL3 = true ∧ (liveSubsys t).getLsbD (n.val - 1) = false ∧
        (∃ x ∈ t.flt.msgs, x.src = pgDev ∧ x.bit = F.devFltTimeoutL3.lo ∧ x.cease = false) ∧
        (14 ≤ n.val → t.arch.restarts = s.arch.restarts ∧ t.mx = s.mx ∧ otherPages s t [pgDev] ∧ sameMemory s t) ∧
        (n.val < 14 → s.arch.resetSeq = none → restarting s n = false →
          (∀ p ∈ pagesOfSubsys n, t.resetting p = true ∧ t.running p = false ∧ t.rd p F.statCause = 5) ∧
          t.pending = s.pending) ∧
        (n.val < 14 → (s.arch.resetSeq.isSome = true ∨ restarting s n = true) →
          otherPages s t [pgDev] ∧ sameMemory s t)) ∧
      ((s.arch.dead.get false n = true ∨ ∀ p ∈ watched s n, s.arch.progress.get false p = true) →
        exec (.subsystemWatchdogExpiry n) s = .next s)) ∧
    ((s.devState = 2 ∨ s.devState = 3) → s.running pgFlt = true →
      exec .livenessToken s = .next { s with arch := { s.arch with
        token := some (liveSubsys s ++ (0 : BitVec 1)), tokenAt := s.time.frc.toNat } }) ∧
    (s.arch.resetSeq = none →
      ∃ t, exec .deviceWatchdogExpiry s = .next t ∧ t.arch.resetSeq = some 4 ∧ t.arch.rstReq = [] ∧
        t.flt.retWait = true ∧ t.dev.faultN = true ∧ t.dev.outsel = false ∧
        (∃ r, t.flt.retained = some r ∧ r.kind = 0x14 ∧ r.sev = 1 ∧ r.ctx = tokenContext s))

/-- Clock losses (R28, R517). Where REFCLK stops while the core is released and not frozen, CLK_STAT shows the loss
and the internal oscillator, CLK_LOSS is set at DEV with a Crimson message for a device reset, and the drive channels
are forced from then on. Where a core PLL loses lock, its lock bit reads 0 and the same fault is raised. A loss while
the device starts up holds the core in reset with cause 3. Completes: refclkLoss, pllLockLoss. -/
def Obligations.ClockLossForcesAndResets : Prop :=
  ∀ (s : State) (pll : Pll),
    (s.dev.phase = .on → s.dev.frozen = false → s.dev.refclk = true →
      (∃ t, exec .refclkLoss s = .next t ∧ t.is pgClk F.clkStatRefclkOk = false ∧
        t.is pgClk F.clkStatHkInternal = true ∧ t.is pgDev F.devFltClkLoss = true ∧ t.dev.refclk = false ∧
        (∃ x ∈ t.flt.msgs, x.src = pgDev ∧ x.bit = F.devFltClkLoss.lo ∧ x.crim = true) ∧ sameMemory s t) ∧
      (∃ t, exec (.pllLockLoss pll) s = .next t ∧ t.is pgDev F.devFltClkLoss = true ∧ t.dev.refclk = false ∧
        t.is pgClk (match pll with
          | .ts => F.clkStatTsLock | .fab => F.clkStatFabLock | .lat => F.clkStatLatLock | .serdes => F.clkStatSdPllLock)
          = false ∧ sameMemory s t)) ∧
    (s.dev.phase = .starting →
      (∃ t, exec .refclkLoss s = .next t ∧ t.dev.phase = .held ∧ t.dev.cause = 3 ∧ t.dev.refclk = false) ∧
      (∃ t, exec (.pllLockLoss pll) s = .next t ∧ t.dev.phase = .held ∧ t.dev.cause = 3))

-- Network ports (03).

/-- The link states of Table 3.2 (R75, R76) for a link whose page runs. Lock leads from DOWN to ACQUIRE, and at once
to UP where HOLDUP is 0 and the conditions hold; a PCS in reset gains none (R106); the end of HOLDUP leads from
ACQUIRE to UP, which ends LINK_DOWN and sets LINK_UP. Loss of lock leads to DOWN, a local fault or 1 ms of remote
fault leave UP, each with LINK_DOWN. The clause of the remote fault and the state after a local fault (ACQUIRE at once
where lock stands) are the model's reading (log 31). The fault lines and auto-negotiation show in MAC_LINK. Completes:
lockGained, holdupExpiry, lockLost, localFault, localFaultClear, remoteFaultReceived, remoteFaultTimeout, anRestart,
anComplete. -/
def Obligations.LinkStatesFollowTheirConditions : Prop :=
  ∀ (s : State) (l : Link), s.live = true → s.running (pgLink l) = true →
    (linkState s l = 0 → s.resetting (pgLink l) = false → ∃ t, exec (.lockGained l) s = .next t ∧ (t.port l).lock = true ∧
      linkState t l = (if s.act (pgLink l) F.macLinkCfgHoldup = 0 ∧ s.is (pgLink l) F.macLinkLocalFault = false ∧
        (anNeeded s l = true → s.is (pgLink l) F.macLinkAnDone = true) then 2 else 1) ∧ sameMemory s t) ∧
    (linkState s l = 1 → upConditions s l = true → ∃ t, exec (.holdupExpiry l) s = .next t ∧ linkState t l = 2 ∧
      t.is (pgLink l) F.macEvtLinkUp = true ∧ (∀ x ∈ t.flt.levels, ¬ (x.src = pgLink l ∧ x.bit = 8)) ∧
      sameMemory s t) ∧
    (linkState s l ≠ 0 → ∀ tx rx, ∃ t, exec (.lockLost l tx rx) s = .next t ∧ (t.port l).lock = false ∧
      linkState t l = 0 ∧ t.is (pgLink l) F.macLinkAnDone = false ∧
      (linkState s l = 2 → t.is (pgLink l) F.macFltLinkDown = true)) ∧
    (∀ tx rx, s.resetting (pgLink l) = false → ∃ t, exec (.localFault ⟨l, tx, rx⟩) s = .next t ∧
      t.is (pgLink l) F.macLinkLocalFault = true ∧
      (linkState s l = 2 → t.is (pgLink l) F.macFltLinkDown = true ∧
        linkState t l = if (s.port l).lock then 1 else 0)) ∧
    (∃ t, exec (.localFaultClear l) s = .next t ∧ t.is (pgLink l) F.macLinkLocalFault = false ∧ sameMemory s t) ∧
    exec (.remoteFaultReceived l) s = .next (s.setF (pgLink l) F.macLinkRemoteFault 1) ∧
    (linkState s l = 2 → s.is (pgLink l) F.macLinkRemoteFault = true →
      ∀ tx rx, ∃ t, exec (.remoteFaultTimeout ⟨l, tx, rx⟩) s = .next t ∧ t.is (pgLink l) F.macFltLinkDown = true) ∧
    (∀ q : Port, q.val = l.val → exec (.anRestart q) s = .next (s.setF (pgLink q) F.macLinkAnDone 0) ∧
      (anNeeded s q = true → ∃ t, exec (.anComplete q) s = .next t ∧ t.is (pgLink q) F.macLinkAnDone = true ∧
        sameMemory s t))

/-- The timers of a port and its counters (R89, R93, R97 to R100). The end of a pause clears RX_PAUSED and RX_REMAIN;
while the pool stays above XON, PAUSE is repeated with TX_QUANTA; a launch time that local time has reached frees the
head item of its queue, and one it has not reached leaves it waiting; a verify frame counts against VERIFY_LIMIT, and
the last interval without an answer leaves FAILED and the protocol inactive; the recovery window ends; CLEAR clears
every counter in Survey mode and none in Service mode, on an engaged port at its next boundary. Completes:
pauseTimerExpiry, pauseRepeat, launchTimeReached, verifyFrameSend, verifyTimeout, recoveryWindowClose, counterClear. -/
def Obligations.PortTimersAndCountersFollowTheirRules : Prop :=
  ∀ (s : State) (q : Port), s.live = true → s.running (pgLink q) = true →
    (∃ t, exec (.pauseTimerExpiry q) s = .next t ∧ t.is (pgLink q) F.macPauseStatRxPaused = false ∧
      t.rd (pgLink q) F.macPauseStatRxRemain = 0 ∧
      (∀ p r, r < 4096 → ¬ (p = pgLink q ∧ r = 0x070) → t.reg p r = s.reg p r) ∧ sameMemory s t) ∧
    ((s.port q).xoff = true → s.actIs (pgLink q) F.macPauseTxEn = true →
      s.act (pgLink q) F.macPauseThrXon < poolUsed s →
      exec (.pauseRepeat q) s
        = .next (ready s q (pauseFrame s q (s.act (pgLink q) F.macPauseTxQuanta)))) ∧
    (∀ e i t0, headsReach s q = s → hostHead s q e = some i → i.launch = some t0 → headSt s q e = .waits →
      (t0 ≤ s.now → ∃ t, exec (.launchTimeReached q e) s = .next t ∧
        launchMet t q e i = true ∧ (t.port q).ready = (s.port q).ready ∧ t.regs = s.regs ∧ t.qmg = s.qmg ∧
        sameMemory s t) ∧
      (s.now < t0 → exec (.launchTimeReached q e) s = .next s)) ∧
    (linkState s q = 2 → s.rd (pgLink q) F.macPreStatState = 1 →
      ((s.port q).verifies < s.act (pgLink q) F.macPreVerifyLimit → ∃ t, exec (.verifyFrameSend q) s = .next t ∧
        (t.port q).verifies = (s.port q).verifies + 1 ∧ t.regs = s.regs ∧ sameMemory s t) ∧
      (s.act (pgLink q) F.macPreVerifyLimit ≤ (s.port q).verifies → ∃ t, exec (.verifyTimeout q) s = .next t ∧
        t.rd (pgLink q) F.macPreStatState = 3 ∧ t.is (pgLink q) F.macPreStatActive = false ∧
        t.is (pgLink q) F.macEvtPreVerifyDone = true ∧ sameMemory s t)) ∧
    (∀ l : Link, ∃ t, exec (.recoveryWindowClose l) s = .next t ∧ t.net.recovery.get false l = false ∧
      t.regs = s.regs ∧ t.net.ports = s.net.ports ∧ sameMemory s t) ∧
    (∀ (m : Master) (l : Link), granted s m = true →
      (engaged s (pgLink l) = true → ∃ t, exec (.counterClear m l) s = .next t ∧ t.mx.lastReply = 0 ∧
        t.arch.acts = s.arch.acts ++ [(keyOf (pgLink l) 0x08C, 1)] ∧ t.regs = s.regs ∧ sameMemory s t) ∧
      (engaged s (pgLink l) = false → ∃ t, exec (.counterClear m l) s = .next t ∧ t.mx.lastReply = 0 ∧
        (∀ n, n < nCounters l → t.rd (pgLink l) (F.macCntCount.at 4 n)
          = if s.is (pgLink l) F.macStatsModeMode then 0 else s.rd (pgLink l) (F.macCntCount.at 4 n)) ∧
        otherPages s t [pgLink l] ∧ sameMemory s t)) ∧
    (s.arch.acts = [(keyOf (pgLink q) 0x08C, 1)] → ∀ n, n < nCounters q →
      (actsTake s (pgLink q)).rd (pgLink q) (F.macCntCount.at 4 n)
        = if s.is (pgLink q) F.macStatsModeMode then 0 else s.rd (pgLink q) (F.macCntCount.at 4 n))

/-- Frames on a link (R77, R79, R82, R84, R97, R104 to R107). While PRBS31 stands in place of traffic its checker
counts bit errors. Otherwise, on a link in ACQUIRE a frame is counted once, as a frame of a link that is not UP, and
reaches no other block; a good PAUSE frame sets RX_REMAIN to its quanta; a frame of another EtherType on PLK is
counted and ignored. In transmission, outside the tests of the line, the one frame that is ready leaves with its FCS
and its list is empty; on a link that is not UP it is discarded and counted; a respond frame of the preemption
protocol goes first. Completes: frameReceive, frameTransmit. -/
def Obligations.FramesAreCountedTakenAndSent : Prop :=
  ∀ (s : State) (l : Link), s.live = true → s.running (pgLink l) = true →
    (∀ (info : RxInfo) (b : List Byte), s.actIs (pgLink l) F.macTestPrbsEn = true →
      exec (.frameReceive l info b) s
        = .next ((s.signal (pgLink l)).bumpBy (pgLink l) F.macTestPrbsErrors info.bitErrs)) ∧
    (∀ (info : RxInfo) (b : List Byte), draining s (pgLink l) = false → s.actIs (pgLink l) F.macTestPrbsEn = false →
      s.act (pgLink l) F.macTestLoopback = 0 →
      (l.val < 4 → linkState s l = 1 → info.mpkt = 0 → info.frags < 2 →
        exec (.frameReceive l info b) s = .next (count (remoteEnds (s.signal (pgLink l)) l) l 31)) ∧
      (l.val < 4 → info.mpkt = 0 → info.frags < 2 → rxError s l info b = none → etypeOf (withoutFcs b) = 0x8808 →
        beAt b (l3Ofs b) 2 = 1 → s.actIs (pgLink l) F.macPauseRxEn = true →
        ∃ t, exec (.frameReceive l info b) s = .next t ∧
          t.rd (pgLink l) F.macPauseStatRxRemain = beAt b (l3Ofs b + 2) 2 ∧
          t.is (pgLink l) F.macPauseStatRxPaused = (beAt b (l3Ofs b + 2) 2 != 0) ∧
          otherPages s t [pgLink l, pgHif, pgSeq] ∧ sameMemory s t) ∧
      (l.val = 4 → linkState s l = 2 → plkError s info b = none →
        etypeOf (withoutFcs b) ≠ s.act pgStrg F.strgCfgEtype →
        exec (.frameReceive l info b) s = .next (count (remoteEnds (s.signal (pgLink l)) l) l 4))) ∧
    (∀ (i : Instant) (deferred : Bool) (cuts : List Nat), lineTest s l = false →
      ((s.port l).respond = true → (s.port l).ready = [] → linkState s l = 2 →
        exec (.frameTransmit l i deferred cuts) s
          = .next ((s.setPort l (fun x => { x with sent := [], sentFrags := [] })).setPort l
              (fun x => { x with respond := false }))) ∧
      (∀ f : TxFrame, (s.port l).respond = false → (s.port l).ready = [f] → f.express = true → f.strm = none →
        f.csum = 0 → f.fwd = none → f.cells = 0 → hostHead s l true = none → hostHead s l false = none →
        (linkState s l = 2 → s.act (pgLink l) F.macTestLoopback ≠ 1 →
          ∃ t, exec (.frameTransmit l i deferred cuts) s = .next t ∧
            (t.port l).sent = sealFrame f.bytes ∧ (t.port l).ready = [] ∧
            otherPages s t [pgLink l, pgHif, pgSeq] ∧ sameMemory s t) ∧
        (linkState s l ≠ 2 → ∃ t, exec (.frameTransmit l i deferred cuts) s = .next t ∧
          (t.port l).ready = [] ∧ (t.port l).sent = [] ∧
          t.regs = (count s l (if l.val = 4 then 6 else 46)).regs ∧ sameMemory s t)))

-- Network time and pulses (04).

/-- Reads of TSU (R114, R126, R127): a read of TSU_NOW_NS answers the nanoseconds of local time and latches its
seconds and fraction, which their registers then read; TSU_FRC_LO latches the upper half of FRC, TSU_TICK_NUM_LO and
TSU_PPSIN_NS the parts of theirs; each master has its own latches, and nothing else changes. Completes: nowRead,
frcRead, tickTimeRead, ppsinRead, registerReadClear. -/
def Obligations.TimeReadsLatchTheirWholeValue : Prop :=
  ∀ (s : State) (m : Master), granted s m = true →
    exec (.nowRead m) s
      = .next (answered (s.setLatch (masterNo m) (fun x => { x with nowT := s.now })) 0 (w32 (nsOf s.now))) ∧
    exec (.frcRead m) s
      = .next (answered (s.setLatch (masterNo m) (fun x => { x with frcHi := w32 (s.time.frc.toNat / 2 ^ 32) })) 0
          (w32 s.time.frc.toNat)) ∧
    exec (.tickTimeRead m) s
      = .next (answered (s.setLatch (masterNo m) (fun x => { x with tickNum := s.time.tick, tickT := s.time.tickT })) 0
          (w32 s.time.tick)) ∧
    exec (.ppsinRead m) s
      = .next (answered (s.setLatch (masterNo m) (fun x => { x with ppsT := s.time.ppsIn })) 0
          (w32 (nsOf s.time.ppsIn))) ∧
    (∀ e ∈ [Instr.nowRead m, .frcRead m, .tickTimeRead m, .ppsinRead m], ∀ k, k ≠ masterNo m →
      ∃ t, exec e s = .next t ∧ t.latch k = s.latch k) ∧
    (∀ l : Latches, l = s.latch (masterNo m) →
      exec (.registerReadClear m (regAddr pgTsu 0x050)) s = .next (answered s 0 (w32 (secOf l.nowT))) ∧
      exec (.registerReadClear m (regAddr pgTsu 0x054)) s = .next (answered s 0 (w32 (secOf l.nowT / 2 ^ 32))) ∧
      exec (.registerReadClear m (regAddr pgTsu 0x04C)) s = .next (answered s 0 (w32 (fracOf l.nowT))) ∧
      exec (.registerReadClear m (regAddr pgTsu 0x044)) s = .next (answered s 0 l.frcHi))

/-- Rates and steps (R111 to R113): a write of TSU_RATE_HI forms the 40-bit rate with TSU_RATE_LO, and neither it nor
a step request changes local time; a second step request is answered BUSY_RETRY while GO reads 1. TSU's boundary puts
a rate in force without a jump of local time. An edge of PPS_IN is stamped with its local time, and POP removes the
head of the timestamps (R124, R127). Completes: rateWrite, stepRequest, txtsPop, ppsInEdge. -/
def Obligations.RatesStepsAndStampsFollowLocalTime : Prop :=
  ∀ (s : State) (m : Master) (v : Word), granted s m = true →
    (∃ t, exec (.rateWrite m v) s = .next t ∧ t.mx.lastReply = 0 ∧
      t.time.rateReq = some (ofBits 40 (getBits v 7 0 * 2 ^ 32 + (s.reg pgTsu 0x058).toNat)) ∧
      t.time.rate = s.time.rate ∧ t.now = s.now ∧ otherPages s t [pgTsu] ∧ sameMemory s t) ∧
    (s.is pgTsu F.tsuStepCtrlGo = false → ∃ t, exec (.stepRequest m v) s = .next t ∧ t.mx.lastReply = 0 ∧
      t.is pgTsu F.tsuStepCtrlGo = true ∧ t.rd pgTsu F.tsuStepCtrlFrac = getBits v 15 0 ∧ t.time = s.time ∧
      otherPages s t [pgTsu] ∧ sameMemory s t) ∧
    (s.is pgTsu F.tsuStepCtrlGo = true → exec (.stepRequest m v) s = .next (answered s 8 0)) ∧
    (∀ r, s.running pgTsu = true → s.time.rateReq = some r → s.is pgTsu F.tsuStepCtrlGo = false →
      (tsuBoundary s).now = s.now ∧ (tsuBoundary s).time.rate = r ∧ (tsuBoundary s).time.rateReq = none) ∧
    (exec (.txtsPop m) s
      = .next (answered { s with time := { s.time with txts := s.time.txts.tail } } 0 0)) ∧
    (∀ frac : BitVec 17, s.running pgTsu = true → ∃ t, exec (.ppsInEdge frac) s = .next t ∧
      t.time.ppsIn = s.localAt s.time.frc.toNat frac.toNat ∧
      t.rd pgTsu F.tsuPpsinCntCount = (s.rd pgTsu F.tsuPpsinCntCount + 1) % 2 ^ F.tsuPpsinCntCount.width ∧
      t.is pgTsu F.tsuEvtPpsin = true ∧ t.time.frc = s.time.frc ∧ sameMemory s t)

/-- Pulse generators (R129, R130, R131): arming with a pulse width of 0 is answered as out of range; an accepted ARM
and a disarming wait for TPG's boundary, the pulses going on as before. A pulse of an armed generator begins when its
target has come, raises its level and counts, to end WIDTH after the target; its end lowers the level, and after the
last pulse ARM clears, the generator is idle and GENn_DONE is set. Before its time has come an edge does nothing.
Completes: genArm, genDisarm, pulseStart, pulseEnd. -/
def Obligations.GeneratorsArmPulseAndFinish : Prop :=
  ∀ (s : State) (m : Master) (n : Fin 8) (cfg : BitVec 3),
    (granted s m = true → s.rd pgTpg (F.tpgGenWidthWidth.at 0x20 n) ≠ 0 → cfg.getLsbD 0 = false →
      s.actIs pgTpg F.ctrlDrain = false →
      ∃ t, exec (.genArm m n cfg) s = .next t ∧ t.mx.lastReply = 0 ∧
        t.gen n = { (s.gen n) with armReq := some true } ∧ t.is pgTpg (F.tpgGenCtrlArm.at 0x20 n) = true ∧
        otherPages s t [pgTpg] ∧ sameMemory s t) ∧
    (granted s m = true → s.rd pgTpg (F.tpgGenWidthWidth.at 0x20 n) = 0 →
      ∃ t, exec (.genArm m n cfg) s = .next t ∧ t.mx.lastReply = 1 ∧ t.gen n = s.gen n ∧
        (t.reg pgTpg 0x010).getLsbD 2 = true ∧ sameMemory s t) ∧
    (granted s m = true → ∃ t, exec (.genDisarm m n cfg) s = .next t ∧ t.mx.lastReply = 0 ∧
      t.gen n = { (s.gen n) with armReq := some false } ∧ t.is pgTpg (F.tpgGenCtrlArm.at 0x20 n) = false ∧
      otherPages s t [pgTpg] ∧ sameMemory s t) ∧
    (s.live = true → s.running pgTpg = true →
      (∀ cyc : BitVec 14, (s.gen n).active = true → (s.gen n).level = false → genSpent (s.gen n) = false →
        (genReached s (s.gen n).base cyc.toNat (genTarget (s.gen n) (s.gen n).next) = true →
          ∃ t, exec (.pulseStart ⟨n, cyc⟩) s = .next t ∧ (t.gen n).level = true ∧ (t.gen n).next = (s.gen n).next + 1 ∧
            (t.gen n).ends = genTarget (s.gen n) (s.gen n).next + (s.gen n).width * 65536 ∧
            t.is pgTpg (F.tpgGenCtrlLevel.at 0x20 n) = true ∧ otherPages s t [pgTpg] ∧ sameMemory s t) ∧
        (genReached s (s.gen n).base cyc.toNat (genTarget (s.gen n) (s.gen n).next) = false →
          exec (.pulseStart ⟨n, cyc⟩) s = .next s)) ∧
      (∀ cyc : BitVec 14, (s.gen n).level = true →
        (genReached s (s.gen n).endsMedia cyc.toNat (s.gen n).ends = true →
          ∃ t, exec (.pulseEnd ⟨n, cyc⟩) s = .next t ∧ (t.gen n).level = false ∧
            ((s.gen n).active = true → genSpent (s.gen n) = true → (t.gen n).active = false ∧
              t.is pgTpg (F.tpgGenCtrlArm.at 0x20 n) = false ∧ (t.reg pgTpg 0x020).getLsbD (8 + n.val) = true) ∧
            sameMemory s t) ∧
        (genReached s (s.gen n).endsMedia cyc.toNat (s.gen n).ends = false → exec (.pulseEnd ⟨n, cyc⟩) s = .next s)))

-- References and the media clock (05).

/-- The candidates (R33, R136, R138, R141, R143, R147). A marker of an ABSENT candidate whose further conditions hold
makes it QUALIFYING; its phase shows, wrapped to its capture period, and the first marker of a newly selected candidate
is the phase step (R150); for candidate 0 the phase is that of the tick against local time (R156; its sign is the
model's reading, log 46). A candidate that loses activity becomes ABSENT, with cause 1, its event and fault where it was
QUALIFYING or QUALIFIED; where it was selected and no other is QUALIFIED the DPLL enters HOLDOVER. A PRIO or VALID
written waits for the boundary of REFS, a KEEPALIVE with them; there a PRIO of 0 disables a candidate and another makes
a DISABLED one ABSENT, VALID = 0 takes the activity of candidate 0, and a KEEPALIVE restarts its time. Completes:
marker, markerTimeout, ptpTimeout, candidatePrioWrite, ptpValid, ptpKeepalive. -/
def Obligations.CandidatesFollowActivityAndPriority : Prop :=
  ∀ (s : State) (m : Master) (n : Fin 8), s.live = true → s.running pgRefs = true →
    (∀ ph x : Int, x = (if n = 0 then ptpPhase s else wrapPhase (captureRate s n) ph) →
      candUsable s n = true → candState s n = 1 → ∃ t, exec (.marker n ph) s = .next t ∧
      candState t n = 2 ∧ t.rd pgRefs (candF F.refsCandPhPh n) = toBits 32 x ∧
      t.ref.pull = (if n.val = refSel s ∧ s.ref.stepDue = true then s.ref.pull + x else s.ref.pull) ∧
      (n.val = refSel s → t.ref.stepDue = false) ∧ otherPages s t [pgRefs, pgWck] ∧ sameMemory s t) ∧
    (2 ≤ candState s n →
      ∃ t, exec (.markerTimeout n) s = .next t ∧ candState t n = 1 ∧
        t.is pgRefs (candF F.refsCandStatEligible n) = false ∧
        (candState s n < 4 → t.rd pgRefs (candF F.refsCandStatCause n) = 1 ∧
          t.is pgRefs F.refsFltRefDisqual = true ∧ t.is pgRefs F.refsEvtDisqual = true) ∧
        (n.val = refSel s → (∀ k : Fin 8, k ≠ n → candState s k ≠ 3) → dpll t = 3 ∧ refSel t = 15 ∧
          t.is pgRefs F.refsFltHoldover = true) ∧
        (n.val ≠ refSel s → refSel t = refSel s ∧ dpll t = dpll s) ∧ sameMemory s t) ∧
    (2 ≤ candState s 0 → ∃ t, exec .ptpTimeout s = .next t ∧ candState t 0 = 1 ∧ t.ref.ptpDead = true ∧
      (candState s 0 < 4 → t.rd pgRefs (candF F.refsCandStatCause 0) = 1) ∧ sameMemory s t) ∧
    (∀ prio : BitVec 4, granted s m = true → ∃ t, exec (.candidatePrioWrite m n prio) s = .next t ∧
      t.mx.lastReply = 0 ∧ t.rd pgRefs (candF F.refsCandCfgPrio n) = prio.toNat ∧ candPrio t n = candPrio s n ∧
      candState t n = candState s n ∧ otherPages s t [pgRefs] ∧ sameMemory s t) ∧
    candState (prioTakes s n) n
      = (if candPrio s n = 0 then 0 else if candState s n = 0 then 1 else candState s n) ∧
    (granted s m = true → 1 ≤ s.rd pgRefs F.refsPtpTmo →
      (∀ v : Bool, ∃ t, exec (.ptpValid m v) s = .next t ∧ t.mx.lastReply = 0 ∧ t.is pgRefs F.refsPtpValid = v ∧
        t.actIs pgRefs F.refsPtpValid = s.actIs pgRefs F.refsPtpValid ∧ t.ref = s.ref ∧
        (∀ k : Fin 8, candState t k = candState s k) ∧ otherPages s t [pgRefs] ∧ sameMemory s t) ∧
      (∃ t, exec (.ptpKeepalive m) s = .next t ∧ t.mx.lastReply = 0 ∧
        t.arch.acts = s.arch.acts ++ [(keyOf pgRefs 0x060, 2)] ∧ t.ref = s.ref ∧
        (∀ k : Fin 8, candState t k = candState s k) ∧ otherPages s t [pgRefs] ∧ sameMemory s t)) ∧
    (s.actIs pgRefs F.refsPtpValid = false → candState (refsTakes s) 0 ≤ 1) ∧
    (s.arch.acts = [(keyOf pgRefs 0x060, 2)] → (actsTake s pgRefs).ref = { s.ref with ptpDead := false })

/-- The DPLL, its measurements and its steps, and the media clock's registers (R137, R145, R146, R152, R153, R158,
R159, R161). Lock, with the phase error within LOCK_NS, ends a switch; its loss leads back to ACQUIRE. Each
measurement shows the corrected offset of every candidate that is active, that of candidate 0 from the rate of local
time. A software step waits for the boundary, a second one or one in HOLDOVER is refused, as is a re-alignment while
MCG does not run and a number load without candidate 0 selected and locked. Completes: dpllLock, dpllUnlock,
refsMeasurement, phstepRequest, tickOffsetWrite, realignOutputs, numberLoad, tickRead. -/
def Obligations.DpllStepsAndGridFollowTheirRules : Prop :=
  ∀ (s : State) (m : Master) (v : Word), s.live = true →
    (s.running pgRefs = true → dpll s = 1 → phaseNear s = true → ∃ t, exec .dpllLock s = .next t ∧ dpll t = 2 ∧
      t.is pgRefs F.refsStatSwitching = false ∧ refSel t = refSel s ∧ t.is pgRefs F.refsEvtLocked = true ∧
      sameMemory s t) ∧
    (s.running pgRefs = true → dpll s = 2 → phaseNear s = false →
      exec .dpllUnlock s = .next (s.setF pgRefs F.refsStatDpll 1)) ∧
    (s.running pgRefs = true → ∀ (ofs : List Int) (freq : Int), ∃ t, exec (.refsMeasurement ofs freq) s = .next t ∧
      (∀ n : Fin 8, n ≠ 0 → 2 ≤ candState s n → t.rd pgRefs (candF F.refsCandOfsPpb n)
        = toBits 32 (nth 0 ofs n - s.actInt pgRefs F.refsRefclkOfsPpb)) ∧
      (2 ≤ candState s 0 → t.rd pgRefs (candF F.refsCandOfsPpb 0)
        = toBits 32 (ptpOffset s - s.actInt pgRefs F.refsRefclkOfsPpb)) ∧ sameMemory s t) ∧
    (granted s m = true →
      (∀ x, x = ofBits 40 (getBits v 7 0 * 2 ^ 32 + (s.reg pgRefs 0x068).toNat) →
        (s.is pgRefs F.refsStatStepPending = true → exec (.phstepRequest m v) s = .next (answered s 8 0)) ∧
        (s.is pgRefs F.refsStatStepPending = false → x.natAbs ≤ stepLimit → (dpll s = 1 ∨ dpll s = 2) →
          ∃ t, exec (.phstepRequest m v) s = .next t ∧ t.mx.lastReply = 0 ∧ t.ref.phReq = some x ∧
            t.is pgRefs F.refsStatStepPending = true ∧ t.ref.pull = s.ref.pull ∧ otherPages s t [pgRefs] ∧
            sameMemory s t) ∧
        (s.is pgRefs F.refsStatStepPending = false → (stepLimit < x.natAbs ∨ dpll s = 0 ∨ dpll s = 3) →
          ∃ t, exec (.phstepRequest m v) s = .next t ∧ t.mx.lastReply = 1 ∧ t.ref = s.ref ∧ sameMemory s t)) ∧
      (∀ x, x = ofBits 40 (getBits v 7 0 * 2 ^ 32 + (s.reg pgMcg 0x048).toNat) →
        (x.natAbs ≤ stepLimit → ∃ t, exec (.tickOffsetWrite m v) s = .next t ∧ t.mx.lastReply = 0 ∧
          t.ref = { s.ref with tickOfsReq := some x } ∧ otherPages s t [pgMcg] ∧ sameMemory s t) ∧
        (stepLimit < x.natAbs → ∃ t, exec (.tickOffsetWrite m v) s = .next t ∧ t.mx.lastReply = 1 ∧ t.ref = s.ref ∧
          sameMemory s t)) ∧
      (s.running pgMcg = true → ∃ t, exec (.realignOutputs m) s = .next t ∧ t.mx.lastReply = 0 ∧
        t.ref = { s.ref with realign := true } ∧ t.is pgMcg F.mcgRealignOutputs = true ∧ otherPages s t [pgMcg] ∧
        sameMemory s t) ∧
      (s.running pgMcg = false → ∃ t, exec (.realignOutputs m) s = .next t ∧ t.mx.lastReply = 1 ∧ t.ref = s.ref ∧
        sameMemory s t) ∧
      (s.running pgMcg = true → s.dev.runReq = false → s.devState ≠ 3 → refSel s = 0 → dpll s = 2 →
        ∃ t, exec (.numberLoad m) s = .next t ∧ t.mx.lastReply = 0 ∧ t.ref = { s.ref with number := true } ∧
          t.is pgMcg F.mcgRealignNumber = true ∧ otherPages s t [pgMcg] ∧ sameMemory s t) ∧
      ((refSel s ≠ 0 ∨ dpll s ≠ 2) → ∃ t, exec (.numberLoad m) s = .next t ∧ t.mx.lastReply = 1 ∧ t.ref = s.ref ∧
        sameMemory s t) ∧
      exec (.tickRead m) s
        = .next (answered (s.setLatch (masterNo m) (fun x => { x with mcgHi := w32 (s.time.tick / 2 ^ 32) })) 0
            (w32 s.time.tick)))

-- Streams and speculation (06, 07).

/-- The header that a frame carries reads back as the fields it was made of, for every value that its bits hold (Table
6.1, R164, R166): no bit of the header is dropped and no two fields overlap. -/
def Obligations.AuxenosHeaderReadsBackAsMade : Prop :=
  ∀ h : AuxHdr, h.version < 16 → h.type < 16 → h.node < 1024 → h.stream < 4096 → h.seq < 65536 → h.tick < 2 ^ 48 →
    h.chanCount < 128 → h.firstChan < 64 → h.domain < 4 → h.chans < 128 → h.payLen < 2048 →
    auxParse (auxBytes h) = h ∧ (auxBytes h).length = 32

/-- Context entries (R195, R196). A write of word 0 to an entry whose EN reads 0 sets KIND, and one that changes it
loads the other words with the reset values of the new layout; a reserved KIND is refused, and so is a write while EN
reads 1. A write of EN = 1 is accepted where the entry may be enabled and refused otherwise; EN = 0 is always
accepted. No context changes before STRG's boundary. Completes: contextKindWrite, contextEnable. -/
def Obligations.ContextEntriesLoadKindAndEnable : Prop :=
  ∀ (s : State) (m : Master) (egress : Bool) (c : CtxIx) (v : Word), granted s m = true →
    ∀ page ofs enOfs, page = (if egress then 0x35 else 0x31) + c.val / 128 → ofs = c.val % 128 * 32 →
    enOfs = ofs + (if egress then 12 else 8) →
    ((s.reg page enOfs).getLsbD 31 = false → getBits v 29 28 < 2 →
      ∃ t, exec (.contextKindWrite m egress c v) s = .next t ∧ t.mx.lastReply = 0 ∧
        getBits (t.reg page ofs) 29 28 = getBits v 29 28 ∧ t.strm = s.strm ∧ sameMemory s t ∧
        (getBits v 29 28 = getBits (s.reg page ofs) 29 28 →
          ∀ q r, r < 4096 → ¬ (q = page ∧ r = ofs) → t.reg q r = s.reg q r) ∧
        (getBits v 29 28 ≠ getBits (s.reg page ofs) 29 28 →
          (∀ d : RegDesc, d ∈ (if egress then (if getBits v 29 28 = 0 then regsEgr0 else regsEgr1)
              else (if getBits v 29 28 = 0 then regsIng0 else regsIng1)) →
            d.base ≠ 0 → t.reg page (ofs + d.base) = d.rst) ∧
          (∀ q r, r < 4096 → ¬ (q = page ∧ r / 32 = ofs / 32) → t.reg q r = s.reg q r))) ∧
    ((s.reg page enOfs).getLsbD 31 = false → 2 ≤ getBits v 29 28 →
      ∃ t, exec (.contextKindWrite m egress c v) s = .next t ∧ t.mx.lastReply = 1 ∧
        t.reg page ofs = s.reg page ofs ∧ (t.reg pgStrg 0x010).getLsbD 2 = true ∧ sameMemory s t) ∧
    ((s.reg page enOfs).getLsbD 31 = true →
      ∃ t, exec (.contextKindWrite m egress c v) s = .next t ∧ t.mx.lastReply = 5 ∧
        t.reg page ofs = s.reg page ofs ∧ sameMemory s t) ∧
    (v.getLsbD 31 = false → ∃ t, exec (.contextEnable m egress c v) s = .next t ∧ t.mx.lastReply = 0 ∧
      (t.reg page enOfs).getLsbD 31 = false ∧ t.strm = s.strm ∧
      (∀ q r, r < 4096 → ¬ (q = page ∧ r = enOfs) → t.reg q r = s.reg q r) ∧ sameMemory s t) ∧
    (v.getLsbD 31 = true → (s.reg page enOfs).getLsbD 31 = false →
      ((if egress then egrOk s c else ingOk s c v && (ingPortVeto s page enOfs v).isNone) = true →
        ∃ t, exec (.contextEnable m egress c v) s = .next t ∧ t.mx.lastReply = 0 ∧
          (t.reg page enOfs).getLsbD 31 = true ∧ t.strm = s.strm ∧
          (∀ q r, r < 4096 → ¬ (q = page ∧ r = enOfs) → t.reg q r = s.reg q r) ∧ sameMemory s t) ∧
      ((if egress then egrOk s c else ingOk s c v) = false →
        ∃ t, exec (.contextEnable m egress c v) s = .next t ∧ t.mx.lastReply = 1 ∧
          t.reg page enOfs = s.reg page enOfs ∧ (t.reg pgStrg 0x010).getLsbD 2 = true ∧ sameMemory s t))

/-- Frames of a stream in reception (R171, R172, R174, R176, R216, R224). A header that comes late or fails a check is
counted and its frame used no further; the first header of a segment makes its frame the leading copy, a further one a
trailing copy. In cut-through the first channel that has come whole, within MAXLEN, is admitted where the cone table's
cost of its strip is within the ledgers, and stands before the lattice as Ash; at the prediction deadline an
affordable channel that has not come is predicted. Completes: headerComplete, channelHandoff, predictionDeadline. -/
def Obligations.StreamFramesAreHandedOnAsTheyCome : Prop :=
  ∀ (s : State) (q : Port) (bytes : List Byte), s.live = true →
    (∀ c h, portUp s q = true → draining s (pgLink q) = false → streamCtx s q bytes = some c →
      (s.port q).rxOpen = none → h = auxParse (auxOf bytes).raw →
      ((dueOf s c h < strgTick s ∨ (s.ing c).done = some (dueOf s c h)) →
        ∃ t, exec (.headerComplete q bytes) s = .next t ∧
          (t.port q).rxOpen = some { hdr := (auxOf bytes).raw, ctx := c, role := 0 } ∧
          ingRd t c F.ing0W5Late = satAdd F.ing0W5Late.width (ingRd s c F.ing0W5Late) 1 ∧ t.strm = s.strm ∧
          sameMemory s t) ∧
      (strgTick s ≤ dueOf s c h → (s.ing c).done ≠ some (dueOf s c h) → badHeader s c h = true →
        ∃ t, exec (.headerComplete q bytes) s = .next t ∧
          (t.port q).rxOpen = some { hdr := (auxOf bytes).raw, ctx := c, role := 0 } ∧
          ingRd t c F.ing0W7Malformed = satAdd F.ing0W7Malformed.width (ingRd s c F.ing0W7Malformed) 1 ∧
          t.strm = s.strm ∧ sameMemory s t) ∧
      (strgTick s ≤ dueOf s c h → (s.ing c).done ≠ some (dueOf s c h) → badHeader s c h = false →
        ∃ t, exec (.headerComplete q bytes) s = .next t ∧ t.regs = s.regs ∧ t.lat = s.lat ∧ sameMemory s t ∧
          (match segFind s c (dueOf s c h) h.seq (frameKey h) (h.type == tCorrection) (claimKey s c h.claim) with
            | none => (t.port q).rxOpen = some { hdr := (auxOf bytes).raw, ctx := c, role := 1 } ∧
                (t.ing c).segs = (s.ing c).segs ++ [{
                  due := dueOf s c h, seq := h.seq, key := frameKey h, corr := h.type == tCorrection,
                  claim := claimKey s c h.claim, chans := frameChans h, lead := q.val, open_ := true }]
            | some g => (t.port q).rxOpen
                = some { hdr := (auxOf bytes).raw, ctx := c, role := if g.won then 3 else 2 }))) ∧
    (∀ o h, portUp s q = true → (s.port q).rxOpen = some o → h = auxParse o.hdr → o.role = 1 → o.done = 0 →
      o.shut = false → bytes.length ≤ s.act (pgLink q) F.macMaxlenMaxlen → h.type = tMedia → 1 ≤ h.chanCount →
      cutThrough s o.ctx = true →
      ingBit s o.ctx F.ing0W3ClaimMode = false → dueOf s o.ctx h = strgTick s →
      (s.ing o.ctx).done ≠ some (strgTick s) →
      1 ≤ (bytes.length - (l3Ofs bytes + 32)) / (samplesOf (ingGet s o.ctx F.ing0W1Domain) * smpBytes h.fmt32) →
      (blkAt s o.ctx (strgTick s) h.firstChan).st = .none →
      (blkAt s o.ctx (strgTick s) h.firstChan).final = none →
      (blkAt s o.ctx (strgTick s) h.firstChan).refused = false →
      (∀ e ∈ s.strm.cones.get [] (ingStrip s o.ctx + h.firstChan), e.2 ≤ s.strm.ledger.get 0 e.1) →
      ∃ t, exec (.channelHandoff q bytes) s = .next t ∧
        (blkAt t o.ctx (strgTick s) h.firstChan).st = .ash ∧
        (blkAt t o.ctx (strgTick s) h.firstChan).data = frameData s o.ctx h (bytes.drop (l3Ofs bytes + 32)) 0 ∧
        sameMemory s t) ∧
    (∀ (c : CtxIx) d, cutThrough s c = true → s.running pgStrg = true → s.actIs pgSpx F.spxCfgPredEn = true →
      (s.ing c).done ≠ some (strgTick s) → ((s.ing c).state = 2 ∨ (s.ing c).state = 3) → 1 ≤ ingChans s c →
      (blkAt s c (strgTick s) 0).st = .none → (blkAt s c (strgTick s) 0).refused = false →
      (blkAt s c (strgTick s) 0).final = none → predictOf s c 0 = some d →
      (∀ e ∈ s.strm.cones.get [] (ingStrip s c), e.2 ≤ s.strm.ledger.get 0 e.1) →
      ∃ t, exec (.predictionDeadline c) s = .next t ∧ (blkAt t c (strgTick s) 0).st = .predicted ∧
        (blkAt t c (strgTick s) 0).data = d ∧ sameMemory s t)

/-- The commit deadline of a context in RUN (R179, R181, R204, R206): with final data for every channel it stays in
RUN and each channel stands before the lattice as Ivory with those data; with a channel lost it goes to CONCEAL and
counts a miss; either way its tick is done, and only memory of B2 can change, where a CONCEAL task of its strips keeps
its state (STATE_LOC, R243). A second deadline of the tick changes nothing that a replacement has not formed.
Completes: commitDeadline. -/
def Obligations.CommitDeadlineCommitsOrConceals : Prop :=
  ∀ (s : State) (c : CtxIx), s.live = true → (s.ing c).accepted = true → ingKind s c = 0 →
    lockstep s (ingGroup s c) = false → (s.ing c).state = 2 → (s.ing c).fade = false →
    (s.ing c).done ≠ some (strgTick s) →
    (∀ ds : Nat → List Int,
      (∀ ch, ch < ingChans s c → (blkAt s c (strgTick s) ch).final = some (ds ch) ∧
        (blkAt s c (strgTick s) ch).st = .none) →
      ∃ t, exec (.commitDeadline c) s = .next t ∧ (t.ing c).done = some (strgTick s) ∧ (t.ing c).state = 2 ∧
        (∀ ch, ch < ingChans s c → t.lat.ins.find (ingStrip s c + ch)
          = some { tick := strgTick s, st := .ivory, data := ds ch }) ∧ concealFrame s t c) ∧
    (ingBit s c F.ing0W3ClaimMode = false → (s.ing c).force = false → (s.ing c).misses < 2 →
      (∃ ch, ch < ingChans s c ∧ (blkAt s c (strgTick s) ch).final = none) →
      ∃ t, exec (.commitDeadline c) s = .next t ∧ (t.ing c).done = some (strgTick s) ∧ (t.ing c).state = 3 ∧
        (t.ing c).misses = (s.ing c).misses + 1 ∧ concealFrame s t c)

/-- Segments, corrections and packets (R190 to R194, R204, R228). From the output commit point of its tick on, a
segment whose samples are committed is sent once on the ports of its mask, and counted for each; a stomped one is sent
again on the ports that lost it; a speculative one is started when its first channel is there; the correction of a
segment that left as Ash follows with its stale channels; an AES67 packet takes its number and its RTP sequence number
on. Completes: segmentSend, speculativeSegmentStart, segmentResend, correctionSend, aes67PacketSend. -/
def Obligations.SegmentsAndPacketsLeaveInTheirForm : Prop :=
  ∀ (s : State) (c : CtxIx) (seg : Fin 4), s.live = true → s.running pgStrg = true → (s.egr c).accepted = true →
    (∀ e d, egrKind s c = 0 → (s.egr c).segs.find? (fun e => e.seg == seg.val && !e.sent &&
        (mutedTick s c e.tick || !sendsSpec s c)) = some e → e.tick < s.arch.began.get 0 pgLatg →
      egrData s c e.tick (segChans s c seg).1 (segChans s c seg).2 (mutedTick s c e.tick) = some (some d) →
      ∃ t, exec (.segmentSend c seg) s = .next t ∧
        (∀ y ∈ (t.egr c).segs, y.tick = e.tick → y.seg = seg.val → y.sent = true) ∧
        egrRd t c F.egr0W5TxMedia = satAdd F.egr0W5TxMedia.width (egrRd s c F.egr0W5TxMedia)
          (popCount 4 (egrGet s c F.egr0W0PortMask)) ∧
        (∀ q : Port, (t.port q).ready.length = (s.port q).ready.length +
          (if pairSends s e.tick && (egrGet s c F.egr0W0PortMask).testBit q && s.running (pgLink q) then 1 else 0)) ∧
        sameMemory s t) ∧
    (∀ e, sendsSpec s c = true → (s.egr c).segs.find? (fun e => e.seg == seg.val && !e.sent &&
        e.tick == s.arch.began.get 0 pgLatg) = some e → mutedTick s c e.tick = false →
      (rawOut s (egrGet s c F.egr0W0StripBase + (segChans s c seg).1) e.tick).isSome = true →
      ∃ t, exec (.speculativeSegmentStart c seg) s = .next t ∧
        (∀ y ∈ (t.egr c).segs, y.tick = e.tick → y.seg = seg.val → y.sent = true ∧ y.spec = true) ∧
        t.regs = s.regs ∧ sameMemory s t) ∧
    (∀ e d, egrKind s c = 0 → (s.egr c).segs.find? (fun e => e.seg == seg.val && e.stomped != 0) = some e →
      e.tick < s.arch.began.get 0 pgLatg →
      egrData s c e.tick (segChans s c seg).1 (segChans s c seg).2 (mutedTick s c e.tick) = some (some d) →
      ∃ t, exec (.segmentResend c seg) s = .next t ∧
        (∀ y ∈ (t.egr c).segs, y.tick = e.tick → y.seg = seg.val → y.stomped = 0) ∧
        egrRd t c F.egr0W5TxMedia = satAdd F.egr0W5TxMedia.width (egrRd s c F.egr0W5TxMedia)
          (popCount 4 e.stomped.toNat) ∧ sameMemory s t) ∧
    (∀ e d, egrKind s c = 0 → (s.egr c).segs.find? (fun e => e.ash) = some e → muteHeld s c e.tick = false →
      egrData s c e.tick 0 (egrGet s c F.egr0W2Channels) false = some (some d) →
      ∃ t, exec (.correctionSend c) s = .next t ∧
        (∀ y ∈ (t.egr c).segs, y.tick = e.tick → y.seg = e.seg → y.ash = false) ∧
        egrRd t c F.egr0W6Retracted = satAdd F.egr0W6Retracted.width (egrRd s c F.egr0W6Retracted)
          ((List.range (egrGet s c F.egr0W2Channels)).filter (fun j => e.stale.getLsbD j)).length ∧ sameMemory s t) ∧
    (∀ n len p, egrKind s c = 1 → draining s pgStrg = false → n = samplesOf (egr1Dom s c) → len = egr1Len s c →
      p = (s.egr c).packet → 0 < n → 0 < len →
      (∀ ch tick, ch ≤ egrGet s c F.egr1W2Chanm1 → p * len / n ≤ tick → tick ≤ (p * len + len - 1) / n →
        tick < s.arch.began.get 0 pgLatg ∧ (mutedTick s c tick = true ∨
          (chanOut s (egrGet s c F.egr1W2StripBase + ch) (egr1Dom s c) tick).isSome = true)) →
      ∃ t, exec (.aes67PacketSend c) s = .next t ∧ (t.egr c).packet = p + 1 ∧
        (t.egr c).rtpSeq = ((s.egr c).rtpSeq + 1) % 65536 ∧ sameMemory s t)

/-- Reruns, store-and-forward holds and the cone table (R215, R217, R218, R223, R247). The oldest rerun that no reset of
SPX dropped starts while LATG runs, and is counted; its end removes it and returns its reservations to the ledgers of
its tick. A hold whose ticks have passed ends with its event, one that software ends waits for SPX's boundary. While the
Memory subsystem serves it, the cone table of the staged lists is built, takes its region of B2, and shows in
LATG_STAGE; the words it writes there are free (log 3). Completes: rerunStart, rerunDone, safHoldExpiry, safEnd,
coneTableReady. -/
def Obligations.RerunsHoldsAndConeTableEnd : Prop :=
  ∀ (s : State) (m : Master) (c : CtxIx), s.live = true →
    (∀ dead r rest, rerunSplit s = (dead, r :: rest) → r.running = false → s.running pgLatg = true →
      ∃ t, exec .rerunStart s = .next t ∧ t.strm.reruns = dead ++ { r with running := true } :: rest ∧
        t.rd pgSpx F.spxCntRerunCount = satAdd F.spxCntRerunCount.width (s.rd pgSpx F.spxCntRerunCount) 1 ∧
        otherPages s t [pgSpx] ∧ sameMemory s t) ∧
    (∀ dead r rest, rerunSplit s = (dead, r :: rest) → r.running = true → memStalled s = false →
      ∃ t, exec .rerunDone s = .next t ∧ t.strm.reruns = dead ++ rest ∧
        (∀ k : Fin 48, t.strm.ledger.get 0 k = s.strm.ledger.get 0 k + (if s.strm.ledgerTick = some r.tick
          then (r.resv.map (fun e => if e.1 = k.val then e.2 else 0)).sum else 0)) ∧
        t.pending = s.pending) ∧
    (s.strm.holds.find c = some 0 →
      ∃ t, exec (.safHoldExpiry c) s = .next t ∧ t.strm.holds.find c = none ∧ t.is pgSpx F.spxEvtSafExit = true ∧
        otherPages s t [pgSpx, pgHif, pgSeq] ∧ sameMemory s t) ∧
    (granted s m = true → (s.strm.holds.find c).isSome = true →
      exec (.safEnd m c) s
        = .next (answered { s with strm := { s.strm with safEnd := s.strm.safEnd ++ [c.val] } } 0 0)) ∧
    (s.strm.coneBusy = true → s.running pgSpx = true → s.resetting pgSpx = false → memStalled s = false →
      ∃ t, exec .coneTableReady s = .next t ∧ t.strm.coneBusy = false ∧ t.is pgSpx F.spxStatConeBusy = false ∧
        t.strm.conesStaged = coneTable (stagedTiles (preload s)) ∧
        t.is pgLatg F.latgStageConeReady = true ∧
        t.is pgLatg F.latgStageReady = s.is pgLatg F.latgStagePreloadDone ∧ t.is pgSpx F.spxEvtConeReady = true ∧
        otherPages s t [pgSpx, pgLatg, pgHif, pgSeq] ∧ t.pending = s.pending ∧
        (∀ x, (x < bankBase 2 + s.lat.stSpxBase ∨ bankBase 2 + s.lat.stSpxBase + s.lat.stSpxSize ≤ x) →
          Memory.read t.mem x = Memory.read s.mem x))

-- The lattice (08, 09).

/-- Tasks on a tile (R233, R236, R237, R238, R254, R257, R274). The first ready task of the list starts on the blocks
that its inputs are then (R226), and the tile runs it alone; one with an absent input is skipped. A task that finishes
frees the tile and posts its barrier, and an overrun of its budget is counted; the last task of an output strip leaves
the strip's block of the tick. A corrected error of local memory that it met is counted and flagged, and an
uncorrectable one is counted, flagged and asks for the tile's reset: the task does not finish. The oldest block on the
ring to a tile lands in its slot. Completes: taskStart, taskFinish, ringDelivery. -/
def Obligations.TasksStartFinishAndPost : Prop :=
  ∀ (s : State) (tl : TileIx), s.live = true →
    (∀ i, memStalled s = false → tileRuns s tl = true → (s.tile tl).begun = true → (s.tile tl).cur = none →
      (List.range (s.tile tl).tasks.length).find? (taskReady s tl) = some i →
      (((inputsOf s tl i).getD []).any (·.absent) = false → ∃ t, exec (.taskStart tl) s = .next t ∧
        (t.tile tl).cur = some i ∧ (t.taskAt tl i).phase = .running ∧
        (t.taskAt tl i).ins = (inputsOf s tl i).getD [] ∧
        ((s.taskAt tl i).task.kind ≠ kMatrix → sameMemory s t)) ∧
      (((inputsOf s tl i).getD []).any (·.absent) = true → ∃ t, exec (.taskStart tl) s = .next t ∧
        (t.tile tl).cur = none ∧ (t.taskAt tl i).phase = .skipped ∧ t.regs = s.regs ∧ sameMemory s t)) ∧
    (∀ i (r : TaskRun) b, memStalled s = false → tileRuns s tl = true → (s.tile tl).cur = some i →
      i < (s.tile tl).tasks.length → b = (s.taskAt tl i).task.postBar → (∀ x, r.ecc = some x → x.uncorr = false) →
      ∃ t, exec (.taskFinish tl r) s = .next t ∧ (t.tile tl).cur = none ∧ (t.taskAt tl i).phase = .finished ∧
        (b ≠ 0 → t.lat.postTick = (s.tile tl).tick ∧
          t.lat.posts.get 0 b = (if s.lat.postTick = (s.tile tl).tick then s.lat.posts.get 0 b else 0) + 1) ∧
        t.rd (pgTile tl) F.tileOverbudgetCount = (if (s.taskAt tl i).task.budget < r.cycles
          then satAdd F.tileOverbudgetCount.width (s.rd (pgTile tl) F.tileOverbudgetCount) 1
          else s.rd (pgTile tl) F.tileOverbudgetCount) ∧
        (∀ x, r.ecc = some x → (t.reg (pgTile tl) 0x010).getLsbD F.tileFltEccCorr.lo = true ∧
          t.rd (pgTile tl) F.tileEccCorr = satAdd 16 (s.rd (pgTile tl) F.tileEccCorr) 1) ∧
        (∀ k, (s.taskAt tl i).task.kind = kOutstrip → chainEnd s (tl.val, i) = some k →
          ((s.taskAt tl i).task.stateB2 = false → sameMemory s t) ∧
          t.lat.outs.find k = some {
            tick := (s.tile tl).tick, st := .ivory, src := some (tl.val, i),
            data := (runOutstrip (s.taskAt tl i).copy (samplesOf (s.taskAt tl i).task.domain) (s.taskAt tl i).pre
              (nth ({} : Blk) (s.taskAt tl i).ins 0).data).1 })) ∧
    (∀ (r : TaskRun) x i, memStalled s = false → tileRuns s tl = true → (s.tile tl).cur = some i → r.ecc = some x →
      x.uncorr = true → ∃ t, exec (.taskFinish tl r) s = .next t ∧ t.tile tl = s.tile tl ∧
        (t.reg (pgTile tl) 0x010).getLsbD F.tileFltEccUncorr.lo = true ∧
        t.rd (pgTile tl) F.tileEccUncorr = satAdd 16 (s.rd (pgTile tl) F.tileEccUncorr) 1 ∧
        (s.shadowed (pgTile tl) = false → (t.arch.rstReq.find (pgTile tl)).isSome = true) ∧
        otherPages s t [pgTile tl] ∧ sameMemory s t) ∧
    (∀ slot b rest, (s.tile tl).ring = (slot, b) :: rest → ∃ t, exec (.ringDelivery tl) s = .next t ∧
      (t.tile tl).ring = rest ∧ (t.tile tl).store.find slot = some b ∧
      (∀ x, x ≠ slot → x ≠ slot + 1 → (t.tile tl).store.find x = (s.tile tl).store.find x) ∧
      (∀ k, k ≠ tl.val → t.tile k = s.tile k) ∧ t.regs = s.regs ∧ sameMemory s t)

/-- Images and self-tests (R59, R245, R247, R258). A GO takes a check up, from LATG's next boundary on where LATG is
enabled or runs and at once elsewhere; while BUSY a further GO is ignored. The end of a check, where B1 was not
written meanwhile, shows what Table 8.6 finds, and an image that passes is staged, the cone table being built. A base
written is staged, takes VALID away and aborts a check, and one that is not a multiple of 32 is refused. Preloaded
tiles hold the staged list. A self-test mode is stored with FAIL cleared, and acts at the tile's boundary, at once on
a disabled tile; a pass is counted and its result shown. Completes: imageCheck, imageBaseWrite, tileBistStart,
imageCheckDone, preloadDone, tileBistDone. -/
def Obligations.ImagesAreCheckedStagedAndPreloaded : Prop :=
  ∀ (s : State) (m : Master) (v : Word) (tl : TileIx), s.live = true →
    (granted s m = true →
      ((s.running pgLatg && draining s pgLatg) = false → s.is pgLatg F.latgCheckBusy = false →
        exec (.imageCheck m) s = .next (answered { (s.setF pgLatg F.latgCheckBusy 1) with
          lat := { s.lat with goMem := b1Cells s.mem, checkDue := engaged s pgLatg } } 0 0)) ∧
      (s.is pgLatg F.latgCheckBusy = true → exec (.imageCheck m) s = .next (answered s 0 0)) ∧
      (s.is pgLatg F.cmtPending = false → getBits v 4 0 = 0 → ∃ t, exec (.imageBaseWrite m v) s = .next t ∧
        t.mx.lastReply = 0 ∧ stagedBase t = getBits v 22 0 ∧ t.reg pgLatg 0x040 = s.reg pgLatg 0x040 ∧
        t.is pgLatg F.latgCheckValid = false ∧ t.is pgLatg F.latgCheckBusy = false ∧
        t.is pgLatg F.latgStageReady = false ∧ otherPages s t [pgLatg, pgSpx] ∧ sameMemory s t) ∧
      (s.is pgLatg F.cmtPending = false → getBits v 4 0 ≠ 0 → ∃ t, exec (.imageBaseWrite m v) s = .next t ∧
        t.mx.lastReply = 1 ∧ stagedBase t = stagedBase s ∧ (t.reg pgLatg 0x010).getLsbD 2 = true ∧ sameMemory s t) ∧
      (s.is pgLatg F.cmtPending = true → exec (.imageBaseWrite m v) s = .next (answered s 8 0)) ∧
      (∀ mode : BitVec 2, mode ≠ 3 → ∃ t, exec (.tileBistStart m tl mode) s = .next t ∧ t.mx.lastReply = 0 ∧
        t.rd (pgTile tl) F.tileBistMode = mode.toNat ∧ t.is (pgTile tl) F.tileBistFail = false ∧
        (engaged s (pgTile tl) = true → (t.tile tl).bistReq = true) ∧
        (engaged s (pgTile tl) = false → s.held.find (keyOf (pgTile tl) 0x05C) = none →
          t.is (pgTile tl) F.tileBistBusy = (mode != 0 || redTests s tl)) ∧ otherPages s t [pgTile tl] ∧ sameMemory s t) ∧
      (∃ t, exec (.tileBistStart m tl 3) s = .next t ∧ t.mx.lastReply = 1 ∧
        t.rd (pgTile tl) F.tileBistMode = s.rd (pgTile tl) F.tileBistMode ∧ sameMemory s t)) ∧
    (s.is pgLatg F.latgCheckBusy = true → s.lat.checkDue = false → s.resetting pgLatg = false →
      s.lat.goMem = b1Cells s.mem → ∀ r tile task,
      checkImage s (stagedBase s) = (r, tile, task) →
      ∃ t, exec .imageCheckDone s = .next t ∧ t.is pgLatg F.latgCheckBusy = false ∧
        t.is pgLatg F.latgCheckValid = (r == 0) ∧ t.rd pgLatg F.latgCheckResult = r % 16 ∧
        t.rd pgLatg F.latgCheckTile = tile % 64 ∧ t.rd pgLatg F.latgCheckTask = task % 1024 ∧
        t.is pgLatg F.latgEvtCheckDone = true ∧
        (r = 0 → t.strm.coneBusy = true ∧ t.is pgSpx F.spxStatConeBusy = true ∧ t.lat.stBase = stagedBase s ∧
          t.reg pgLatg 0x050 = imgWord s (stagedBase s) 0x0C) ∧ sameMemory s t) ∧
    (s.lat.staging = true → s.is pgLatg F.latgStagePreloadDone = false → memStalled s = false →
      ∃ t, exec .preloadDone s = .next t ∧ t.is pgLatg F.latgStagePreloadDone = true ∧
        t.is pgLatg F.latgStageReady = s.is pgLatg F.latgStageConeReady ∧ (t.tile tl).preloaded = true ∧
        (t.tile tl).staged = (tileDir s s.lat.stBase tl true).descs.map taskOf ∧ otherPages s t [pgLatg, pgMem 1] ∧
        sameMemory s t) ∧
    (∀ fail, s.is (pgTile tl) F.tileBistBusy = true → redState s ≠ 2 → s.act (pgTile tl) F.tileBistMode ≠ 2 →
      ∃ t, exec (.tileBistDone tl fail) s = .next t ∧ t.is (pgTile tl) F.tileBistBusy = false ∧
        t.is (pgTile tl) F.tileBistFail = fail ∧
        t.rd (pgTile tl) F.tileBistPasses = (s.rd (pgTile tl) F.tileBistPasses + 1) % 65536 ∧
        t.is (pgTile tl) F.tileEvtBistDone = true ∧ (fail = true → t.is (pgTile tl) F.tileEvtBistFail = true) ∧
        sameMemory s t)

-- Local audio ports (10).

/-- TDM ports (R297 to R301, R304 to R307, Tables 10.2 and 10.3). A whole frame on the wire enters the receive FIFO,
each enabled slot read OFFSET bit clocks after the frame start, most significant bit first, and the second in a row
leads from SYNC on; a full FIFO counts an overrun. A misplaced frame start and a loss of clock of a slave are counted
and raised, on a port that only transmits too, resynchronise a side that only fills and fade one that delivers. A
transmit side in RUN sends the oldest frame of its FIFO, bit by bit, the last OFFSET bits after the next frame start;
with none it counts an underrun and fills anew. In master mode a frame begins on the output grid alone. Completes:
tdmFrameReceive, misplacedFrameStart, tdmClockLoss, tdmFrameTransmit. -/
def Obligations.TdmFramesEnterAndLeaveTheFifos : Prop :=
  ∀ (s : State) (n : Fin 16) (p : Nat), p = pgTdm n → s.live = true → s.running p = true →
    (∀ (w : SerialFrame) f, tdmWhole s p w = true → rxOn s p = true → s.actIs p F.ctrlDrain = false →
      1 ≤ rxState s p → rxState s p ≤ 4 →
      f = (bitList 32 (s.act p F.tdmRxMaskSlots)).map (fun k =>
        ofBits (slotWidth (s.act p F.tdmCfgWidth)) (at0 ((tdmSlots s p w.bits).map Int.ofNat) k).toNat
          * (2 ^ (32 - slotWidth (s.act p F.tdmCfgWidth)) : Nat)) →
      ((s.aud p).rx.length < 32 → ∃ t, exec (.tdmFrameReceive n w) s = .next t ∧
        (t.aud p).rx = (s.aud p).rx ++ [f] ∧ t.is p F.tdmStatBclkPresent = true ∧
        t.rd p F.tdmStatRxFill = (s.aud p).rx.length + 1 ∧
        rxState t p = (if rxState s p = 1 ∧ 1 ≤ (s.aud p).good then 2 else rxState s p) ∧
        otherPages s t [p] ∧ sameMemory s t) ∧
      (32 ≤ (s.aud p).rx.length → ∃ t, exec (.tdmFrameReceive n w) s = .next t ∧
        t.rd p F.tdmCntOverRx = satAdd F.tdmCntOverRx.width (s.rd p F.tdmCntOverRx) 1 ∧
        (3 ≤ rxState s p → rxState t p = 5) ∧ sameMemory s t)) ∧
    (s.actIs p F.tdmCfgMaster = false → 1 ≤ rxState s p → rxState s p ≤ 4 →
      ∃ t, exec (.misplacedFrameStart n) s = .next t ∧
        t.rd p F.tdmCntClkSlip = satAdd F.tdmCntClkSlip.width (s.rd p F.tdmCntClkSlip) 1 ∧
        rxState t p = (if 3 ≤ rxState s p then 5 else 1) ∧
        (2 ≤ rxState s p → (s.aud p).raisedTick ≠ s.time.tick → t.is p F.tdmFltSyncSlip = true) ∧ sameMemory s t) ∧
    (s.actIs p F.tdmCfgMaster = false → rxOn s p = false → rxState s p = 0 → 1 ≤ txState s p → txState s p ≤ 3 →
      (s.aud p).raisedTick ≠ s.time.tick → ∃ t, exec (.misplacedFrameStart n) s = .next t ∧
        t.is p F.tdmFltSyncSlip = true ∧
        t.rd p F.tdmCntClkSlip = satAdd F.tdmCntClkSlip.width (s.rd p F.tdmCntClkSlip) 1 ∧ sameMemory s t) ∧
    (s.actIs p F.tdmCfgMaster = false → (s.aud p).lost = false → 1 ≤ rxState s p → rxState s p ≤ 4 →
      ∃ t, exec (.tdmClockLoss n) s = .next t ∧ (t.aud p).lost = true ∧ t.is p F.tdmStatBclkPresent = false ∧
        t.rd p F.tdmCntClkLoss = satAdd F.tdmCntClkLoss.width (s.rd p F.tdmCntClkLoss) 1 ∧
        rxState t p = (if 3 ≤ rxState s p then 5 else 1) ∧
        ((s.aud p).raisedTick ≠ s.time.tick → t.is p F.tdmFltClkLoss = true) ∧ sameMemory s t) ∧
    (∀ cyc : BitVec 14, s.actIs p F.tdmCfgMaster = true → outSince s (tdmPeriod s p) 0 cyc.toNat ≠ 0 →
      exec (.tdmFrameTransmit ⟨n, cyc⟩) s = .next s) ∧
    (∀ cyc : BitVec 14, (s.actIs p F.tdmCfgMaster = true → outSince s (tdmPeriod s p) 0 cyc.toNat = 0) →
      txOn s p = true → txState s p = 3 → (s.aud p).overDue = false → s.flt.safeOut = false →
      (s.aud p).outHeld = false → (s.aud p).outRamp = 0 →
      (∀ f rest w, (s.aud p).tx = f :: rest → w = slotWidth (s.act p F.tdmCfgWidth) →
        ∃ t, exec (.tdmFrameTransmit ⟨n, cyc⟩) s = .next t ∧ (t.aud p).tx = rest ∧ txState t p = 3 ∧
          (t.aud p).sent = f.map (fun x => w32 (toBits w (satInt w (rne x (32 - w))))) ∧
          (t.aud p).line = (s.aud p).tail
            ++ (tdmBits s p (t.aud p).sent).take (tdmLen s p - s.act p F.tdmCfgOffset) ∧
          (t.aud p).tail = (tdmBits s p (t.aud p).sent).drop (tdmLen s p - s.act p F.tdmCfgOffset) ∧ sameMemory s t) ∧
      ((s.aud p).tx = [] → ∃ t, exec (.tdmFrameTransmit ⟨n, cyc⟩) s = .next t ∧ txState t p = 1 ∧
        t.rd p F.tdmCntUnderTx = satAdd F.tdmCntUnderTx.width (s.rd p F.tdmCntUnderTx) 1 ∧ sameMemory s t))

/-- AES3 ports (R305, R307, R309, R311 to R317). Subframe B that follows its A completes the frame, and the frame
enters the FIFO of a synchronous receiver in lock, a bad sample being replaced by the last good one; parity errors are
counted. Lock, at a frame rate of 28 to 216 kHz, and its loss show in AESI_STAT with their events. A transmitter sends
two subframes, on the tick grid where its RATE_SRC is 0, with the channel status bit of the frame's place in its block
of 192. Completes: aes3Subframe, aes3Lock, aes3LockLoss, aes3FrameTransmit. -/
def Obligations.Aes3SubframesLockAndTransmit : Prop :=
  ∀ (s : State) (n : Fin 4), s.live = true →
    (∀ pre bits biphase, s.running (pgAesi n) = true →
      (∃ t, exec (.aes3Subframe n pre bits biphase) s = .next t ∧
        t.rd (pgAesi n) F.aesiCntErrParity = (if popCount 28 bits.toNat % 2 = 1
          then satAdd F.aesiCntErrParity.width (s.rd (pgAesi n) F.aesiCntErrParity) 1
          else s.rd (pgAesi n) F.aesiCntErrParity) ∧
        (pre ≠ .y → (t.aud (pgAesi n)).haveA = true) ∧ (pre = .y → (t.aud (pgAesi n)).haveA = false) ∧
        (pre = .z → (t.aud (pgAesi n)).place = some 0) ∧ sameMemory s t) ∧
      (∀ smp, pre = .y → (s.aud (pgAesi n)).haveA = true → s.actIs (pgAesi n) F.ctrlDrain = false →
        (biphase = false ∧ (s.aud (pgAesi n)).badA = false ∨ (s.aud (pgAesi n)).badRun < 2) →
        rxOn s (pgAesi n) = true → s.is (pgAesi n) F.aesiStatLock = true → 1 ≤ rxState s (pgAesi n) →
        rxState s (pgAesi n) ≤ 4 → (s.aud (pgAesi n)).rx.length < 32 →
        smp = (if popCount 28 bits.toNat % 2 = 1 ∨ biphase = true ∨
            (bits.getLsbD 24 = true ∧ s.actIs (pgAesi n) F.aesiCfgVBad = true)
          then (s.aud (pgAesi n)).prevB else ofBits 24 (bits.toNat % 2 ^ 24) * 256) →
        ∃ t, exec (.aes3Subframe n pre bits biphase) s = .next t ∧
          (t.aud (pgAesi n)).rx = (s.aud (pgAesi n)).rx ++
            [(if s.actIs (pgAesi n) F.aesiCfgAEn then [(s.aud (pgAesi n)).curA] else [])
              ++ (if s.actIs (pgAesi n) F.aesiCfgBEn then [smp] else [])] ∧ sameMemory s t)) ∧
    (∀ hz : BitVec 18, s.running (pgAesi n) = true → s.is (pgAesi n) F.aesiStatLock = false →
      (s.aud (pgAesi n)).zGood = 1 → 28000 ≤ hz.toNat → hz.toNat ≤ 216000 → ∃ t, exec (.aes3Lock n hz) s = .next t ∧
        t.is (pgAesi n) F.aesiStatLock = true ∧ t.rd (pgAesi n) F.aesiRateHz = hz.toNat ∧
        t.rd (pgAesi n) F.aesiStatNom = nearestRate hz.toNat ∧ (t.aud (pgAesi n)).lost = false ∧
        t.is (pgAesi n) F.aesiEvtLock = true ∧ otherPages s t [pgAesi n, pgHif, pgSeq] ∧ sameMemory s t) ∧
    (s.running (pgAesi n) = true → s.is (pgAesi n) F.aesiStatLock = true →
      ∃ t, exec (.aes3LockLoss n) s = .next t ∧ t.is (pgAesi n) F.aesiStatLock = false ∧
        t.rd (pgAesi n) F.aesiStatNom = 3 ∧ (t.aud (pgAesi n)).lost = true ∧ (t.aud (pgAesi n)).place = none ∧
        t.rd (pgAesi n) F.aesiCntLockLoss
          = satAdd F.aesiCntLockLoss.width (s.rd (pgAesi n) F.aesiCntLockLoss) 1 ∧
        t.is (pgAesi n) F.aesiEvtUnlock = true ∧ sameMemory s t) ∧
    (∀ k (cyc : BitVec 14), s.running (pgAeso n) = true → k = (s.aud (pgAeso n)).frame →
      (s.act (pgAeso n) F.aesoCfgRateSrc = 0 → cyc.toNat % (8192 / 2 ^ audDom s (pgAeso n)) = 0) →
      ∃ t a b v u, exec (.aes3FrameTransmit ⟨n, cyc⟩) s = .next t ∧ (t.aud (pgAeso n)).frame = (k + 1) % 192 ∧
        (t.aud (pgAeso n)).sent
          = [subframe a v u ((nth 0 (t.aud (pgAeso n)).csOut (k / 32)).getLsbD (k % 32)),
             subframe b v u ((nth 0 (t.aud (pgAeso n)).csOut (k / 32)).getLsbD (k % 32))] ∧
        (s.actIs (pgAeso n) F.aesoCfgUEn = false → u = false) ∧
        (k ≠ 0 → (t.aud (pgAeso n)).csOut = (s.aud (pgAeso n)).csOut) ∧ sameMemory s t)

/-- Channels of the ASRC (R318 to R320, Table 10.4). EN is stored where the channel may be enabled and acts at the
boundary. The estimate of a source port with a clock, or lock, that settles leads every channel of the port from
ACQUIRE to RAMP, with the ratio shown as each channel's domain scales it; a source that is lost leads them from RAMP
and from RUN to MUTE, the latter with UNLOCK, and leaves the others. Completes: asrcEnable, asrcSettled,
asrcSourceLoss. -/
def Obligations.AsrcChannelsEnableSettleAndFade : Prop :=
  ∀ (s : State) (m : Master) (ch : Fin 64) (v : Word),
    (granted s m = true → s.is pgAsrc (F.asrcChEnEn.at 16 ch) = false →
      ((v.getLsbD 31 = true → asrcOk s ch = true) → ∃ t, exec (.asrcEnable m ch v) s = .next t ∧ t.mx.lastReply = 0 ∧
        t.is pgAsrc (F.asrcChEnEn.at 16 ch) = v.getLsbD 31 ∧ asrcSt t ch = asrcSt s ch ∧ otherPages s t [pgAsrc] ∧
        sameMemory s t) ∧
      (v.getLsbD 31 = true → asrcOk s ch = false → ∃ t, exec (.asrcEnable m ch v) s = .next t ∧ t.mx.lastReply = 1 ∧
        t.is pgAsrc (F.asrcChEnEn.at 16 ch) = false ∧ (t.reg pgAsrc 0x010).getLsbD 2 = true ∧ sameMemory s t)) ∧
    (granted s m = true → s.is pgAsrc (F.asrcChEnEn.at 16 ch) = true → ∃ t, exec (.asrcEnable m ch v) s = .next t ∧
      t.mx.lastReply = 0 ∧ t.is pgAsrc (F.asrcChEnEn.at 16 ch) = v.getLsbD 31 ∧ asrcSt t ch = asrcSt s ch ∧
      otherPages s t [pgAsrc] ∧ sameMemory s t) ∧
    (∀ mates, s.live = true → s.running pgAsrc = true →
      mates = asrcOf s (asrcF s ch F.asrcChCfgKind) (asrcF s ch F.asrcChCfgPort) →
      (∀ ratio : BitVec 24, asrcSt s ch = 1 → asrcSource s ch = true → asrcRateOk s ch ratio.toNat = true →
        (∀ k ∈ mates, asrcSt s k ≠ 2 ∧ asrcSt s k ≠ 3) →
        ∃ t, exec (.asrcSettled ch ratio) s = .next t ∧
        t.rd pgAsrc (F.asrcChStatRatio.at 16 ch) = ratio.toNat ∧
        (∀ k : Fin 64, k.val ∈ mates → asrcSt s k = 1 → asrcSt t k = 2 ∧ t.src k = { s.src k with ramp := 0, sent := 0 } ∧
          t.rd pgAsrc (F.asrcChStatRatio.at 16 k) = asrcScale s ch k ratio.toNat) ∧
        (∀ k : Fin 64, (k.val ∉ mates ∨ asrcSt s k ≠ 1) → t.src k = s.src k ∧ asrcSt t k = asrcSt s k) ∧
        otherPages s t [pgAsrc] ∧ sameMemory s t) ∧
      (∃ t, exec (.asrcSourceLoss ch) s = .next t ∧
        (∀ k : Fin 64, k.val ∈ mates → (asrcSt s k = 2 ∨ asrcSt s k = 3) → asrcSt t k = 4 ∧ (t.src k).sent = 0) ∧
        (∀ k : Fin 64, (k.val ∉ mates ∨ asrcSt s k < 2 ∨ 3 < asrcSt s k) → asrcSt t k = asrcSt s k ∧ t.src k = s.src k) ∧
        ((∃ k ∈ mates, asrcSt s k = 3) → t.is pgAsrc F.asrcEvtUnlock = true) ∧
        otherPages s t [pgAsrc, pgHif, pgSeq] ∧ sameMemory s t))

-- The power stage (11).

/-- A carrier period and the gates (R329 to R332, R335). In RAMP and RUN each period of the tick gets a width that
leaves twice the dead time and 4 counts at either end, centred in the period; under SAFE_OUT the modulation index is
0. In every state, and at any two counts no further apart than the dead time, no half-bridge has both gates high. A
period outside RAMP and RUN, or beyond those of the tick, changes nothing. Completes: carrierPeriod. -/
def Obligations.CarrierPeriodsKeepTheDeadTime : Prop :=
  ∀ (s : State) (ch : Fin 16) (k : Fin 24) (p code len : Nat), p = pgDrv ch → code = s.act p F.drvCfgCarrier →
    len = carrierLen code k →
    (s.live = true → s.running p = true → (drvState s ch = 2 ∨ drvState s ch = 3) → k.val < carrierCount code →
      ∃ t, exec (.carrierPeriod ch k) s = .next t ∧
        2 * s.act p F.drvCfgDt + 4 ≤ (t.drv ch).width ∧
        (t.drv ch).width + (2 * s.act p F.drvCfgDt + 4) ≤ len ∧
        (t.drv ch).first = (len - (t.drv ch).width) / 2 ∧
        t.rd p F.drvRailCode = carrierRail s ch % 65536 ∧ drvState t ch = drvState s ch ∧
        (s.flt.safeOut = true → t.rd p F.drvModLastM = 0) ∧
        (∀ c, c ≠ ch.val → t.drv c = s.drv c) ∧ otherPages s t [p] ∧ sameMemory s t) ∧
    (s.live = true → (s.running p = false ∨ (drvState s ch ≠ 2 ∧ drvState s ch ≠ 3) ∨ carrierCount code ≤ k.val) →
      exec (.carrierPeriod ch k) s = .next s) ∧
    (∀ i j, i ≤ j + s.act p F.drvCfgDt → j ≤ i + s.act p F.drvCfgDt →
      ((drvGates s ch i).1 && (drvGates s ch j).2.1) = false ∧
      ((drvGates s ch i).2.2.1 && (drvGates s ch j).2.2.2) = false)

/-- Protection of a drive channel (R333, R336, R338, R339, R341, Table 11.2). A trip in PRECHARGE, RAMP or RUN counts,
takes every gate low, raises OCP as a Crimson fault and leads to TRIP, or to LATCHED once TRIPS exceeds RETRIES; the
boost controller of its group holds its rail, and no other channel changes. Elsewhere a low DCn_OC_N only shows, and its
rise changes nothing but the level shown. The
time to the retry ends at RETRY_EXPIRY and the count of trips after RETRY_CLR seconds of RUN; PRECHARGE leads to RAMP;
an UNLATCH of a LATCHED channel waits for its boundary. DRV_SAFE_N forces every channel that drives its load and holds
every boost gate; its release changes nothing but the level. A mean DC code above DC_MAX latches the channel.
Completes: overcurrentTrip, retryExpiry, prechargeDone, tripCountClear, dcWindow, unlatch, safePinAssert,
safePinRelease. -/
def Obligations.DriveChannelsTripRetryAndForce : Prop :=
  ∀ (s : State) (m : Master) (ch : Fin 16) (p n : Nat), p = pgDrv ch → n = s.rd p F.drvStatTrips + 1 →
    (∃ t, exec (.overcurrentTrip ⟨ch, false⟩) s = .next t ∧ t.dev.ocPin.getLsbD ch = false ∧ t.power = s.power ∧
      (∀ c : Fin 16, c ≠ ch → t.dev.ocPin.getLsbD c = s.dev.ocPin.getLsbD c) ∧ otherPages s t [] ∧ sameMemory s t) ∧
    (s.live = true → s.running p = true →
      (1 ≤ drvState s ch → drvState s ch ≤ 3 → ∃ t, exec (.overcurrentTrip ⟨ch, true⟩) s = .next t ∧
        drvState t ch = (if s.act p F.drvRetryRetries < n then 5 else 4) ∧ t.rd p F.drvStatCause = 1 ∧
        t.rd p F.drvStatTrips = n % 32 ∧ t.dev.ocPin.getLsbD ch = true ∧
        t.rd p F.drvCntOcCount = satAdd F.drvCntOcCount.width (s.rd p F.drvCntOcCount) 1 ∧
        t.is p F.drvFltOcp = true ∧
        (∃ x ∈ t.flt.msgs, x.src = p ∧ x.bit = F.drvFltOcp.lo ∧ x.crim = true ∧ x.cease = false) ∧
        (∀ k, drvGates t ch k = (false, false, false, false)) ∧
        (s.running (pgBst (ch / 4)) = true → bstState s (ch / 4) = 1 → bstState t (ch / 4) = 2) ∧
        (∀ c : Fin 16, c ≠ ch → drvState t c = drvState s c ∧ t.drv c = s.drv c) ∧
        otherPages s t [p, pgBst (ch / 4), pgDiag, pgHif, pgSeq] ∧ sameMemory s t) ∧
      ((drvState s ch = 0 ∨ 4 ≤ drvState s ch) → ∃ t, exec (.overcurrentTrip ⟨ch, true⟩) s = .next t ∧
        t.dev.ocPin.getLsbD ch = true ∧ drvState t ch = drvState s ch ∧ t.flt = s.flt ∧
        t.rd p F.drvStatTrips = s.rd p F.drvStatTrips ∧ otherPages s t [p] ∧ sameMemory s t) ∧
      (drvState s ch = 4 → ∃ t, exec (.retryExpiry ch) s = .next t ∧ (t.drv ch).retryDue = true ∧
        t.rd p F.drvTimerMs = 0 ∧ drvState t ch = 4 ∧ otherPages s t [p] ∧ sameMemory s t) ∧
      (drvState s ch = 1 → (s.drv ch).pre = 0 → ∃ t, exec (.prechargeDone ch) s = .next t ∧ drvState t ch = 2 ∧
        (t.drv ch).e1 = 0 ∧ (t.drv ch).e5 = 0 ∧ (t.drv ch).dcN = 0 ∧ otherPages s t [p] ∧ sameMemory s t) ∧
      (drvState s ch = 3 → ∃ t, exec (.tripCountClear ch) s = .next t ∧ t.rd p F.drvStatTrips = 0 ∧
        drvState t ch = 3 ∧ t.drv ch = s.drv ch ∧ otherPages s t [p] ∧ sameMemory s t) ∧
      ((drvState s ch = 2 ∨ drvState s ch = 3) → (s.drv ch).dcN = 9600 → ∃ t, exec (.dcWindow ch) s = .next t ∧
        (t.drv ch).dcN = 0 ∧ (t.drv ch).dcSum = 0 ∧
        (s.actIs p F.drvProtDcEn = true → s.act p F.drvProtDcMax * 9600 < (s.drv ch).dcSum.natAbs →
          drvState t ch = 5 ∧ t.rd p F.drvStatCause = 3 ∧ t.is p F.drvFltDcOffset = true ∧
          t.is p F.drvEvtLatched = true) ∧
        ((s.drv ch).dcSum.natAbs ≤ s.act p F.drvProtDcMax * 9600 → drvState t ch = drvState s ch ∧ t.flt = s.flt) ∧
        otherPages s t [p, pgDiag, pgHif, pgSeq] ∧ sameMemory s t)) ∧
    (granted s m = true → ∃ t, exec (.unlatch m ch) s = .next t ∧ t.mx.lastReply = 0 ∧ drvState t ch = drvState s ch ∧
      (s.running p = true → drvState s ch = 5 → (t.drv ch).unlatch = true) ∧
      (drvState s ch ≠ 5 → t.drv ch = s.drv ch) ∧ otherPages s t [] ∧ sameMemory s t) ∧
    (s.live = true → s.dev.safePin = false → ∃ t, exec .safePinAssert s = .next t ∧ t.dev.safePin = true ∧
      t.rd pgDev F.devCntSafeCount = satAdd F.devCntSafeCount.width (s.rd pgDev F.devCntSafeCount) 1 ∧
      (∀ c : Fin 16,
        drvState t c = (if 1 ≤ drvState s c ∧ drvState s c ≤ 3 then 6 else drvState s c) ∧
        (1 ≤ drvState s c → drvState s c ≤ 3 → t.rd (pgDrv c) F.drvStatCause = 5) ∧
        (∀ k, drvGates t c k = (false, false, false, false))) ∧
      (∀ g : Fin 4, bstHeldLow t g = true ∧ bstState t g = bstState s g) ∧ sameMemory s t) ∧
    ∃ t, exec .safePinRelease s = .next t ∧ t.dev = { s.dev with safePin := false } ∧
      (∀ c : Fin 16, drvState t c = drvState s c) ∧ otherPages s t [] ∧ sameMemory s t

/-- Boost controllers (R343, Table 11.3). HOLD ends after its ticks; each period begins with the gate high for the
share of its length that D gives, or low where the gate is held; BGg_ILIM_N ends it and is counted; BGg_OVP_N leads
from RUN and HOLD to OVP with I = 0, counted, its event and its fault set; without rail samples the controller is
BLIND; a thermal trip ends once every code has stayed below T_WARN. Completes: boostHoldExpiry, boostPeriod,
boostIlim, boostOvpPin, senseTimeout, thermalClear. -/
def Obligations.BoostControllersHoldRegulateAndTrip : Prop :=
  ∀ (s : State) (g : Fin 4) (p : Nat), p = pgBst g → s.live = true → s.running p = true →
    (bstState s g = 2 → (s.bst g).hold = 0 → ∃ t, exec (.boostHoldExpiry g) s = .next t ∧ bstState t g = 1 ∧
      t.bst g = s.bst g ∧ otherPages s t [p] ∧ sameMemory s t) ∧
    (∀ k : Fin 24, k.val < carrierCount (bstFreq s g) → ∃ t, exec (.boostPeriod g k) s = .next t ∧
      (t.bst g).on_ = (if bstHeldLow s g then 0 else (s.bst g).d.toNat * carrierLen (bstFreq s g) k / 2 ^ 24) ∧
      (t.bst g).ilim = false ∧ otherPages s t [] ∧ sameMemory s t) ∧
    ((s.bst g).on_ ≠ 0 → (s.bst g).ilim = false → ∃ t, exec (.boostIlim g) s = .next t ∧ (t.bst g).ilim = true ∧
      t.rd p F.bstCntIlim = satAdd F.bstCntIlim.width (s.rd p F.bstCntIlim) 1 ∧ otherPages s t [p] ∧ sameMemory s t) ∧
    (((s.bst g).on_ = 0 ∨ (s.bst g).ilim = true) → exec (.boostIlim g) s = .next s) ∧
    ((bstState s g = 1 ∨ bstState s g = 2) → ∃ t, exec (.boostOvpPin g true) s = .next t ∧ bstState t g = 3 ∧
      (t.bst g).ovpPin = true ∧ (t.bst g).i = 0 ∧ bstHeldLow t g = true ∧
      t.rd p F.bstCntOvpCount = satAdd F.bstCntOvpCount.width (s.rd p F.bstCntOvpCount) 1 ∧
      t.is p F.bstFltRailOv = true ∧ t.is p F.bstEvtOvpEnter = true ∧ otherPages s t [p, pgHif, pgSeq] ∧
      sameMemory s t) ∧
    (∃ t, exec (.boostOvpPin g false) s = .next t ∧ (t.bst g).ovpPin = false ∧ bstState t g = bstState s g ∧
      otherPages s t [] ∧ sameMemory s t) ∧
    (∃ t, exec (.senseTimeout g) s = .next t ∧ railCode t g = none ∧
      bstState t g = (if bstState s g = 1 ∨ bstState s g = 2 then 4 else bstState s g) ∧ otherPages s t [p] ∧
      sameMemory s t) ∧
    ((s.bst g).trip = true → (s.bst g).cool = true → ∃ t, exec (.thermalClear g) s = .next t ∧
      (t.bst g).trip = false ∧ thermalTrip t g = false ∧
      (∀ l ∈ t.flt.levels, l.src = p → l.bit = F.bstFltThermal.lo → l.crim = false) ∧ otherPages s t [] ∧
      sameMemory s t) ∧
    ((s.bst g).trip = false ∨ (s.bst g).cool = false → exec (.thermalClear g) s = .next s)

-- Measurement and diagnosis (12).

/-- Sense ports (R346 to R349). A whole frame on the wires gives twelve slots of 32 bits, most significant first, one
bit clock after the frame start with FS_DLY. The second frame in step leads from SYNC to RUN and completes there; in
RUN each frame shows its twelve slots, counts, and its rail code reaches the boost controller. A misplaced frame start
and a loss of clock lead from RUN back to SYNC, counted, with SYNC_SLIP or CLK_LOSS and the event LOST; in SYNC they
only begin it anew. A window of 2,400 ticks passed wholly in RUN with a count of frames outside 9,599 to 9,601 is a
slip. Completes: senseFrame, senseMisplacedFrameStart, senseClockLoss, senseCountCheck. -/
def Obligations.SensePortsSynchroniseAndDeliver : Prop :=
  ∀ (s : State) (g : Fin 4) (p : Nat), p = pgSns g → s.live = true → s.running p = true →
    (∀ (w : SerialFrame) (slots : List Word), snsWhole s g w = true → slots = snsSlots s g w →
      ((snsState s g = 2 ∨ (snsState s g = 1 ∧ 1 ≤ (s.sns g).good)) → ∃ t, exec (.senseFrame g w) s = .next t ∧
        snsState t g = 2 ∧ t.is p F.snsStatBclkPresent = true ∧
        (∀ j : Fin 12, t.reg p (0x060 + 4 * j.val) = rw0 slots j) ∧
        t.rd p F.snsFramesCount = (s.rd p F.snsFramesCount + 1) % 2 ^ 32 ∧
        (t.sns g).rail = some (senseCode (rw0 slots 8)) ∧
        (s.running (pgBst g) = true → bstState s g ≠ 0 →
          t.rd (pgBst g) F.bstRailCode = toBits 16 (senseCode (rw0 slots 8))) ∧
        (snsState s g = 1 → t.is p F.snsEvtRun = true) ∧ sameMemory s t) ∧
      (snsState s g = 1 → (s.sns g).good = 0 → ∃ t, exec (.senseFrame g w) s = .next t ∧ snsState t g = 1 ∧
        (t.sns g).good = 1 ∧ (t.sns g).rail = (s.sns g).rail ∧ t.rd p F.snsFramesCount = s.rd p F.snsFramesCount ∧
        otherPages s t [p] ∧ sameMemory s t)) ∧
    (∀ w : SerialFrame, snsWhole s g w = false →
      exec (.senseFrame g w) s = .next (s.setB p F.snsStatBclkPresent true)) ∧
    (snsState s g = 2 → ∃ t, exec (.senseMisplacedFrameStart g) s = .next t ∧ snsState t g = 1 ∧ (t.sns g).good = 0 ∧
      t.rd p F.snsCntSlip = satAdd F.snsCntSlip.width (s.rd p F.snsCntSlip) 1 ∧ t.is p F.snsFltSyncSlip = true ∧
      t.is p F.snsEvtLost = true ∧ t.is p F.snsStatBclkPresent = true ∧
      otherPages s t [p, pgDiag, pgHif, pgSeq] ∧ sameMemory s t) ∧
    (snsState s g ≠ 2 → ∃ t, exec (.senseMisplacedFrameStart g) s = .next t ∧ snsState t g = snsState s g ∧
      (t.sns g).good = 0 ∧ t.is p F.snsStatBclkPresent = true ∧ otherPages s t [p] ∧ sameMemory s t) ∧
    (snsState s g = 2 → ∃ t, exec (.senseClockLoss g) s = .next t ∧ snsState t g = 1 ∧ (t.sns g).good = 0 ∧
      t.is p F.snsStatBclkPresent = false ∧
      t.rd p F.snsCntLoss = satAdd F.snsCntLoss.width (s.rd p F.snsCntLoss) 1 ∧ t.is p F.snsFltClkLoss = true ∧
      t.is p F.snsEvtLost = true ∧ otherPages s t [p, pgDiag, pgHif, pgSeq] ∧ sameMemory s t) ∧
    (snsState s g ≠ 2 → ∃ t, exec (.senseClockLoss g) s = .next t ∧ snsState t g = snsState s g ∧
      t.is p F.snsStatBclkPresent = false ∧ otherPages s t [p] ∧ sameMemory s t) ∧
    (s.time.tick % 2400 = 0 → (s.sns g).win ≠ some s.time.tick → ∃ t, exec (.senseCountCheck g) s = .next t ∧
      (t.sns g).count = 0 ∧ (t.sns g).whole = (snsState s g == 2) ∧ snsState t g = snsState s g ∧
      ((s.sns g).whole = true → ((s.sns g).count < 9599 ∨ 9601 < (s.sns g).count) →
        t.rd p F.snsCntSlip = satAdd F.snsCntSlip.width (s.rd p F.snsCntSlip) 1 ∧ t.is p F.snsFltSyncSlip = true) ∧
      ((s.sns g).whole = false ∨ (9599 ≤ (s.sns g).count ∧ (s.sns g).count ≤ 9601) → t.flt = s.flt ∧
        t.rd p F.snsCntSlip = s.rd p F.snsCntSlip) ∧ otherPages s t [p] ∧ sameMemory s t)

/-- Exposure, capture and load diagnosis (R352 to R355, R357, R358, R360, R361). A meter closes its second with E stored
into its ring and its mean over WIN shown. GO begins a capture with MEA's next tick, or with CAP_TICK, which fails once
it has begun there (R64); a trigger ends one of MODE 0 and triggers one of MODE 1. A sweep, an abort and a PILOT_REF
capture wait for DIAG's boundary; a sweep is refused while one runs, begins on no DIAG that is off, goes from step to
step and ends with its event; an abort gives every channel that had not ended RESULT 1. A pilot window shows Z and its
class, which changes where two agree; a PILOT_REF capture takes the channels that carry the pilot. Completes:
exposureSecond, captureGo, captureStop, sweepGo, sweepAbort, pilotCapture, sweepStepEnd, pilotWindow. -/
def Obligations.MetersCapturesAndSweepsRun : Prop :=
  ∀ (s : State) (m : Master),
    (s.live = true → s.running pgMea = true → ∀ (e : Fin 8) (v sec ring : Nat), (s.exps e).on = true →
      s.time.tick % 24000 = 0 → (s.exps e).closed ≠ some s.time.tick →
      v = (s.exps e).sum / (24000 * expSamples s e) → sec = s.rd pgMea (expF F.meaExpSecS e) + 1 →
      ring = 0x077E0000 + 0x4000 * e.val + 4 * (sec % 3600) →
      ((s.exps e).first = true → ∃ t, exec (.exposureSecond e) s = .next t ∧ (t.exps e).first = false ∧
        (t.exps e).sum = 0 ∧ (t.exps e).es = (s.exps e).es ∧ otherPages s t [] ∧ sameMemory s t) ∧
      ((s.exps e).first = false → Memory.wf s.mem → ∃ t, exec (.exposureSecond e) s = .next t ∧
        (bankWaits s 4 = true → t.meas.late = s.meas.late ++ [(ring, [w32 v])] ∧ sameMemory s t) ∧
        (bankWaits s 4 = false → s.meas.late = [] → t.memWord ring = w32 v ∧
          (∀ a, (a < ring ∨ ring + 4 ≤ a) → Memory.read t.mem a = Memory.read s.mem a)) ∧
        t.rd pgMea (expF F.meaExpSecS e) = sec % 2 ^ 32 ∧ t.rd pgMea (expF F.meaExpLastE e) = v % 2 ^ 32 ∧
        t.rd pgMea (expF F.meaExpMsMs e)
          = (((v :: (s.exps e).es).take 3600).take (min sec (s.act pgMea (expF F.meaExpCfgWin e)))).sum
              / min sec (s.act pgMea (expF F.meaExpCfgWin e)) % 2 ^ 32 ∧
        t.is pgMea F.meaEvtExpSecond = true ∧ (t.exps e).sum = 0 ∧ t.pending = s.pending ∧
        otherPages s t [pgMea, pgHif, pgSeq])) ∧
    (granted s m = true →
      (∀ (v : Word) (r at_ : Nat), r = recBytes (capTaps s) → v.getLsbD 30 = false →
        at_ = s.rd pgMea F.meaCapTickHiTick * 2 ^ 32 + s.rd pgMea F.meaCapTickLoTick →
        (v.getLsbD 1 = false → r ≠ 0 → s.rd pgMea F.meaCapLenTicks * r ≤ 8257536 →
          (v.getLsbD 0 = true → s.rd pgMea F.meaCapPostTicks < s.rd pgMea F.meaCapLenTicks) →
          s.actIs pgMea F.ctrlDrain = false →
          (v.getLsbD 3 = true → at_ < meaNext s → ∃ t, exec (.captureGo m v) s = .next t ∧ t.mx.lastReply = 0 ∧
            (t.reg pgMea 0x010).getLsbD 3 = true ∧ t.is pgMea F.cmtFailed = true ∧
            (t.reg pgMea 0x020).getLsbD 1 = true ∧ t.meas = s.meas ∧ otherPages s t [pgMea, pgHif, pgSeq] ∧
            sameMemory s t) ∧
          ((v.getLsbD 3 = true → meaNext s ≤ at_) → ∃ t, exec (.captureGo m v) s = .next t ∧ t.mx.lastReply = 0 ∧
            t.is pgMea F.meaCapStatBusy = (s.running pgMea || s.is pgMea F.ctrlEn) ∧
            t.is pgMea F.meaCapStatDone = !(s.running pgMea || s.is pgMea F.ctrlEn) ∧
            t.rd pgMea F.meaCapStatRbytes = r % 2048 ∧
            t.meas.cap.start = (if v.getLsbD 3 then at_ else meaNext s) ∧ t.meas.cap.taps = capTaps s ∧
            t.meas.cap.count = 0 ∧ otherPages s t [pgMea, pgHif, pgSeq] ∧ sameMemory s t)) ∧
        ((v.getLsbD 1 = true ∨ r = 0 ∨ 8257536 < s.rd pgMea F.meaCapLenTicks * r ∨
            (v.getLsbD 0 = true ∧ s.rd pgMea F.meaCapLenTicks ≤ s.rd pgMea F.meaCapPostTicks)) →
          ∃ t, exec (.captureGo m v) s = .next t ∧ t.mx.lastReply = 1 ∧ (t.reg pgMea 0x010).getLsbD 2 = true ∧
          t.meas = s.meas ∧ t.is pgMea F.meaCapStatBusy = s.is pgMea F.meaCapStatBusy ∧ otherPages s t [pgMea] ∧
          sameMemory s t)) ∧
      (s.rd pgMea F.meaCapCtrlMode < 2 →
        (s.is pgMea F.meaCapStatBusy = true → s.rd pgMea F.meaCapCtrlMode = 0 →
          ∃ t, exec (.captureStop m) s = .next t ∧ t.mx.lastReply = 0 ∧ t.is pgMea F.meaCapStatBusy = false ∧
          t.is pgMea F.meaCapStatDone = true ∧ t.is pgMea F.meaEvtCapDone = true ∧
          otherPages s t [pgMea, pgHif, pgSeq] ∧ sameMemory s t) ∧
        (s.is pgMea F.meaCapStatBusy = true → s.rd pgMea F.meaCapCtrlMode = 1 →
          s.is pgMea F.meaCapStatTriggered = false → 1 ≤ s.rd pgMea F.meaCapPostTicks →
          ∃ t, exec (.captureStop m) s = .next t ∧ t.mx.lastReply = 0 ∧ t.is pgMea F.meaCapStatBusy = true ∧
          t.is pgMea F.meaCapStatTriggered = true ∧ t.meas.cap.left = some (s.rd pgMea F.meaCapPostTicks) ∧
          t.is pgMea F.meaEvtCapTrig = true ∧ otherPages s t [pgMea, pgHif, pgSeq] ∧ sameMemory s t) ∧
        (s.is pgMea F.meaCapStatBusy = false → ∃ t, exec (.captureStop m) s = .next t ∧ t.mx.lastReply = 0 ∧
          t.meas = s.meas ∧ otherPages s t [pgMea] ∧ sameMemory s t)) ∧
      (∀ (mask : BitVec 16) (ok : Prop),
        (ok ↔ (if 0 < s.rd pgDiag F.diagTonesNt
          then s.rd pgDiag F.diagTonesLfIdx < s.rd pgDiag F.diagTonesNt ∧
            s.rd pgDiag F.diagTonesHfIdx < s.rd pgDiag F.diagTonesNt
          else s.is pgDiag F.diagTonesDcEn = true)) →
        (sweeping s = true → exec (.sweepGo m mask) s = .next (answered s 8 0)) ∧
        (sweeping s = false → ok → ∃ t, exec (.sweepGo m mask) s = .next t ∧ t.mx.lastReply = 0 ∧
          t.arch.acts = (if engaged s pgDiag then s.arch.acts ++ [(keyOf pgDiag 0x040, 0x80000000)] else s.arch.acts) ∧
          t.diag = s.diag ∧ t.rd pgDiag F.diagCtrlChMask = mask.toNat ∧ sweeping t = false ∧ otherPages s t [pgDiag] ∧
          sameMemory s t) ∧
        (sweeping s = false → ¬ ok → ∃ t, exec (.sweepGo m mask) s = .next t ∧
          t.mx.lastReply = 1 ∧ t.diag = s.diag ∧ otherPages s t [pgDiag] ∧ sameMemory s t) ∧
        (engaged s pgDiag = true → ∃ t, exec (.sweepAbort m mask) s = .next t ∧ t.mx.lastReply = 0 ∧
          t.arch.acts = s.arch.acts ++ [(keyOf pgDiag 0x040, 0x40000000)] ∧ t.diag = s.diag ∧
          sweeping t = sweeping s ∧ t.rd pgDiag F.diagCtrlChMask = mask.toNat ∧ otherPages s t [pgDiag] ∧
          sameMemory s t) ∧
        (engaged s pgDiag = false → sweeping s = false → ∃ t, exec (.sweepAbort m mask) s = .next t ∧
          t.mx.lastReply = 0 ∧ t.diag = s.diag ∧ t.rd pgDiag F.diagCtrlChMask = mask.toNat ∧ sameMemory s t)) ∧
      (24 ≤ s.rd pgDiag F.diagPilotWinTicks → engaged s pgDiag = true → ∃ t, exec (.pilotCapture m) s = .next t ∧
        t.mx.lastReply = 0 ∧ t.arch.acts = s.arch.acts ++ [(keyOf pgDiag 0x07C, 0x80000000)] ∧ t.diag = s.diag ∧
        otherPages s t [pgDiag] ∧ sameMemory s t)) ∧
    (∀ t, t = actsTake s pgDiag →
      (s.arch.acts = [(keyOf pgDiag 0x040, 0x80000000)] → s.running pgDiag = true →
        s.actIs pgDiag F.ctrlDrain = false → t.diag = { s.diag with go := true }) ∧
      (s.arch.acts = [(keyOf pgDiag 0x040, 0x40000000)] → sweeping s = true → sweeping t = false ∧
        t.is pgDiag F.diagEvtSweepDone = true ∧
        (∀ c : Fin 16, natBit s.diag.mask c = true →
          t.rd pgDiag (diagF F.diagChResSeq c) = (s.rd pgDiag (diagF F.diagChResSeq c) + 1) % 256 ∧
          ((s.diag.chans.get {} c).ended = false → t.rd pgDiag (diagF F.diagChResResult c) = 1)) ∧
        otherPages s t [pgDiag, pgHif, pgSeq] ∧ sameMemory s t) ∧
      (s.arch.acts = [(keyOf pgDiag 0x07C, 0x80000000)] →
        t.diag = { s.diag with capture := s.act pgDiag F.diagPilotEnMask })) ∧
    (s.diag.go = true → sweeping s = false → s.flt.safeOut = false → sweeping (diagBoundary s) = true ∧
      (diagBoundary s).diag.go = false ∧ (diagBoundary s).diag.mask = s.rd pgDiag F.diagCtrlChMask) ∧
    (s.live = true → s.running pgDiag = true →
      (sweeping s = true → (∀ n ∈ s.diag.steps, n ≤ 8) →
        (s.diag.pos < stepTicks s → exec .sweepStepEnd s = .next s) ∧
        (stepTicks s ≤ s.diag.pos → ∃ t, exec .sweepStepEnd s = .next t ∧
          (∀ n ns, s.diag.steps.drop 1 = n :: ns → t.diag.steps = n :: ns ∧ t.diag.pos = 0 ∧ sweeping t = true ∧
            t.rd pgDiag F.diagStatStep = n) ∧
          (s.diag.steps.drop 1 = [] → sweeping t = false ∧ t.diag.steps = [] ∧
            t.is pgDiag F.diagEvtSweepDone = true ∧
            ∀ c : Fin 16, natBit s.diag.mask c = true →
              t.rd pgDiag (diagF F.diagChResSeq c) = (s.rd pgDiag (diagF F.diagChResSeq c) + 1) % 256) ∧
          (∀ c : Fin 16, natBit s.diag.mask c = true → (s.diag.chans.get {} c).ended = false →
            (s.diag.chans.get {} c).n < 4 * s.act pgDiag F.diagStepMeas →
            t.rd pgDiag (diagF F.diagChResResult c) = 3) ∧
          otherPages s t [pgDiag, pgHif, pgSeq] ∧ sameMemory s t)) ∧
      (∀ (ch : Fin 16) (x : DiagChan), s.diag.pilots.find ch = some x → pilotOn s ch = true →
        s.act pgDiag F.diagPilotWinTicks ≤ x.ticks →
        (4 * s.act pgDiag F.diagPilotWinTicks ≤ x.n → ∃ t z, exec (.pilotWindow ch) s = .next t ∧
          t.rd pgDiag (diagF F.diagChPilotZMohm ch) = z ∧ t.diag.seen.find ch = some (pilotClass s ch z) ∧
          t.diag.pilots.find ch = some {} ∧
          t.rd pgDiag (diagF F.diagChResPilotClass ch)
            = (if s.diag.seen.find ch = some (pilotClass s ch z) then pilotClass s ch z
               else s.rd pgDiag (diagF F.diagChResPilotClass ch)) ∧
          (natBit s.diag.capture ch = true → t.rd pgDiag (diagF F.diagChPilotRefMohm ch) = z) ∧
          otherPages s t [pgDiag, pgHif, pgSeq] ∧ sameMemory s t) ∧
        (x.n < 4 * s.act pgDiag F.diagPilotWinTicks → ∃ t, exec (.pilotWindow ch) s = .next t ∧
          (∀ k, k ≠ ch.val → t.diag.pilots.find k = s.diag.pilots.find k) ∧ t.diag.seen = s.diag.seen ∧
          otherPages s t [] ∧ sameMemory s t)))

-- Queues (13).

/-- Building and ending items (R365 to R376, R382, R386). A start word that no cause of Table 13.2 meets opens an item
in a free cell of the pool; word i of an item is written to word i mod 16 of its cell i div 16 and no other byte of
memory changes; which free cell is taken is the model's free value (log 10). The end mark links the item at the tail,
whole, and where a read stalls on the queue that read takes it; a cause refuses the item, which is counted and recorded,
and its later words are discarded. An abort and a timeout abandon the open item. EN of a queue is refused where R370
says so, acts at the boundary, and a FLUSH waits for it. A link memory error is raised; an uncorrectable one breaks its
queue and loses its cells. Completes: queuePush, pushAbort, itemTimeout, queueEnable, flushRequest, linkEccError. -/
def Obligations.QueueItemsAreBuiltLinkedAndRefused : Prop :=
  ∀ (s : State) (m : Master) (x : PortQ), x = s.qport (masterNo m) → Memory.wf s.mem →
    (granted s m = true → x.discard = false → s.resetting pgQmg = false → ∀ (last : Bool) (w : Word) (q cause : Nat),
      (∀ l a, x.open_ = none → q = x.pushQ → startCause s q w 1 false = 0 →
        l = (newCells (poolTake s 1) [] 1).1 → a = cellAddr l 0 →
        ((usedCells s).length < 65536 → l.length = 1 ∧ ∀ c ∈ l, c < 65536 ∧ c ∉ usedCells s) ∧
        (last = false → (∀ k ∈ s.qmg.stalls, (s.qport k).stall ≠ some q) →
          ∃ t, exec (.queuePush m last w) s = .next t ∧ t.mx.lastReply = 0 ∧
          (t.qport (masterNo m)).open_ = some { queue := q, words := 1, cells := l } ∧
          t.rd pgQmg F.qmgPoolFreeCells = s.rd pgQmg F.qmgPoolFreeCells - 1 ∧
          (∀ k, t.queue k = s.queue k) ∧ t.memWord a = w ∧
          ∀ b, b < a ∨ a + 4 ≤ b → Memory.read t.mem b = Memory.read s.mem b) ∧
        (last = true → qdRd s q F.qdescW0Bind = 0 →
          ((∀ k ∈ s.qmg.stalls, (s.qport k).stall ≠ some q) → ∃ t, exec (.queuePush m last w) s = .next t ∧
            (t.qport (masterNo m)).open_ = none ∧ (t.qport (masterNo m)).result = 1 ∧
            (t.queue q).items = (s.queue q).items ++ [{ words := 1, cells := l }] ∧
            (∀ k, k ≠ q → t.queue k = s.queue k) ∧ t.memWord a = w ∧
            ∀ b, b < a ∨ a + 4 ≤ b → Memory.read t.mem b = Memory.read s.mem b) ∧
          (∀ n, s.qmg.stalls = [n] → (s.qport n).stall = some q → (s.qport n).drain = 0 → (s.queue q).items = [] →
            (s.queue q).popped = 0 → (s.queue q).holder = none → ∃ t, exec (.queuePush m last w) s = .next t ∧
            (t.qport n).stall = none ∧ (t.qport n).stallRes = some w ∧ (t.queue q).items = [] ∧
            ∀ b, b < a ∨ a + 4 ≤ b → Memory.read t.mem b = Memory.read s.mem b))) ∧
      (∀ o n l a, x.open_ = some o → n = (if o.words % 16 = 0 then 1 else 0) →
        l = (newCells (poolTake s n) o.cells n).1 → a = cellAddr l o.words → q = o.queue → queueOn s q = true →
        o.words < 4096 → o.marked = false →
        qdRd s q F.qdescW0Bind = 0 → (∀ k ∈ s.qmg.stalls, (s.qport k).stall ≠ some q) →
        occOf s q + 1 ≤ qdAct s q F.qdescW1Limit → poolAllows s 1 = true →
        ∃ t, exec (.queuePush m last w) s = .next t ∧ t.mx.lastReply = 0 ∧
          (if last then (t.qport (masterNo m)).open_ = none ∧
             (t.queue q).items = (s.queue q).items ++ [{ words := o.words + 1, cells := l }]
           else (t.qport (masterNo m)).open_ = some { o with words := o.words + 1, cells := l } ∧
             (t.queue q).items = (s.queue q).items) ∧
          (∀ k, k ≠ q → t.queue k = s.queue k) ∧ t.memWord a = w ∧
          ∀ b, b < a ∨ a + 4 ≤ b → Memory.read t.mem b = Memory.read s.mem b) ∧
      (∀ o, x.open_ = some o → q = o.queue → queueOn s q = true → qdRd s q F.qdescW0Bind = 2 → (s.queue q).sets = [] →
        (∀ k ∈ s.qmg.stalls, (s.qport k).stall ≠ some q) →
        ∃ t, exec (.queuePush m last w) s = .next t ∧ (t.qport (masterNo m)).open_ = none ∧
          (t.qport (masterNo m)).result = 5 ∧ (t.qport (masterNo m)).discard = !last ∧
          (∀ k, t.queue k = s.queue k) ∧ sameMemory s t) ∧
      (x.open_ = none → q = x.pushQ → cause = sizeFirst s q last w 1 (startCause s q w 1 false) → cause ≠ 0 →
        (∀ p, (s.queue q).boundTo = some p → 0x20 ≤ p ∧ p < 0x24) →
        ∃ t, exec (.queuePush m last w) s = .next t ∧ (t.qport (masterNo m)).result = cause ∧
          (t.qport (masterNo m)).discard = !last ∧
          t.rd pgQmg F.qmgCntRefusedCount = satAdd F.qmgCntRefusedCount.width (s.rd pgQmg F.qmgCntRefusedCount) 1 ∧
          t.rd pgQmg F.qmgLastRefuseQueue = q % 1024 ∧
          t.rd pgQmg F.qmgLastRefuseCause = cause ∧ t.is pgQmg F.qmgEvtRefused = true ∧
          (∀ k, t.queue k = s.queue k) ∧ sameMemory s t)) ∧
    (granted s m = true → x.discard = true → ∀ last w, ∃ t, exec (.queuePush m last w) s = .next t ∧
      t.mx.lastReply = 0 ∧ (t.qport (masterNo m)).discard = !last ∧ t.qmg.queues = s.qmg.queues ∧
      otherPages s t [] ∧ sameMemory s t) ∧
    (∀ c, (c = Instr.pushAbort m ∧ granted s m = true) ∨
        (c = Instr.itemTimeout m ∧ s.live = true ∧ s.running pgQmg = true) →
      (∀ o, x.open_ = some o → (∀ k ∈ s.qmg.stalls, (s.qport k).stall ≠ some o.queue) →
        (s.queue o.queue).sets = [] → ∃ t, exec c s = .next t ∧
        (t.qport (masterNo m)).open_ = none ∧ (t.qport (masterNo m)).discard = true ∧
        (t.qport (masterNo m)).result = 7 ∧
        t.rd pgQmg F.qmgCntAbandonCount = satAdd F.qmgCntAbandonCount.width (s.rd pgQmg F.qmgCntAbandonCount) 1 ∧
        t.rd pgQmg F.qmgCntRefusedCount = satAdd F.qmgCntRefusedCount.width (s.rd pgQmg F.qmgCntRefusedCount) 1 ∧
        t.rd pgQmg F.qmgCntFlushedCount
          = satAdd F.qmgCntFlushedCount.width (s.rd pgQmg F.qmgCntFlushedCount) (if o.marked then 1 else 0) ∧
        (∀ k, t.queue k = s.queue k) ∧ sameMemory s t) ∧
      (x.open_ = none → ∃ t, exec c s = .next t ∧ t.qmg = s.qmg ∧ otherPages s t [] ∧ sameMemory s t)) ∧
    (∀ (q : QueueIx) (v : Word) (lim mode : Nat) (bad : Prop), lim = qdRd s q F.qdescW1Limit →
      mode = qdRd s q F.qdescW1EmptyMode →
      (bad ↔ lim = 0 ∨ (mode = 0 ∧ 256 < lim) ∨ (mode = 1 ∧ lim ≤ 256) ∨ qdRd s q F.qdescW2StallTmo = 0 ∨
        (qdRd s q F.qdescW2ThrEn = 1 ∧ (qdRd s q F.qdescW2Thresh = 0 ∨ lim < qdRd s q F.qdescW2Thresh))) →
      granted s m = true → s.running pgQmg = true →
      ((v.getLsbD 31 = false ∨ qdRd s q F.qdescW0En = 1 ∨ ¬ bad) → ∃ t, exec (.queueEnable m q v) s = .next t ∧
        t.mx.lastReply = 0 ∧ qdRd t q F.qdescW0En = (if v.getLsbD 31 then 1 else 0) ∧
        qdAct t q F.qdescW0En = qdAct s q F.qdescW0En ∧ (t.queue q).items = (s.queue q).items ∧
        (t.queue q).flush = ((s.queue q).flush || v.getLsbD 30) ∧ otherPages s t [descPage q] ∧ sameMemory s t) ∧
      (v.getLsbD 31 = true → qdRd s q F.qdescW0En = 0 → qdAct s q F.qdescW0En = 0 → bad →
        ∃ t, exec (.queueEnable m q v) s = .next t ∧ t.mx.lastReply = 1 ∧ t.qmg = s.qmg ∧
        qdRd t q F.qdescW0En = 0 ∧ sameMemory s t) ∧
      (∃ t, exec (.flushRequest m q) s = .next t ∧ t.mx.lastReply = 0 ∧ (t.queue q).flush = true ∧
        (t.queue q).items = (s.queue q).items ∧ qdRd t q F.qdescW0En = qdRd s q F.qdescW0En ∧
        otherPages s t [] ∧ sameMemory s t)) ∧
    (s.live = true → s.running pgQmg = true → ∀ lost : Nat,
      (∀ q : Option QueueIx, ∃ t, exec (.linkEccError q false lost) s = .next t ∧ t.is pgQmg F.qmgFltEccCorr = true ∧
        t.qmg = s.qmg ∧ otherPages s t [pgQmg] ∧ sameMemory s t) ∧
      (∀ q : QueueIx, ∃ t, exec (.linkEccError (some q) true lost) s = .next t ∧
        t.is pgQmg F.qmgFltEccUncorr = true ∧ qdRd t q F.qdescW0Broken = 1 ∧ qdRd t q F.qdescW0En = 0 ∧
        (t.queue q).items = [] ∧ (t.queue q).holder = none ∧ sameMemory s t) ∧
      (∃ t, exec (.linkEccError none true lost) s = .next t ∧ t.is pgQmg F.qmgFltEccUncorr = true ∧
        t.rd pgQmg F.qmgPoolFreeCells = s.rd pgQmg F.qmgPoolFreeCells - min lost (s.rd pgQmg F.qmgPoolFreeCells) ∧
        t.qmg = s.qmg ∧ sameMemory s t))

/-- Popping items (R377 to R380). A pop of a queue that is off or bound to a MAC fails with the data word 0 and its
tag; a pop of a ready head gives its next word, holds the item until its last word and then returns its cells; with
nothing ready it fails with tag 0 or 7, or stalls, by EMPTY_MODE. A stalled read ends with TIMEOUT and a held item is
discarded when their times expire, both counted. Completes: queuePop, stallTimeout, heldItemTimeout. -/
def Obligations.QueueItemsArePoppedHeldAndStalled : Prop :=
  ∀ (s : State) (m : Master) (x : PortQ) (q : Nat), x = s.qport (masterNo m) → q = x.popQ →
    (granted s m = true → x.stallRes = none →
      (queueOn s q = false ∨ qdRd s q F.qdescW0Bind = 1 → ∃ t, exec (.queuePop m) s = .next t ∧ t.mx.lastReply = 0 ∧
        t.mx.lastData = 0 ∧
        (t.qport (masterNo m)).info = infoWord s (if queueOn s q then 8 else tagDisabled) 0 q ∧
        t.qmg.queues = s.qmg.queues ∧ otherPages s t [] ∧ sameMemory s t) ∧
      (∀ it rest i left, queueOn s q = true → qdRd s q F.qdescW0Bind ≠ 1 → headFree s (masterNo m) q = true →
        (s.queue q).items = it :: rest → i = (s.queue q).popped → left = it.words - (i + 1) →
        (∀ k ∈ s.qmg.stalls, (s.qport k).stall ≠ some q) →
        ∃ t, exec (.queuePop m) s = .next t ∧ t.mx.lastReply = 0 ∧ t.mx.lastData = s.memWord (cellAddr it.cells i) ∧
        (t.queue q).items = (if left = 0 then rest else it :: rest) ∧
        (t.queue q).popped = (if left = 0 then 0 else i + 1) ∧
        (t.queue q).holder = (if left = 0 then none else some (masterNo m)) ∧
        qdRd t q F.qdescW0Held = (if left = 0 then 0 else 1) ∧
        (t.qport (masterNo m)).info
          = infoWord t (if left = 0 then (if i = 0 then 4 else 3) else if i = 0 then 1 else 2) left q ∧
        t.rd pgQmg F.qmgPoolFreeCells = (if left = 0 ∨ (i + 1) % 16 = 0
          then min 65536 (s.rd pgQmg F.qmgPoolFreeCells + 1) else s.rd pgQmg F.qmgPoolFreeCells) ∧
        (∀ k, k ≠ q → t.queue k = s.queue k) ∧ sameMemory s t) ∧
      (queueOn s q = true → qdRd s q F.qdescW0Bind ≠ 1 → headFree s (masterNo m) q = false →
        (qdAct s q F.qdescW1EmptyMode = 0 → ∃ t, exec (.queuePop m) s = .next t ∧ t.mx.lastReply = 0 ∧
          t.mx.lastData = 0 ∧
          (t.qport (masterNo m)).info = infoWord s (if (s.queue q).items = [] then 0 else 7) 0 q ∧
          t.qmg.queues = s.qmg.queues ∧ otherPages s t [] ∧ sameMemory s t) ∧
        (qdAct s q F.qdescW1EmptyMode ≠ 0 → ∃ t, exec (.queuePop m) s = .next t ∧
          (t.qport (masterNo m)).stall = some q ∧ t.qmg.stalls.getLast? = some (masterNo m) ∧
          t.qmg.queues = s.qmg.queues ∧ otherPages s t [] ∧ sameMemory s t))) ∧
    (s.live = true → ∀ n, x.stall = some n → ∃ t, exec (.stallTimeout m) s = .next t ∧
      (t.qport (masterNo m)).stall = none ∧
      (t.qport (masterNo m)).stallRes = (if x.drain = 0 then some 0 else none) ∧
      (t.qport (masterNo m)).info = infoWord s tagTimeout 0 n ∧ masterNo m ∉ t.qmg.stalls ∧
      t.rd pgQmg F.qmgCntTimeoutCount = satAdd F.qmgCntTimeoutCount.width (s.rd pgQmg F.qmgCntTimeoutCount) 1 ∧
      t.qmg.queues = s.qmg.queues ∧ otherPages s t [pgQmg] ∧ sameMemory s t) ∧
    (x.stall = none → exec (.stallTimeout m) s = .next s) ∧
    (s.live = true → s.running pgQmg = true → ∀ (k : QueueIx) (h : Nat) (it : PoolItem) (rest : List PoolItem),
      (s.queue k).holder = some h → (s.queue k).items = it :: rest →
      (∀ j ∈ s.qmg.stalls, (s.qport j).stall ≠ some k.val) → ∃ t, exec (.heldItemTimeout k) s = .next t ∧
      (t.queue k).items = rest ∧ (t.queue k).popped = 0 ∧ (t.queue k).holder = none ∧
      qdRd t k F.qdescW0Held = 0 ∧
      t.rd pgQmg F.qmgCntAbandonCount = satAdd F.qmgCntAbandonCount.width (s.rd pgQmg F.qmgCntAbandonCount) 1 ∧
      (∀ j, j ≠ k.val → t.queue j = s.queue j) ∧ sameMemory s t) ∧
    (∀ k : QueueIx, (s.queue k).holder = none → exec (.heldItemTimeout k) s = .next s)

-- Memory banks, the secure bank and the bus matrix (14).

/-- Transactions of a bank (R389 to R391, R393, R394, R402, R406, R407). A read answers the word; with one bit in error
the corrected word, counted, and waiting for its write-back; with two bits 0 and DATA_ERR, the word reading as 0 from
then on. A full write replaces the word and ends its error; a partial write replaces the bytes it enables, a corrected
error counted, and of a word with two bits in error is refused. A conflict stalls port B 16 times before it wins, and
where both ports meet at one word port A is first. The transaction after a broken lock carries BROKEN. A transaction
that must wait is kept; one without a response ends with TIMEOUT and data 0, recorded by XBR, and a lock breaks after
MAX_CYC. Completes: transactionResponse, transactionTimeout, lockBreak. -/
def Obligations.BankTransactionsReadWriteAndFail : Prop :=
  ∀ (s : State) (x : Txn) (b a : Nat), s.live = true → a = x.addr.toNat / 4 * 4 →
    targetOf s (masterNo x.m) x.addr.toNat x.be x.wr.isSome = b →
    (b < 8 → mustWait s (masterNo x.m) b = false → s.mx.wiping = none → s.mx.slicing = [] → s.mx.locks.find b = none →
      (∀ next, s.mx.broken.find (masterNo x.m * 16 + b) = some next → x.wr = none → ∃ t,
        exec (.transactionResponse x) s = .next t ∧
        (next = true → t.mx.lastResp = 4 ∧ t.mx.lastReply = 4 ∧ t.mx.lastData = 0)) ∧
      (s.mx.broken.find (masterNo x.m * 16 + b) = none →
        (x.wr = none → x.collide = none → x.badBits = 0 → s.mx.dead.contains a = false →
          s.mx.wback.contains a = false → ∃ t, exec (.transactionResponse x) s = .next t ∧ t.mx.lastResp = 0 ∧
          t.mx.lastReply = 0 ∧ t.mx.lastData = s.memWord a ∧ otherPages s t [pgMem b] ∧ sameMemory s t ∧
          (x.conflict = false → otherPages s t []) ∧
          (x.conflict = true → s.mx.stalls.get 0 (macroKey b x.addr.toNat) < 16 →
            t.rd (pgMem b) F.memConflictBStalls
              = satAdd F.memConflictBStalls.width (s.rd (pgMem b) F.memConflictBStalls) 1 ∧
            t.mx.stalls.get 0 (macroKey b x.addr.toNat) = s.mx.stalls.get 0 (macroKey b x.addr.toNat) + 1) ∧
          (x.conflict = true → 16 ≤ s.mx.stalls.get 0 (macroKey b x.addr.toNat) →
            t.rd (pgMem b) F.memConflictBWins
              = satAdd F.memConflictBWins.width (s.rd (pgMem b) F.memConflictBWins) 1)) ∧
        (x.wr = none → x.conflict = false → x.collide = none → s.mx.dead.contains a = false →
          (x.badBits = 1 → ∃ t, exec (.transactionResponse x) s = .next t ∧ t.mx.lastResp = 0 ∧
            t.mx.lastReply = 0 ∧ t.mx.lastData = s.memWord a ∧ a ∈ t.mx.wback ∧
            t.rd (pgMem b) F.memEccCorr = satAdd F.memEccCorr.width (s.rd (pgMem b) F.memEccCorr) 1 ∧
            t.reg (pgMem b) F.memLastErrAddr.ofs = w32 a ∧ t.is (pgMem b) F.memFltEccCorr = true ∧
            otherPages s t [pgMem b] ∧ sameMemory s t) ∧
          (x.badBits = 2 → Memory.wf s.mem → ∃ t, exec (.transactionResponse x) s = .next t ∧ t.mx.lastResp = 2 ∧
            t.mx.lastReply = 2 ∧ t.mx.lastData = 0 ∧ a ∈ t.mx.dead ∧
            t.rd (pgMem b) F.memEccUncorr = satAdd F.memEccUncorr.width (s.rd (pgMem b) F.memEccUncorr) 1 ∧
            t.reg (pgMem b) F.memLastErrAddr.ofs = w32 a ∧ t.is (pgMem b) F.memFltEccUncorr = true ∧
            t.memWord a = 0 ∧ (∀ c, (c < a ∨ a + 4 ≤ c) → Memory.read t.mem c = Memory.read s.mem c) ∧
            otherPages s t [pgMem b] ∧ t.pending = s.pending)) ∧
        (∀ v, x.wr = some v → Memory.wf s.mem →
          (x.be = 0xF → ∃ t, exec (.transactionResponse x) s = .next t ∧ t.mx.lastReply = 0 ∧ t.memWord a = v ∧
            a ∉ t.mx.dead ∧ a ∉ t.mx.wback ∧
            (∀ c, (c < a ∨ a + 4 ≤ c) → Memory.read t.mem c = Memory.read s.mem c) ∧
            (x.collide.isSome = true →
              t.rd (pgMem b) F.memCollCount = satAdd F.memCollCount.width (s.rd (pgMem b) F.memCollCount) 1) ∧
            t.pending = s.pending ∧ otherPages s t [pgMem b, pgSec]) ∧
          (x.be ≠ 0xF → x.be ≠ 0 → x.collide = none → s.mx.dead.contains a = false → x.badBits.toNat ≤ 1 →
            ∃ t, exec (.transactionResponse x) s = .next t ∧ t.mx.lastReply = 0 ∧
            t.memWord a = mergeWord (s.memWord a) v x.be ∧
            (∀ c, (c < a ∨ a + 4 ≤ c) → Memory.read t.mem c = Memory.read s.mem c) ∧
            (x.badBits = 1 → t.rd (pgMem b) F.memEccCorr
              = satAdd F.memEccCorr.width (s.rd (pgMem b) F.memEccCorr) 1) ∧
            t.pending = s.pending ∧ otherPages s t [pgMem b, pgSec]) ∧
          (x.be ≠ 0xF → x.be ≠ 0 → x.collide = none → s.mx.dead.contains a = true →
            ∃ t, exec (.transactionResponse x) s = .next t ∧ t.mx.lastResp = 2 ∧ t.mx.lastReply = 2 ∧
            t.rd (pgMem b) F.memEccUncorr = satAdd F.memEccUncorr.width (s.rd (pgMem b) F.memEccUncorr) 1 ∧
            a ∈ t.mx.dead ∧ sameMemory s t)) ∧
        (∀ w, x.wr = none → x.collide = some w → x.badBits = 0 → Memory.wf s.mem →
          ∃ t, exec (.transactionResponse x) s = .next t ∧ t.mx.lastReply = 0 ∧ t.mx.lastData = w ∧
          t.memWord a = w))) ∧
    (b < 8 → mustWait s (masterNo x.m) b = true → (s.qport (masterNo x.m)).stall = none →
      exec (.transactionResponse x) s
        = .next { s with mx := { s.mx with waits := s.mx.waits.put (masterNo x.m) x.addr } }) ∧
    (∀ (m : Master) ad, (s.qport (masterNo m)).stall = none → s.mx.waits.find (masterNo m) = some ad →
      ∃ t, exec (.transactionTimeout m) s = .next t ∧ t.mx.lastResp = 3 ∧ t.mx.lastReply = 3 ∧ t.mx.lastData = 0 ∧
      t.mx.waits = s.mx.waits.del (masterNo m) ∧ t.reg pgXbr F.xbrLastErrAddr.ofs = ad ∧
      t.rd pgXbr F.xbrCntTmoCount = satAdd F.xbrCntTmoCount.width (s.rd pgXbr F.xbrCntTmoCount) 1 ∧
      t.is pgXbr F.xbrFltXactTmo = true ∧ otherPages s t [pgXbr] ∧ sameMemory s t) ∧
    (∀ m : Master, (s.qport (masterNo m)).stall = none → s.mx.waits.find (masterNo m) = none →
      (∀ c, m = .hif → s.hif.deferred = some c → s.hif.done.length < c.n → ∃ t, exec (.transactionTimeout m) s = .next t ∧
        t.hif.done = s.hif.done ++ [(3, 0)] ∧
        t.rd pgXbr F.xbrCntTmoCount = satAdd F.xbrCntTmoCount.width (s.rd pgXbr F.xbrCntTmoCount) 1 ∧
        t.reg pgXbr F.xbrLastErrAddr.ofs = c.addr + w32 (4 * s.hif.done.length) ∧
        t.rd pgXbr F.xbrLastInfoKind = 0x12 ∧ t.is pgXbr F.xbrFltXactTmo = true ∧ otherPages s t [pgXbr] ∧
        sameMemory s t) ∧
      (∀ r rest, m = .hif → s.hif.deferred = none → s.hif.net = r :: rest → r.waits = true →
        ∃ t, exec (.transactionTimeout m) s = .next t ∧
        t.hif.net = { r with done := r.done ++ [(3, 0)], waits := false } :: rest ∧
        t.rd pgXbr F.xbrCntTmoCount = satAdd F.xbrCntTmoCount.width (s.rd pgXbr F.xbrCntTmoCount) 1 ∧
        t.is pgXbr F.xbrFltXactTmo = true ∧ otherPages s t [pgXbr] ∧ sameMemory s t) ∧
      (m = .dbg → s.dev.dbgRuns.isSome = true → ∃ t, exec (.transactionTimeout m) s = .next t ∧
        t.dev.dbgRuns = none ∧ t.dev.dbgAcc = (3, s.dev.dbgAcc.2.1, 0) ∧
        t.rd pgXbr F.xbrCntTmoCount = satAdd F.xbrCntTmoCount.width (s.rd pgXbr F.xbrCntTmoCount) 1 ∧
        t.is pgXbr F.xbrFltXactTmo = true ∧ otherPages s t [pgXbr] ∧ sameMemory s t) ∧
      (∀ (c : Fin 8) y, m = .seq → (s.ctx c).txn = some y → y.reply = none → y.again = false →
        (∀ d < c.val, (s.ctx d).txn = none) → ∃ t, exec (.transactionTimeout m) s = .next t ∧
        (t.ctx c).txn = some { y with reply := some 3, data := 0 } ∧
        t.reg pgXbr F.xbrLastErrAddr.ofs = w32 (txnAddr y) ∧
        t.rd pgXbr F.xbrCntTmoCount = satAdd F.xbrCntTmoCount.width (s.rd pgXbr F.xbrCntTmoCount) 1 ∧
        t.is pgXbr F.xbrFltXactTmo = true ∧ otherPages s t [pgXbr] ∧ sameMemory s t) ∧
      (m ∉ [.hif, .seq, .dbg] → exec (.transactionTimeout m) s = .next s)) ∧
    (∀ m : Master, (s.qport (masterNo m)).stall.isSome = true → exec (.transactionTimeout m) s = .next s) ∧
    (∀ (m : Master) (tgt : Fin 16) (l : LockSt), s.mx.locks.find tgt = some l → l.master = masterNo m →
      ∃ t, exec (.lockBreak m tgt) s = .next t ∧ t.mx.locks = s.mx.locks.del tgt ∧
      t.mx.broken.find (masterNo m * 16 + tgt) = some true ∧
      t.rd pgXbr F.xbrCntLockbrkCount = satAdd F.xbrCntLockbrkCount.width (s.rd pgXbr F.xbrCntLockbrkCount) 1 ∧
      t.rd pgXbr F.xbrLastInfoMaster = masterNo m ∧ t.rd pgXbr F.xbrLastInfoTarget = tgt.val ∧
      t.is pgXbr F.xbrFltLockBreak = true ∧ otherPages s t [pgXbr] ∧ sameMemory s t)

/-- What the banks do of themselves, and the secure bank (R392, R393, R395, R396, R398, R400, R401). A waiting word is
written back; the scrubber reads word after word, repairs or reports, and counts its passes; a test window goes through
its phases and reports a word that fails; a bank is filled with zeros. A SEAL is refused while one runs and otherwise
starts at SEC's boundary (R59); its computation shows the CRC, stores it where it was asked for, and decides SEAL_OK; a
wipe clears the whole of B7 and the network counter L (R450), and nothing else. Completes: eccWriteBack, scrubStep,
bistWindowPhase, bankInitDone, sealDone, seal, wipe, wipeDone. -/
def Obligations.BanksScrubTestSealAndWipe : Prop :=
  ∀ (s : State) (m : Master) (b : Bank) (p : Nat), p = pgMem b →
    (s.live = true →
      (∀ a, s.mx.wback.find? (fun a => bankOf a == some b.val) = some a → ∃ t, exec (.eccWriteBack b) s = .next t ∧
        t.mx.wback = s.mx.wback.filter (· != a) ∧ otherPages s t [] ∧ sameMemory s t) ∧
      (∀ (bits : Fin 3) n a, n = s.mx.scrub.get 0 b → a = bankBase b + 4 * n → scrubOn s b = true →
        bankReady s b = true → Memory.wf s.mem → ∃ t, exec (.scrubStep ⟨b, bits⟩) s = .next t ∧
        t.mx.scrub.get 0 b = (if bankSize b ≤ 4 * n + 4 then 0 else n + 1) ∧
        (bankSize b ≤ 4 * n + 4 → t.rd p F.memScrubPassCount = (s.rd p F.memScrubPassCount + 1) % 2 ^ 32 ∧
          t.is p F.memEvtScrubPass = true) ∧
        (s.mx.dead.contains a = false → bits ≠ 2 → s.mx.wback.contains a = true ∨ bits = 1 → a ∉ t.mx.wback ∧
          t.rd p F.memEccCorr = satAdd F.memEccCorr.width (s.rd p F.memEccCorr) 1) ∧
        (s.mx.dead.contains a = true ∨ bits = 2 → a ∈ t.mx.dead ∧
          t.rd p F.memEccUncorr = satAdd F.memEccUncorr.width (s.rd p F.memEccUncorr) 1) ∧
        (s.mx.dead.contains a = false → bits = 2 → t.memWord a = 0) ∧
        (s.mx.dead.contains a = true ∨ bits ≠ 2 → t.mem = s.mem) ∧
        (∀ c, (c < a ∨ a + 4 ≤ c) → Memory.read t.mem c = Memory.read s.mem c) ∧ t.pending = s.pending ∧
        otherPages s t [p, pgHif, pgSeq]) ∧
      (∀ (bad : Option (Fin 256)) (win : Nat), win = s.rd p F.memBistWinOfs →
        (s.rd p F.memStatBistPhase = 1 → ∃ t, exec (.bistWindowPhase b bad) s = .next t ∧
          t.rd p F.memStatBistPhase = 2 ∧ otherPages s t [p] ∧ sameMemory s t) ∧
        (s.rd p F.memStatBistPhase = 2 → ∃ t, exec (.bistWindowPhase b bad) s = .next t ∧
          t.rd p F.memStatBistPhase = 3 ∧
          (∀ w, bad = some w → t.reg p F.memBistFailAddrAddr.ofs = w32 (bankBase b + win + 4 * w.val) ∧
            t.is p F.memStatBistFail = true ∧ t.is p F.memFltBistFail = true) ∧
          (bad = none → t.flt = s.flt) ∧ otherPages s t [p] ∧ sameMemory s t) ∧
        (s.rd p F.memStatBistPhase = 3 → (s.mx.bist.get {} b).ending = false →
          (win + 1024 < bankSize b → ∃ t, exec (.bistWindowPhase b bad) s = .next t ∧
            t.rd p F.memBistWinOfs = win + 1024 ∧ t.rd p F.memStatBistPhase = 1 ∧ otherPages s t [p] ∧
            sameMemory s t) ∧
          (bankSize b ≤ win + 1024 → ∃ t, exec (.bistWindowPhase b bad) s = .next t ∧
            t.rd p F.memStatBistPasses = (s.rd p F.memStatBistPasses + 1) % 65536 ∧ t.is p F.memEvtBistPass = true ∧
            (if s.act p F.memCfgBistMode = 2 then t.rd p F.memBistWinOfs = 0 ∧ t.rd p F.memStatBistPhase = 1
             else t.rd p F.memStatBistPhase = 0 ∧ t.is p F.memStatBistBusy = false) ∧
            otherPages s t [p, pgHif, pgSeq] ∧ sameMemory s t))) ∧
      (bankReady s b = false → ∃ t, exec (.bankInitDone b) s = .next t ∧ bankReady t b = true ∧
        (∀ a, Memory.read t.mem a
          = if bankBase b ≤ a ∧ a < bankBase b + bankSize b then 0 else Memory.read s.mem a) ∧
        t.pending = s.pending ∧ otherPages s t [p]) ∧
      (bankReady s b = true → exec (.bankInitDone b) s = .next s) ∧
      (s.mx.sealing = true → Memory.wf s.mem → ∃ t, exec .sealDone s = .next t ∧
        t.reg pgSec F.secSealCrc.ofs = keyCrc s ∧ t.is pgSec F.secStatSealBusy = false ∧
        t.is pgSec F.secStatSealOk = (s.mx.sealWrite || s.memWord sealAddr == keyCrc s) ∧
        t.is pgSec F.secStatKeysUsable = t.is pgSec F.secStatSealOk ∧ t.is pgSec F.secEvtSealDone = true ∧
        (s.mx.sealWrite = true → t.memWord sealAddr = keyCrc s) ∧
        (∀ a, (a < sealAddr ∨ sealAddr + 4 ≤ a) → Memory.read t.mem a = Memory.read s.mem a) ∧
        t.pending = s.pending ∧ otherPages s t [pgSec, pgHif, pgSeq]) ∧
      (s.mx.sealing = false → exec .sealDone s = .next s) ∧
      (s.arch.acts = [(keyOf pgSec 0x044, 2)] →
        actsTake s pgSec = sealStart { s with arch := { s.arch with acts := [] } } ∧
        (sealStart s).is pgSec F.secStatSealBusy = true ∧ (sealStart s).mx.sealing = true ∧
        (sealStart s).mx.sealWrite = true)) ∧
    (granted s m = true →
      ((s.is pgSec F.secStatSealBusy = true ∨ s.is pgSec F.secStatWiping = true) →
        exec (.seal m) s = .next (answered s 8 0)) ∧
      (s.is pgSec F.secStatSealBusy = false → s.is pgSec F.secStatWiping = false →
        (engaged s pgSec = true → exec (.seal m) s = .next (answered { s with arch := { s.arch with
          acts := s.arch.acts ++ [(keyOf pgSec 0x044, 2)] } } 0 0)) ∧
        (engaged s pgSec = false → exec (.seal m) s = .next (answered (sealStart s) 0 0))) ∧
      (∃ t, exec (.wipe m) s = .next t ∧ t.mx.lastReply = 0 ∧ t.mx.wiping = some 4 ∧
        (∀ a, Memory.read t.mem a
          = if bankBase 7 ≤ a ∧ a < bankBase 7 + bankSize 7 then 0 else Memory.read s.mem a) ∧
        t.is pgSec F.secStatWiping = true ∧ t.is pgSec F.secStatSealOk = false ∧
        t.is pgSec F.secStatKeysUsable = false ∧ t.rd pgSec F.secStatLastWipeCause = 4 ∧
        t.rd pgSec F.secWipesCount = satAdd F.secWipesCount.width (s.rd pgSec F.secWipesCount) 1 ∧
        netL t = 0 ∧ t.pending = s.pending ∧ otherPages s t [pgSec, pgHif])) ∧
    (s.mx.wiping.isSome = true → ∃ t, exec .wipeDone s = .next t ∧ t.mx.wiping = none ∧
      t.is pgSec F.secStatWiping = false ∧ t.is pgSec F.secEvtWipeDone = true ∧ otherPages s t [pgSec, pgHif, pgSeq] ∧
      sameMemory s t) ∧
    (s.mx.wiping = none → exec .wipeDone s = .next s)

-- The event sequencer (15).

/-- The actions (R413 to R420, R422, R424 to R426, R428). The engine issues the action of the context it has chosen
and of no other, and none while the Memory subsystem restarts (R17). An action in order does what Table 15.2 gives: PC
advances, jumps, calls and returns; waits name what they wait for; a WR, an RMW and an IF_EQ reach a bank and hold
their reply, a COMMIT reaches PG_COMMIT; a SIGNAL links its item and END goes to IDLE or to ENTRY. An unknown opcode
or a reserved bit stops the context with cause OPCODE, a full or empty stack with cause STACK. Completes: nop, wr,
rmw, waitTick, waitAt, waitEvt, ifEq, jmp, call, ret, signal, commit, endList. -/
def Obligations.SequencerActionsDoWhatTheTableGives : Prop :=
  ∀ (s : State) (c : SeqCtx) (pc n : Nat) (x y : Action), s.live = true → s.running pgSeq = true →
    pc = seqPc s c → n = seqTick s → x = actionAt s pc → y = actionAt s (pc + 1) → s.mx.slicing = [] →
    (∀ a, inWords (actionAddr pc) 4 a = true → a ∉ s.mx.dead ∧ a ∉ s.mx.wback) →
    (∀ e ∈ [(Instr.nop c, 0x00), (Instr.wr c, 0x01), (Instr.rmw c, 0x02), (Instr.waitTick c, 0x08),
        (Instr.waitAt c, 0x09), (Instr.waitEvt c, 0x0A), (Instr.ifEq c, 0x10), (Instr.jmp c, 0x11),
        (Instr.call c, 0x12), (Instr.ret c, 0x13), (Instr.signal c, 0x18), (Instr.commit c, 0x19),
        (Instr.endList c, 0x3F)],
      ((seqNext s ≠ some c.val ∨ memStalled s = true) → exec e.1 s = .next s) ∧
      (memStalled s = false → seqNext s = some c.val →
        (opRow x.op = none ∨ ∃ r, opRow x.op = some r ∧ x.op = e.2 ∧ pc ≠ 262143 ∧ actionOk s pc x r = false) →
        ∃ t, exec e.1 s = .next t ∧ seqState t c = 4 ∧ t.rd pgSeq (seqF F.seqCtxStatCause c) = 1 ∧
        seqPc t c = pc ∧ (t.reg pgSeq 0x010).getLsbD 2 = true ∧ (t.reg pgSeq 0x020).getLsbD (16 + c.val) = true ∧
        (t.ctx c).locked = [] ∧ otherPages s t [pgSeq, pgHif] ∧ sameMemory s t)) ∧
    (∀ r, memStalled s = false → seqNext s = some c.val → opRow x.op = some r → actionOk s pc x r = true →
      pc + 2 ≤ 262143 →
      (x.op = 0x00 → ∃ t, exec (.nop c) s = .next t ∧ seqPc t c = pc + 1 ∧ seqState t c = seqState s c ∧
        t.seq = s.seq ∧ otherPages s t [pgSeq] ∧ sameMemory s t) ∧
      (x.op = 0x08 → ∃ t, exec (.waitTick c) s = .next t ∧ seqPc t c = pc + 1 ∧ seqState t c = 2 ∧
        (t.ctx c).wait = .tick (n + 1 + x.b.toNat) ∧
        t.seq.holds = s.seq.holds ++ (if x.f0 ∧ x.b.toNat ≠ 0
          then [{ first := x.a % 512, last := x.a / 512, from_ := n + 1, to_ := n + x.b.toNat }] else []) ∧
        otherPages s t [pgSeq] ∧ sameMemory s t) ∧
      (x.op = 0x09 → ∀ at_ ph, at_ = x.a * 2 ^ 32 + x.b.toNat → ph = y.b.toNat % 256 →
        (momentPassed s at_ ph = false → ∃ t, exec (.waitAt c) s = .next t ∧ seqPc t c = pc + 2 ∧
          seqState t c = 2 ∧ (t.ctx c).wait = .at_ at_ ph ∧ otherPages s t [pgSeq] ∧ sameMemory s t) ∧
        (momentPassed s at_ ph = true → x.f0 = false → ∃ t, exec (.waitAt c) s = .next t ∧ seqPc t c = pc + 2 ∧
          seqState t c = 1 ∧ t.rd pgSeq (seqF F.seqCtxCnt2Late c)
            = satAdd (seqF F.seqCtxCnt2Late c).width (s.rd pgSeq (seqF F.seqCtxCnt2Late c)) 1 ∧
          t.is pgSeq F.seqEvtLate = true ∧ otherPages s t [pgSeq, pgHif] ∧ sameMemory s t)) ∧
      (x.op = 0x0A → ∃ t, exec (.waitEvt c) s = .next t ∧ seqPc t c = pc + 1 ∧ seqState t c = 3 ∧
        (t.ctx c).wait = .evt (x.a % 1024) (x.a / 1024 % 32) (x.b != 0) ∧ otherPages s t [pgSeq] ∧ sameMemory s t) ∧
      (x.op = 0x11 → ∃ t, exec (.jmp c) s = .next t ∧ seqPc t c = x.a ∧ t.seq = s.seq ∧ otherPages s t [pgSeq] ∧
        sameMemory s t) ∧
      (x.op = 0x12 →
        ((s.ctx c).stack.length < 4 → ∃ t, exec (.call c) s = .next t ∧ seqPc t c = x.a ∧
          (t.ctx c).stack = (pc + 1) :: (s.ctx c).stack ∧
          t.rd pgSeq (seqF F.seqCtxStatDepth c) = (s.ctx c).stack.length + 1 ∧ otherPages s t [pgSeq] ∧
          sameMemory s t) ∧
        (4 ≤ (s.ctx c).stack.length → ∃ t, exec (.call c) s = .next t ∧ seqState t c = 4 ∧
          t.rd pgSeq (seqF F.seqCtxStatCause c) = 2 ∧ sameMemory s t)) ∧
      (x.op = 0x13 →
        (∀ k l, (s.ctx c).stack = k :: l → k ≤ 262143 → l.length < 4 → ∃ t, exec (.ret c) s = .next t ∧
          seqPc t c = k ∧ (t.ctx c).stack = l ∧ t.rd pgSeq (seqF F.seqCtxStatDepth c) = l.length ∧
          otherPages s t [pgSeq] ∧ sameMemory s t) ∧
        ((s.ctx c).stack = [] → ∃ t, exec (.ret c) s = .next t ∧ seqState t c = 4 ∧
          t.rd pgSeq (seqF F.seqCtxStatCause c) = 2 ∧ sameMemory s t)) ∧
      (x.op = 0x18 →
        (x.f0 = true → ∃ t, exec (.signal c) s = .next t ∧ seqPc t c = pc + 1 ∧ t.qmg = s.qmg ∧
          ((s.inForce pgHif F.hifAttnEnEn.ofs).getLsbD attSeq = true →
            t.is pgHif (Fld.bit F.hifAttnBits.ofs attSeq) = true ∧
            getBits (t.reg pgHif F.hifAttnDetail.ofs) 31 22 = 0x11 ∧
            getBits (t.reg pgHif F.hifAttnDetail.ofs) 21 17 = 0x1E) ∧ otherPages s t [pgSeq, pgHif] ∧
          sameMemory s t) ∧
        (∀ q w, x.f0 = false → q = x.a % 1024 → w = w32 (c.val * 2 ^ 29 + n % 65536) →
          (∀ l, startCause s q w 1 false = 0 → qdRd s q F.qdescW0Bind ≠ 1 → s.resetting pgQmg = false →
            (∀ k ∈ s.qmg.stalls, (s.qport k).stall ≠ some q) → Memory.wf s.mem →
            l = (newCells (poolTake s 1) [] 1).1 → ∃ t, exec (.signal c) s = .next t ∧ seqPc t c = pc + 1 ∧
            (t.queue q).items = (s.queue q).items ++ [{ words := 2, cells := l }] ∧
            t.memWord (cellAddr l 0) = w ∧ t.memWord (cellAddr l 1) = x.b ∧
            (∀ a, (a < cellAddr l 0 ∨ cellAddr l 0 + 8 ≤ a) → Memory.read t.mem a = Memory.read s.mem a) ∧
            t.pending = s.pending) ∧
          (startCause s q w 1 false ≠ 0 → s.resetting pgQmg = false →
            ∃ t, exec (.signal c) s = .next t ∧ seqPc t c = pc + 1 ∧ t.is pgSeq F.seqEvtSigRefused = true ∧
            (∀ k, t.queue k = s.queue k) ∧ sameMemory s t))) ∧
      (x.op = 0x3F → (s.inForce pgSeq F.evtEn.ofs).getLsbD (8 + c.val) = false → ∃ t, exec (.endList c) s = .next t ∧
        (t.reg pgSeq 0x020).getLsbD (8 + c.val) = true ∧
        (if s.is pgSeq (seqF F.seqCtxStatPending c) then seqState t c = 1 ∧
            seqPc t c = s.act pgSeq (seqF F.seqCtxEntryPc c) ∧ t.is pgSeq (seqF F.seqCtxStatPending c) = false
         else seqState t c = 0 ∧ seqPc t c = pc) ∧ otherPages s t [pgSeq] ∧ sameMemory s t) ∧
      ((∀ d, (s.ctx d).locked = []) →
        (∀ (b a : Nat), actionTarget x.a = some a → targetOf s 1 a 0xF false = b → b < 8 → mustWait s 1 b = false →
          s.mx.locks.find b = none → s.mx.broken.find (16 + b) = none →
          (x.op = 0x01 → x.f0 = false → targetOf s 1 a 0xF true = b → Memory.wf s.mem →
            ∃ t z, exec (.wr c) s = .next t ∧ (t.ctx c).txn = some z ∧ z.op = 0x01 ∧ z.reply = some 0 ∧
            z.f1 = x.f1 ∧ seqPc t c = pc ∧ t.memWord a = x.b ∧
            (∀ k, (k < a ∨ a + 4 ≤ k) → Memory.read t.mem k = Memory.read s.mem k) ∧ t.pending = s.pending ∧
            otherPages s t [pgSeq]) ∧
          (x.op = 0x02 → x.f0 = false → targetOf s 1 a 0xF true = b → Memory.wf s.mem →
            s.mx.dead.contains a = false → 2 ≤ s.act pgXbr F.xbrLockMaxTxn →
            ∃ t z, exec (.rmw c) s = .next t ∧ (t.ctx c).txn = some z ∧ z.op = 0x02 ∧ z.reply = some 0 ∧
            seqPc t c = pc ∧ t.memWord a = (s.memWord a &&& ~~~x.b) ||| (y.b &&& x.b) ∧
            (∀ k, (k < a ∨ a + 4 ≤ k) → Memory.read t.mem k = Memory.read s.mem k) ∧ t.pending = s.pending ∧
            otherPages s t [pgSeq, pgMem b]) ∧
          (x.op = 0x10 → s.mx.dead.contains a = false → s.mx.wiping = none → ∃ t z, exec (.ifEq c) s = .next t ∧
            (t.ctx c).txn = some z ∧ z.op = 0x10 ∧ z.reply = some 0 ∧ z.data = s.memWord a ∧ z.b = x.b ∧
            z.f0 = x.f0 ∧ seqPc t c = pc ∧ otherPages s t [pgSeq, pgMem b] ∧ sameMemory s t)) ∧
        (∀ p : Page, x.op = 0x19 → x.f0 = false → x.a % 1024 = p.val → isRegPage p = true →
          granted s .seq = true → engaged s p = true → s.is p F.cmtPending = false →
          ∃ t z, exec (.commit c) s = .next t ∧ (t.ctx c).txn = some z ∧ z.op = 0x19 ∧ z.reply = some 0 ∧
          t.is p F.cmtPending = true ∧ t.is p F.cmtGo = true ∧ t.is p F.cmtAtTick = false ∧
          (x.f1 = true → (t.ctx c).wait = .commit p.val) ∧ seqPc t c = pc ∧ otherPages s t [p.val, pgSeq] ∧
          sameMemory s t)))

/-- Replies, releases and contexts (R416, R418, R420, R422 to R424, R427 to R429). A reply completes its action,
repeats it at the next boundary, goes on under CONT or stops the context with cause REPLY. A timed wait is released at
its tick, a wait for an event by its timeout with COND = 0. START and STOP of an engaged SEQ wait, in the order
written, for its boundary (R59), and of another change nothing. In force, START enters an idle context at ENTRY, and
otherwise pends or is dropped; STOP leads to IDLE, and the watchdog stops a context in RUN or WAIT_EVT, each after an
outstanding transaction. Completes: actionReply, waitTickRelease, waitAtRelease, waitEvtTimeout, contextWatchdog,
contextStart, contextStop. -/
def Obligations.SequencerRepliesWaitsAndContexts : Prop :=
  ∀ (s : State) (m : Master) (c : SeqCtx) (pc : Nat), pc = seqPc s c →
    (s.live = true → s.running pgSeq = true →
      (∀ z r, (s.ctx c).txn = some z → z.again = false → z.reply = some r → (s.ctx c).stopping = false →
        (s.ctx c).expired = false → pc + 3 ≤ 262143 → r < 16 →
        (r = 0 → (z.op = 0x01 ∨ z.op = 0x02) → ∃ t, exec (.actionReply c) s = .next t ∧ (t.ctx c).txn = none ∧
          seqPc t c = pc + z.op ∧ t.rd pgSeq (seqF F.seqCtxReplyCode c) = 0 ∧
          t.rd pgSeq (seqF F.seqCtxCnt2Slip c) = satAdd 16 (s.rd pgSeq (seqF F.seqCtxCnt2Slip c))
            (match (s.ctx c).released with
              | some k => if k < seqTick s then z.writes else 0
              | none => 0) ∧
          otherPages s t [pgSeq] ∧ sameMemory s t) ∧
        (∀ half, r = 0 → z.op = 0x10 →
          half = (if z.f0 then getBits z.data 31 16 else getBits z.data 15 0) →
          ∃ t, exec (.actionReply c) s = .next t ∧ (t.ctx c).txn = none ∧
          seqPc t c = (if half &&& getBits z.b 31 16 = getBits z.b 15 0 &&& getBits z.b 31 16 then pc + 1
            else pc + 1 + opWords (actionAt s (pc + 1)).op) ∧ otherPages s t [pgSeq] ∧ sameMemory s t) ∧
        (r = 8 → z.tries < 4 → ∃ t, exec (.actionReply c) s = .next t ∧
          (t.ctx c).txn = some { z with again := true } ∧ seqPc t c = pc ∧
          t.rd pgSeq (seqF F.seqCtxReplyCode c) = 8 ∧ otherPages s t [pgSeq] ∧ sameMemory s t) ∧
        (r ≠ 0 → (r ≠ 8 ∨ 4 ≤ z.tries) → (z.f1 = false ∨ z.op = 0x19) → ∃ t, exec (.actionReply c) s = .next t ∧
          seqState t c = 4 ∧ t.rd pgSeq (seqF F.seqCtxStatCause c) = 3 ∧ (t.ctx c).txn = none ∧
          t.rd pgSeq (seqF F.seqCtxReplyCode c) = r ∧ seqPc t c = pc ∧ otherPages s t [pgSeq, pgHif] ∧
          sameMemory s t) ∧
        (r ≠ 0 → (r ≠ 8 ∨ 4 ≤ z.tries) → z.f1 = true → (z.op = 0x01 ∨ z.op = 0x02) →
          ∃ t, exec (.actionReply c) s = .next t ∧ (t.ctx c).txn = none ∧ seqPc t c = pc + z.op ∧
          seqState t c = seqState s c ∧ otherPages s t [pgSeq] ∧ sameMemory s t)) ∧
      (∀ z r, (s.ctx c).txn = some z → z.again = false → z.reply = some r →
        ((s.ctx c).stopping = true → ∃ t, exec (.actionReply c) s = .next t ∧ seqState t c = 0 ∧ (t.ctx c).txn = none ∧
          (t.ctx c).locked = [] ∧ seqPc t c = pc ∧ otherPages s t [pgSeq] ∧ sameMemory s t) ∧
        ((s.ctx c).stopping = false → (s.ctx c).expired = true → ∃ t, exec (.actionReply c) s = .next t ∧
          seqState t c = 4 ∧ t.rd pgSeq (seqF F.seqCtxStatCause c) = 4 ∧ (t.ctx c).txn = none ∧ seqPc t c = pc ∧
          otherPages s t [pgSeq, pgHif] ∧ sameMemory s t)) ∧
      (∀ k, (s.ctx c).wait = .tick k →
        (k ≤ seqTick s → ∃ t, exec (.waitTickRelease c) s = .next t ∧ seqState t c = 1 ∧ (t.ctx c).wait = .none ∧
          (t.ctx c).wdog = 0 ∧ (t.ctx c).released = some (seqTick s) ∧ seqPc t c = pc ∧ otherPages s t [pgSeq] ∧
          sameMemory s t) ∧
        (seqTick s < k → exec (.waitTickRelease c) s = .next s)) ∧
      (∀ k ph, (s.ctx c).wait = .at_ k ph →
        (k < seqTick s ∨ k = seqTick s ∧ (seqTick s < s.time.tick ∨
            100000 * ph ≤ (s.time.frc.toNat - s.time.tickC) * 768) →
          ∃ t, exec (.waitAtRelease c) s = .next t ∧ seqState t c = 1 ∧ (t.ctx c).wait = .none ∧
          (t.ctx c).released = some (seqTick s) ∧ seqPc t c = pc ∧ otherPages s t [pgSeq] ∧ sameMemory s t) ∧
        (seqTick s < k ∨ k = seqTick s ∧ s.time.tick ≤ seqTick s ∧
            (s.time.frc.toNat - s.time.tickC) * 768 < 100000 * ph → exec (.waitAtRelease c) s = .next s)) ∧
      (∀ p b timed, (s.ctx c).wait = .evt p b timed →
        (timed = true → seqState s c = 3 → ∃ t, exec (.waitEvtTimeout c) s = .next t ∧ seqState t c = 1 ∧
          t.is pgSeq (seqF F.seqCtxStatCond c) = false ∧ (t.ctx c).wait = .none ∧ seqPc t c = pc ∧
          otherPages s t [pgSeq] ∧ sameMemory s t) ∧
        (timed = false → exec (.waitEvtTimeout c) s = .next s)) ∧
      ((seqState s c = 1 ∨ seqState s c = 3) → s.act pgSeq (seqF F.seqCtxWdogTicks c) ≤ (s.ctx c).wdog →
        (seqOut s c = false → ∃ t, exec (.contextWatchdog c) s = .next t ∧ seqState t c = 4 ∧
          t.rd pgSeq (seqF F.seqCtxStatCause c) = 4 ∧ t.is pgSeq F.seqFltWatchdog = true ∧ (t.ctx c).wait = .none ∧
          otherPages s t [pgSeq, pgHif] ∧ sameMemory s t) ∧
        (seqOut s c = true →
          exec (.contextWatchdog c) s = .next (s.setCtx c (fun x => { x with expired := true })))) ∧
      ((s.ctx c).wdog < s.act pgSeq (seqF F.seqCtxWdogTicks c) → exec (.contextWatchdog c) s = .next s)) ∧
    (granted s m = true → ∀ (i : Instr) (start : Bool),
      (i, start) ∈ [(Instr.contextStart m c, true), (.contextStop m c, false)] →
      ∃ t, exec i s = .next t ∧ t.mx.lastReply = 0 ∧
        t.ctx c = { s.ctx c with ctl := (s.ctx c).ctl ++ (if engaged s pgSeq then [start] else []) } ∧
        (∀ d : SeqCtx, d ≠ c → t.ctx d = s.ctx d) ∧ seqState t c = seqState s c ∧ seqPc t c = pc ∧
        otherPages s t [] ∧ sameMemory s t) ∧
    (∀ t, t = seqTakeCtl s c true →
      (s.running pgSeq = true → s.actIs pgSeq F.ctrlDrain = false → s.actIs pgSeq (seqF F.seqCtxCtrlEn c) = true →
        ((seqState s c = 0 ∨ seqState s c = 4) → seqState t c = 1 ∧
          seqPc t c = s.act pgSeq (seqF F.seqCtxEntryPc c) ∧ (t.ctx c).stack = [] ∧
          t.rd pgSeq (seqF F.seqCtxCntRuns c)
            = satAdd (seqF F.seqCtxCntRuns c).width (s.rd pgSeq (seqF F.seqCtxCntRuns c)) 1 ∧
          otherPages s t [pgSeq] ∧ sameMemory s t) ∧
        (1 ≤ seqState s c → seqState s c ≤ 3 →
          seqState t c = seqState s c ∧ t.is pgSeq (seqF F.seqCtxStatPending c) = true ∧
          t.rd pgSeq (seqF F.seqCtxCntDropped c) = satAdd (seqF F.seqCtxCntDropped c).width
            (s.rd pgSeq (seqF F.seqCtxCntDropped c)) (if s.is pgSeq (seqF F.seqCtxStatPending c) then 1 else 0) ∧
          seqPc t c = pc ∧ otherPages s t [pgSeq] ∧ sameMemory s t)) ∧
      ((s.running pgSeq = false ∨ s.actIs pgSeq F.ctrlDrain = true ∨ s.actIs pgSeq (seqF F.seqCtxCtrlEn c) = false) →
        t = s)) ∧
    (∀ t, t = seqTakeCtl s c false →
      (seqOut s c = false → seqState t c = 0 ∧ t.is pgSeq (seqF F.seqCtxStatPending c) = false ∧
        (t.ctx c).wait = .none ∧ (t.ctx c).locked = []) ∧
      (seqOut s c = true → (t.ctx c).stopping = true ∧ (t.ctx c).txn = (s.ctx c).txn ∧
        seqState t c = seqState s c) ∧
      seqPc t c = pc ∧ otherPages s t [pgSeq] ∧ sameMemory s t)

-- The host link (16).

/-- Frames of the QSPI (R433 to R440, R442, R443). The device reads a frame in the width in force; one that is sent in
the other width is read as its lines spell it there. A frame without all its bits is discarded and counted; what comes
after its last bit does not count; one with another CRC is answered CRC_ERR, an unknown command DECODE_ERR, a status
poll of another length LENGTH, and none of them changes memory. A command whose words meet the banks at once is executed
and answered with its data; one that comes late is deferred, fetched by the same frame once it has completed, and
answered BUSY_RETRY until then; a result not fetched is discarded. Completes: read, write, statusPoll, burstRead,
burstWrite, unknownCommand, frameAbort, frameTimeout, deferredComplete, holdTimeout. -/
def Obligations.HostFramesAreCheckedExecutedAndDeferred : Prop :=
  ∀ (s : State) (f : HostFrame), s.live = true → s.resetting pgHif = false → s.hif.quadNext = none →
    (∀ (b : Byte), ∀ e ∈ [(Instr.read, 0x0B), (Instr.write, 0x02), (Instr.statusPoll, 0x05), (Instr.burstRead, 0x3B),
        (Instr.burstWrite, 0x32), (Instr.unknownCommand b, b.toNat)],
      (hostIn s e.2 f = none → ∃ t, exec (e.1 f) s = .next t ∧ t.hif.reply = none ∧
        t.rd pgHif F.hifCntFrameCount = satAdd F.hifCntFrameCount.width (s.rd pgHif F.hifCntFrameCount) 1 ∧
        t.hif.deferred = s.hif.deferred ∧ otherPages s t [pgHif, pgSeq] ∧ sameMemory s t) ∧
      (∀ k g, hostIn s e.2 f = some (k, g) → crc16 (frameBytes k g) ≠ g.crc →
        ∃ t st crc, exec (e.1 f) s = .next t ∧ t.hif.reply = some [st, crc] ∧ st % 16 = 7 ∧
        t.rd pgHif F.hifStatLastReply = 7 ∧
        t.rd pgHif F.hifCntCrcCount = satAdd F.hifCntCrcCount.width (s.rd pgHif F.hifCntCrcCount) 1 ∧
        t.hif.deferred = s.hif.deferred ∧ otherPages s t [pgHif, pgSeq] ∧ sameMemory s t) ∧
      (f.quad = s.is pgHif F.hifStatQuad →
        (f.data.length < wordsDue e.2 f → hostIn s e.2 f = none) ∧
        (f.data.length = wordsDue e.2 f → hostIn s e.2 f = some (e.2, f)) ∧
        (∀ w rest, f.data.drop (wordsDue e.2 f) = w :: rest → hostIn s e.2 f = some (e.2,
          { f with data := f.data.take (wordsDue e.2 f), crc := w.extractLsb' 16 16 })))) ∧
    (f.quad = s.is pgHif F.hifStatQuad →
    (∀ cmd : Byte, cmd.toNat ∉ [0x0B, 0x02, 0x05, 0x3B, 0x32] → f.data = [] →
      crc16 (frameBytes cmd.toNat f) = f.crc → ∃ t st crc, exec (.unknownCommand cmd f) s = .next t ∧
      t.hif.reply = some [st, crc] ∧ st % 16 = 2 ∧ t.rd pgHif F.hifStatLastReply = 2 ∧
      t.rd pgHif F.hifCntFrameCount = satAdd F.hifCntFrameCount.width (s.rd pgHif F.hifCntFrameCount) 1 ∧
      otherPages s t [pgHif] ∧ sameMemory s t) ∧
    (f.data = [] → crc16 (frameBytes 0x05 f) = f.crc →
      (f.len ≠ 0 → ∃ t st crc, exec (.statusPoll f) s = .next t ∧ t.hif.reply = some [st, crc] ∧
        t.rd pgHif F.hifStatLastReply = 9 ∧ otherPages s t [pgHif] ∧ sameMemory s t) ∧
      (f.len = 0 → ∃ t crc, exec (.statusPoll f) s = .next t ∧
        t.hif.reply = some [statusWord s 0, (attnDetail s).toNat, crc] ∧ t.rd pgHif F.hifStatLastReply = 0 ∧
        getBits (t.reg pgHif F.hifAttnDetail.ofs) 7 0 = 0 ∧ t.hif.deferred = s.hif.deferred ∧
        otherPages s t [pgHif] ∧ sameMemory s t)) ∧
    (∀ e ∈ [(Instr.read f, 0x0B), (Instr.burstRead f, 0x3B)], ∀ c, c = cmdOf e.2 f → f.data = [] →
      crc16 (frameBytes e.2 f) = f.crc → (e.2 = 0x3B → c.inTarget = true) → s.hif.deferred = none → hostBanks s c →
      (f.late = false → ∃ t crc, exec e.1 s = .next t ∧
        t.hif.reply
          = some (statusWord s 0 :: (List.range c.n).map (fun i => (s.memWord (c.at_ i / 4 * 4)).toNat) ++ [crc]) ∧
        t.rd pgHif F.hifStatLastReply = 0 ∧ otherPages s t [pgHif] ∧ sameMemory s t) ∧
      (f.late = true → ∃ t st crc, exec e.1 s = .next t ∧ t.hif.reply = some [st, crc] ∧
        t.rd pgHif F.hifStatLastReply = 8 ∧ t.hif.deferred = some c ∧ t.is pgHif F.hifStatDeferred = true ∧
        t.rd pgHif F.hifStatCmd = e.2 ∧ t.rd pgHif F.hifCntDeferDeferred
          = satAdd F.hifCntDeferDeferred.width (s.rd pgHif F.hifCntDeferDeferred) 1 ∧
        otherPages s t [pgHif] ∧ sameMemory s t)) ∧
    (∀ e ∈ [(Instr.write f, 0x02), (Instr.burstWrite f, 0x32)], ∀ c, c = cmdOf e.2 f → f.data.length = c.n →
      crc16 (frameBytes e.2 f) = f.crc → (e.2 = 0x32 → c.inTarget = true) → s.hif.deferred = none → hostBanks s c →
      Memory.wf s.mem → f.late = false → ∃ t crc, exec e.1 s = .next t ∧ t.hif.reply = some [statusWord s 0, crc] ∧
      t.rd pgHif F.hifStatLastReply = 0 ∧
      (∀ i < c.n, t.memWord (c.at_ i / 4 * 4) = nth 0 f.data i) ∧
      (∀ a, (∀ i < c.n, a < c.at_ i / 4 * 4 ∨ c.at_ i / 4 * 4 + 4 ≤ a) →
        Memory.read t.mem a = Memory.read s.mem a) ∧
      t.pending = s.pending ∧ otherPages s t [pgHif, pgSec]) ∧
    (∀ e ∈ [(Instr.write f, 0x02), (Instr.burstWrite f, 0x32)], ∀ c, c = cmdOf e.2 f → f.data.length = c.n →
      crc16 (frameBytes e.2 f) = f.crc → (e.2 = 0x32 → c.inTarget = true) → s.hif.deferred = none → hostBanks s c →
      f.late = true → ∃ t st crc, exec e.1 s = .next t ∧ t.hif.reply = some [st, crc] ∧
      t.rd pgHif F.hifStatLastReply = 8 ∧ t.hif.deferred = some c ∧ t.rd pgHif F.hifStatCmd = e.2 ∧
      t.pending = s.pending ∧ otherPages s t [pgHif, pgSec]) ∧
    (∀ e ∈ [(Instr.read f, 0x0B), (Instr.write f, 0x02), (Instr.burstRead f, 0x3B), (Instr.burstWrite f, 0x32)],
      ∀ c d, c = cmdOf e.2 f → s.hif.deferred = some d → f.data.length = wordsDue e.2 f →
      crc16 (frameBytes e.2 f) = f.crc → (isBurstCmd e.2 = true → c.inTarget = true) →
      ((d ≠ c ∨ s.hif.complete = false) → (d.cmd = c.cmd → d.addr = c.addr → d.len = c.len → d.crc = c.crc → d = c) →
        ∃ t st crc, exec e.1 s = .next t ∧ t.hif.reply = some [st, crc] ∧ t.rd pgHif F.hifStatLastReply = 8 ∧
        t.hif.deferred = some d ∧ t.hif.done = s.hif.done ∧ otherPages s t [pgHif] ∧ sameMemory s t) ∧
      (d = c → s.hif.complete = true → combined s.hif.done ≠ 8 → ∃ t st crc, exec e.1 s = .next t ∧
        t.hif.reply = some (st :: (replyData c s.hif.done).map BitVec.toNat ++ [crc]) ∧
        t.rd pgHif F.hifStatLastReply = combined s.hif.done % 16 ∧ t.hif.deferred = none ∧
        t.is pgHif F.hifStatDeferred = false ∧ otherPages s t [pgHif] ∧ sameMemory s t))) ∧
    (∀ c ∈ [Instr.frameAbort, Instr.frameTimeout], ∃ t, exec c s = .next t ∧ t.hif.reply = none ∧
      t.rd pgHif F.hifCntFrameCount = satAdd F.hifCntFrameCount.width (s.rd pgHif F.hifCntFrameCount) 1 ∧
      t.hif.deferred = s.hif.deferred ∧ otherPages s t [pgHif, pgSeq] ∧ sameMemory s t) ∧
    (∀ c, s.hif.deferred = some c → s.hif.complete = false → s.hif.done = [] → isWriteCmd c.cmd = false →
      hostBanks s c → ∃ t, exec .deferredComplete s = .next t ∧ t.hif.complete = true ∧
      t.is pgHif F.hifStatDone = true ∧
      t.hif.done = (List.range c.n).map (fun i => (0, s.memWord (c.at_ i / 4 * 4))) ∧
      t.hif.deferred = some c ∧ otherPages s t [pgHif] ∧ sameMemory s t) ∧
    (s.hif.deferred.isSome = true → s.hif.complete = true → ∃ t, exec .holdTimeout s = .next t ∧
      t.hif.deferred = none ∧ t.is pgHif F.hifStatDeferred = false ∧ t.is pgHif F.hifEvtDiscard = true ∧
      t.rd pgHif F.hifCntDeferDiscarded
        = satAdd F.hifCntDeferDiscarded.width (s.rd pgHif F.hifCntDeferDiscarded) 1 ∧
      otherPages s t [pgHif, pgSeq] ∧ sameMemory s t) ∧
    ((s.hif.deferred = none ∨ s.hif.complete = false) → exec .holdTimeout s = .next s)

/-- Attention bits and the network channel (R445, R448 to R452). Attention bits written 1 clear and no other. A
CONTROL frame without NET_EN is dropped; one whose tail or key fails is counted AUTH_FAIL, one whose counter does not
advance REPLAY, both with the event; an accepted one advances L and waits, at most four at a time; the first that
waits runs to its reply. Completes: attnClear, networkRequest, networkRequestRun. -/
def Obligations.AttentionClearsAndNetworkRequests : Prop :=
  ∀ (s : State) (m : Master),
    (granted s m = true → ∀ mask : Word,
      (∃ t, exec (.attnClear m false mask) s = .next t ∧ t.mx.lastReply = 0 ∧
        t.reg pgHif 0x04C = s.reg pgHif 0x04C &&& ~~~(mask &&& 0x7F0) ∧ t.reg pgHif 0x058 = s.reg pgHif 0x058 ∧
        t.hif = s.hif ∧ otherPages s t [pgHif] ∧ sameMemory s t) ∧
      (∃ t, exec (.attnClear m true mask) s = .next t ∧ t.mx.lastReply = 0 ∧
        t.reg pgHif 0x058 = s.reg pgHif 0x058 &&& ~~~(mask &&& 0xFFFE) ∧ t.reg pgHif 0x04C = s.reg pgHif 0x04C ∧
        t.hif = s.hif ∧ otherPages s t [pgHif] ∧ sameMemory s t)) ∧
    (s.live = true → s.resetting pgHif = false →
      (∀ (q : Port) (src : BitVec 48) (header pay tail : List Byte) (h : AuxHdr) (ctr : Nat) (c : HostCmd),
        h = auxParse header → ctr = h.hi.toNat * 2 ^ 32 + h.lo.toNat → c = netCmd pay →
        (s.actIs pgHif F.hifNetNetEn = false → ∃ t, exec (.networkRequest q src header pay tail) s = .next t ∧
          t.rd pgHif F.hifCntNetDropped = satAdd F.hifCntNetDropped.width (s.rd pgHif F.hifCntNetDropped) 1 ∧
          t.hif = s.hif ∧ otherPages s t [pgHif] ∧ sameMemory s t) ∧
        (s.actIs pgHif F.hifNetNetEn = true →
          ((s.is pgSec F.secStatKeysUsable = false ∨ netTail s (header ++ pay) ≠ tail) →
            ∃ t, exec (.networkRequest q src header pay tail) s = .next t ∧ t.hif.net = s.hif.net ∧
            t.rd pgHif F.hifCntAuthAuthFail
              = satAdd F.hifCntAuthAuthFail.width (s.rd pgHif F.hifCntAuthAuthFail) 1 ∧
            t.is pgHif F.hifEvtAuthFail = true ∧ netL t = netL s ∧ sameMemory s t) ∧
          (s.is pgSec F.secStatKeysUsable = true → netTail s (header ++ pay) = tail →
            (ctr ≤ netL s → ∃ t, exec (.networkRequest q src header pay tail) s = .next t ∧ t.hif.net = s.hif.net ∧
              t.rd pgHif F.hifCntAuthReplay
                = satAdd F.hifCntAuthReplay.width (s.rd pgHif F.hifCntAuthReplay) 1 ∧
              t.is pgHif F.hifEvtAuthFail = true ∧ netL t = netL s ∧ sameMemory s t) ∧
            (netL s < ctr → netLength h pay c = true → cmdRefusal c = none →
              ((s.hif.net.length < 4 → ∃ t, exec (.networkRequest q src header pay tail) s = .next t ∧
                t.hif.net = s.hif.net ++ [{ port := q, src := src.toNat, header := header, cmd := c }] ∧
                netL t = ctr ∧ otherPages s t [pgHif] ∧ sameMemory s t) ∧
              (4 ≤ s.hif.net.length → ∃ t, exec (.networkRequest q src header pay tail) s = .next t ∧
                t.hif.net = s.hif.net ∧ netL t = ctr ∧ t.rd pgHif F.hifCntNetDropped
                  = satAdd F.hifCntNetDropped.width (s.rd pgHif F.hifCntNetDropped) 1 ∧ sameMemory s t)))))) ∧
      (∀ x rest, s.hif.net = x :: rest →
        (x.cmd.cmd = 0x05 → ∃ t, exec .networkRequestRun s = .next t ∧ t.hif.net = rest ∧
          getBits (t.reg pgHif F.hifAttnDetail.ofs) 7 0 = 0 ∧ t.rd pgHif F.hifCntNetAccepted
            = satAdd F.hifCntNetAccepted.width (s.rd pgHif F.hifCntNetAccepted) 1 ∧ sameMemory s t) ∧
        ((x.cmd.cmd = 0x0B ∨ x.cmd.cmd = 0x3B) → x.done = [] → hostBanks s x.cmd →
          (x.cmd.cmd = 0x3B → x.cmd.inTarget = true) →
          ∃ t, exec .networkRequestRun s = .next t ∧ t.hif.net = rest ∧ t.rd pgHif F.hifCntNetAccepted
            = satAdd F.hifCntNetAccepted.width (s.rd pgHif F.hifCntNetAccepted) 1 ∧ sameMemory s t) ∧
        (x.cmd.cmd = 0x0B → x.done = [] → 1 ≤ x.cmd.n → (s.qport 0).stallRes = none → (s.qport 0).stall = none →
          mustWait s 0 (targetOf s 0 (x.cmd.at_ 0) 0xF false) = true → ∃ t, exec .networkRequestRun s = .next t ∧
          t.hif.net = { x with waits := true } :: rest ∧ otherPages s t [] ∧ sameMemory s t)) ∧
      (s.hif.net = [] → exec .networkRequestRun s = .next s))

-- Faults (17).

/-- The fault collector (R454, R458, R459, R463 to R467, R470, R472, R474). FLT takes the message that is next: it
becomes a record, Slate under a shadow, merges under COALESCE with one of its kind, or, where 256 are held, forms
FAULT_OVERFLOW; FAULT_N is asserted. SAFE_OUT and SAFE_DRV reactions take force at once. A CEASE makes its records
transient. A shadow ends, and a Slate level record under it is raised again. Records are popped and cleared by their
commands; FIRST_CLR and releases wait for FLT's boundary. In the reset sequence the core is held in reset and only the
VAUX domain's contents are left. Completes: cease, faultMessageAccept, shadowEnd, recordPop, clearAll, firstClr,
outRelease, outSet, drvRelease, deviceResetAssert. -/
def Obligations.FaultCollectorRecordsReactsAndReleases : Prop :=
  ∀ (s : State) (m : Master),
    (s.live = true → s.running pgFlt = true →
      (∀ (x : FltMsg) (sev : Nat), nextMsg s = some x → x.cease = false → x.crim = false → promotion s x = none →
        sev = (if s.shadowed x.src && !shadowExempt x.src x.kind then 2 else 0) →
        (s.flt.recs.length < 256 → (s.actIs pgFlt F.fltCfgCoalesce = false ∨
            ∀ r ∈ s.flt.recs, r.src ≠ x.src ∨ r.kind ≠ x.kind ∨ r.ctx ≠ x.ctx ∨ r.sev ≠ sev) →
          ∃ t r, exec .faultMessageAccept s = .next t ∧ t.flt.recs = s.flt.recs ++ [r] ∧ r.src = x.src ∧
          r.kind = x.kind ∧ r.ctx = x.ctx ∧ r.sev = sev ∧ r.transient = !x.level ∧ r.count = min 31 (x.rpt + 1) ∧
          t.flt.msgs = s.flt.msgs.erase x ∧ t.dev.faultN = true ∧ t.is pgFlt F.fltEvtRecord = true ∧
          t.rd pgFlt F.fltCntRecCount = satAdd F.fltCntRecCount.width (s.rd pgFlt F.fltCntRecCount) 1 ∧
          t.flt.safeDrv = s.flt.safeDrv ∧ t.flt.safeOut = s.flt.safeOut ∧ otherPages s t [pgFlt, pgHif, pgSeq] ∧
          sameMemory s t) ∧
        (s.actIs pgFlt F.fltCfgCoalesce = true → x.kind ≠ 0x7F →
          (∃ r ∈ s.flt.recs, r.src = x.src ∧ r.kind = x.kind ∧ r.ctx = x.ctx ∧ r.sev = sev) →
          ∃ t, exec .faultMessageAccept s = .next t ∧ t.flt.recs.length = s.flt.recs.length ∧
          t.rd pgFlt F.fltCntCoalCount = satAdd F.fltCntCoalCount.width (s.rd pgFlt F.fltCntCoalCount) 1 ∧
          t.rd pgFlt F.fltCntRecCount = s.rd pgFlt F.fltCntRecCount ∧ otherPages s t [pgFlt, pgHif, pgSeq] ∧
          sameMemory s t) ∧
        (256 ≤ s.flt.recs.length → s.actIs pgFlt F.fltCfgCoalesce = false →
          (∀ r, s.flt.recs.getLast? = some r → r.kind ≠ 0x7F) → ∃ t o, exec .faultMessageAccept s = .next t ∧
          t.flt.recs = s.flt.recs.dropLast ++ [o] ∧ o.kind = 0x7F ∧ o.ctx = 2 ∧ t.flt.overflow = true ∧
          t.is pgFlt F.fltEvtOverflow = true ∧
          t.rd pgFlt F.fltCntLostCount = satAdd F.fltCntLostCount.width (s.rd pgFlt F.fltCntLostCount) 2 ∧
          sameMemory s t)) ∧
      (∀ x, nextMsg s = some x → x.cease = false → x.crim = true → s.flt.recs.length < 256 →
        (x.react = 2 → s.shadowed x.src = false → ∃ t, exec .faultMessageAccept s = .next t ∧
          t.flt.safeOut = true ∧
          (∃ r ∈ t.flt.recs, r.src = x.src ∧ r.kind = x.kind ∧ r.ctx = x.ctx ∧ r.sev = 1) ∧ sameMemory s t) ∧
        (x.react = 1 → ∃ t, exec .faultMessageAccept s = .next t ∧
          t.flt.safeDrv = s.flt.safeDrv ||| (safeScope x.src x.kind false).1 ∧
          t.flt.safeBst = s.flt.safeBst ||| (safeScope x.src x.kind false).2 ∧
          (∀ c : Fin 16, (safeScope x.src x.kind false).1.getLsbD c = true → 1 ≤ drvState s c → drvState s c ≤ 3 →
            drvState t c = 6) ∧ sameMemory s t)) ∧
      (∀ x, nextMsg s = some x → x.cease = true →
        (∃ t, exec .cease s = .next t ∧ t.flt.msgs = s.flt.msgs.erase x ∧
          t.flt.recs = s.flt.recs.map (fun r =>
            if r.src == x.src && r.kind == x.kind && r.ctx == x.ctx then { r with transient := true } else r) ∧
          t.flt.safeDrv = s.flt.safeDrv ∧ otherPages s t [pgFlt] ∧ sameMemory s t) ∧
        exec .faultMessageAccept s = .next s) ∧
      (∀ x, nextMsg s = some x → x.cease = false → exec .cease s = .next s) ∧
      (nextMsg s = none → exec .faultMessageAccept s = .next s ∧ exec .cease s = .next s) ∧
      (∀ h, s.flt.shadows.find? (fun h => decide (h.until_ ≤ s.arch.began.get 0 pgFlt)) = some h →
        ((∀ r ∈ s.flt.recs, r.sev ≠ 2 ∨ r.level = false ∨ r.transient = true) →
          ∃ t, exec .shadowEnd s = .next t ∧ t.flt.shadows = s.flt.shadows.erase h ∧ t.flt.recs = s.flt.recs ∧
          t.is pgFlt F.fltEvtShadowEnd = true ∧ otherPages s t [pgFlt, pgHif, pgSeq] ∧ sameMemory s t) ∧
        (∀ r, s.flt.recs = [r] → s.flt.shadows = [h] → r.sev = 2 → r.level = true → r.transient = false →
          h.pages.contains r.src = true → r.msg.crim = false → promotion s r.msg = none →
          ∃ t n, exec .shadowEnd s = .next t ∧ t.flt.shadows = [] ∧ t.flt.recs = [{ r with again := true }, n] ∧
          n.reraised = true ∧ n.sev = 0 ∧ n.src = r.msg.src ∧ n.kind = r.msg.kind ∧ sameMemory s t)) ∧
      ((∀ h ∈ s.flt.shadows, s.arch.began.get 0 pgFlt < h.until_) → exec .shadowEnd s = .next s)) ∧
    (granted s m = true →
      (∀ r rest, s.flt.recs = r :: rest → ∃ t, exec (.recordPop m) s = .next t ∧ t.mx.lastReply = 0 ∧
        t.flt.recs = rest ∧ t.dev.faultN = (!rest.isEmpty || s.flt.retWait) ∧ t.flt.first = s.flt.first ∧
        otherPages s t [] ∧ sameMemory s t) ∧
      (∃ t, exec (.clearAll m) s = .next t ∧ t.mx.lastReply = 0 ∧ t.flt.recs = [] ∧
        (s.flt.recs ≠ [] → t.dev.faultN = s.flt.retWait) ∧ t.flt.first = s.flt.first ∧ otherPages s t [] ∧
        sameMemory s t) ∧
      (engaged s pgFlt = true → ∃ t, exec (.firstClr m) s = .next t ∧ t.mx.lastReply = 0 ∧ t.flt = s.flt ∧
        t.arch.acts = s.arch.acts ++ [(keyOf pgFlt 0x054, 4)] ∧ otherPages s t [] ∧ sameMemory s t) ∧
      (engaged s pgFlt = false → ∃ t, exec (.firstClr m) s = .next t ∧ t.mx.lastReply = 0 ∧
        t.flt = { s.flt with first := none } ∧ otherPages s t [] ∧ sameMemory s t) ∧
      (∃ t, exec (.outRelease m) s = .next t ∧ t.mx.lastReply = 0 ∧ t.flt = { s.flt with outRel := true } ∧
        otherPages s t [] ∧ sameMemory s t) ∧
      (∃ t, exec (.outSet m) s = .next t ∧ t.mx.lastReply = 0 ∧ t.flt = { s.flt with outSet := true } ∧
        otherPages s t [] ∧ sameMemory s t) ∧
      (∀ mask : BitVec 16, ∃ t, exec (.drvRelease m mask) s = .next t ∧ t.mx.lastReply = 0 ∧
        t.flt = { s.flt with drvRel := s.flt.drvRel ||| mask } ∧ otherPages s t [] ∧ sameMemory s t)) ∧
    (s.arch.acts = [(keyOf pgFlt 0x054, 4)] → (actsTake s pgFlt).flt = { s.flt with first := none }) ∧
    (∀ cause, s.arch.resetSeq = some cause → s.dev.phase ≠ .vauxOff → ∃ t, exec .deviceResetAssert s = .next t ∧
      t.dev.phase = .held ∧ t.live = false ∧
      t.dev.cause = (if s.dev.phase = .held then min cause s.dev.cause else cause) ∧
      t.flt.retained = s.flt.retained ∧
      (∀ a, Memory.read t.mem a
        = if bankBase 7 ≤ a ∧ a < bankBase 7 + bankSize 7 then Memory.read s.mem a else 0) ∧
      t.pending = s.pending) ∧
    (s.arch.resetSeq = none → exec .deviceResetAssert s = .next s)

-- The redundant pair (18).

/-- The redundant pair (R483 to R491, R497, R498, R500, Table 18.4). HEARTBEAT, HEALTH and sequence maps are given to
PLK at their ticks. A frame of the peer reaches RED where PLK is UP and not cut off, and is counted there. A good
HEARTBEAT shows the peer's state and claim and counts; a lost peer is back with the third, and lost with the third that
is missing, at which a STANDBY that R489 lets promotes. A HEALTH frame with the own TAG and another claim raises
CLAIM_CONFLICT. LISTEN ends with the claim, the witness or PEER_LINK; that an equal claim is of a peer for 10 ticks is
the model's choice (log 37); PROMOTE and REJOIN wait for the boundary, HANDOVER and a higher claim lead an ACTIVE unit
to RELEASING, and its end to STANDBY or FAULTED. The verdict follows the check of every tile, and a peer's verdict that
does not come counts as passed. Completes: heartbeatSend, heartbeatMiss, promote, healthSend, sequenceMapSend,
listenExpiry, releasingEnd, handover, verdictDone, verdictTimeout, heartbeatReceive, healthReceive, rejoin. -/
def Obligations.UnitsExchangeHeartbeatsAndChangeRoles : Prop :=
  ∀ (s : State) (m : Master) (n st : Nat), n = redTick s → st = redState s →
    (s.live = true → s.running pgRed = true →
      (st ≠ 0 → n % 3 = 0 → s.red.hbTick ≠ some n → ∃ t f, exec .heartbeatSend s = .next t ∧
        t.red.hbTick = some n ∧ t.red.hbSeq = (s.red.hbSeq + 1) % 65536 ∧
        (s.running pgPlk = true → (t.port 4).ready = (s.port 4).ready ++ [f] ∧ f.express = true ∧
          otherPages s t []) ∧ redState t = st ∧ otherPages s t [pgPlk, pgHif, pgSeq] ∧ sameMemory s t) ∧
      ((st = 0 ∨ n % 3 ≠ 0 ∨ s.red.hbTick = some n) → exec .heartbeatSend s = .next s) ∧
      (s.red.missDue = true → ∃ t, exec .heartbeatMiss s = .next t ∧ t.red.missDue = false ∧ t.red.regain = 0 ∧
        t.rd pgRed F.redCntHbMissed = satAdd F.redCntHbMissed.width (s.rd pgRed F.redCntHbMissed) 1 ∧
        t.rd pgRed F.redStatMissed = satAdd F.redStatMissed.width (s.rd pgRed F.redStatMissed) 1 ∧
        (2 ≤ s.rd pgRed F.redStatMissed → s.red.lost = false → t.red.lost = true ∧
          t.is pgRed F.redStatPeerOk = false ∧ t.is pgRed F.redEvtPeerLost = true ∧
          t.is pgRed F.redFltPeerLink = true) ∧
        (s.rd pgRed F.redStatMissed < 2 → t.red.lost = s.red.lost ∧ t.flt = s.flt) ∧
        redState t = (if 2 ≤ s.rd pgRed F.redStatMissed ∧ s.red.lost = false ∧ st = 2 ∧ promoteBlocked s = false ∧
          (s.red.peerGone = true ∨ s.red.promote = true ∨ s.is pgRed F.redStatWitness = true) then 3 else st) ∧
        t.dev.outsel = (if redState t = st then s.dev.outsel else true) ∧
        otherPages s t [pgRed, pgHif, pgSeq] ∧ sameMemory s t) ∧
      (s.red.missDue = false → exec .heartbeatMiss s = .next s) ∧
      (s.actIs pgRed F.redHealthEn = true → n % 2400 = 0 → s.red.healthTick ≠ some n →
        ∃ t f, exec .healthSend s = .next t ∧ t.red.healthTick = some n ∧
        t.red.healthSeq = (s.red.healthSeq + 1) % 65536 ∧
        (s.running pgPlk = true → (t.port 4).ready = (s.port 4).ready ++ [f] ∧ f.express = false) ∧
        (∀ q : Port, (t.port q).ready.length = (s.port q).ready.length +
          (if (s.act pgRed F.redHealthPorts).testBit q && s.running (pgLink q) then 1 else 0)) ∧
        otherPages s t ((List.range 5).map pgLink ++ [pgHif, pgSeq]) ∧ sameMemory s t) ∧
      ((s.actIs pgRed F.redHealthEn = false ∨ n % 2400 ≠ 0 ∨ s.red.healthTick = some n) →
        exec .healthSend s = .next s) ∧
      (st = 3 → s.red.peerReq = true → s.red.reqAt < n → n % 24 = 0 → ∃ t f, exec .sequenceMapSend s = .next t ∧
        t.red.peerReq = false ∧ t.red.healthSeq = (s.red.healthSeq + 1) % 65536 ∧
        (s.running pgPlk = true → (t.port 4).ready = (s.port 4).ready ++ [f] ∧ otherPages s t []) ∧
        otherPages s t [pgPlk, pgHif, pgSeq] ∧ sameMemory s t) ∧
      ((st ≠ 3 ∨ s.red.peerReq = false ∨ n ≤ s.red.reqAt ∨ n % 24 ≠ 0) → exec .sequenceMapSend s = .next s) ∧
      (st = 1 → s.red.listened = false → s.act pgRed F.redTimerListen ≤ s.red.listen → s.red.hbEver = true →
        s.red.lost = false → s.rd pgRed F.redStatPeerState = 1 → ∀ peer, peer = s.reg pgRed F.redPeerClaimClaim.ofs →
        ∃ t, exec .listenExpiry s = .next t ∧ t.red.listened = true ∧ sameMemory s t ∧
        redState t = (if claimHigher (ownClaim s) peer = true then 3 else if claimHigher peer (ownClaim s) = true then 2
          else 1) ∧
        (claimHigher (ownClaim s) peer = false → claimHigher peer (ownClaim s) = false →
          t.is pgRed F.redFltClaimConflict = true)) ∧
      (st = 1 → s.red.listened = false → s.act pgRed F.redTimerListen ≤ s.red.listen → s.red.hbEver = false →
        (equalPeer s = true → ∃ t, exec .listenExpiry s = .next t ∧ redState t = 1 ∧ t.red.listened = true ∧
          t.is pgRed F.redFltClaimConflict = true ∧ otherPages s t [pgRed] ∧ sameMemory s t) ∧
        (equalPeer s = false → s.is pgRed F.redStatWitness = true → ∃ t, exec .listenExpiry s = .next t ∧ redState t = 3 ∧
          t.is pgRed F.redStatOutsel = true ∧ t.dev.outsel = true ∧ t.is pgRed F.redEvtRole = true ∧
          (s.red.claimed = false → t.rd pgRed F.redClaimGen = (s.rd pgRed F.redClaimGen + 1) % 65536) ∧
          t.rd pgRed F.redCntRolePromotions
            = satAdd F.redCntRolePromotions.width (s.rd pgRed F.redCntRolePromotions) 1 ∧ sameMemory s t) ∧
        (equalPeer s = false → s.is pgRed F.redStatWitness = false →
          (∀ x ∈ s.flt.levels, x.src ≠ pgRed ∨ x.bit ≠ F.redFltPeerLink.lo) →
          ∃ t, exec .listenExpiry s = .next t ∧ redState t = 1 ∧ t.red.listened = true ∧
          t.is pgRed F.redFltPeerLink = true ∧ otherPages s t [pgRed] ∧ sameMemory s t)) ∧
      ((st ≠ 1 ∨ s.red.listen < s.act pgRed F.redTimerListen) → exec .listenExpiry s = .next s) ∧
      (st = 4 → s.red.relLeft = 0 → ∃ t, exec .releasingEnd s = .next t ∧
        redState t = (if s.red.relCause = some .handover ∨ s.red.relCause = some .claim then 2 else 5) ∧
        t.is pgRed F.redStatOutsel = false ∧ t.dev.outsel = false ∧ t.is pgRed F.redEvtRole = true ∧
        otherPages s t ([pgRed, pgHif, pgSeq] ++ (List.range 48).map pgTile) ∧ sameMemory s t) ∧
      ((st ≠ 4 ∨ s.red.relLeft ≠ 0) → exec .releasingEnd s = .next s) ∧
      (verdictOf s = 1 → s.red.checkLeft = [] → ∃ t, exec .verdictDone s = .next t ∧
        verdictOf t = (if s.red.checkBad then 3 else 2) ∧ t.red.waiting = true ∧
        t.is pgRed F.redEvtVerdict = true ∧ redState t = st ∧ otherPages s t [pgRed, pgHif, pgSeq] ∧
        sameMemory s t) ∧
      ((verdictOf s ≠ 1 ∨ s.red.checkLeft ≠ []) → exec .verdictDone s = .next s) ∧
      (s.red.waiting = true → ∃ t, exec .verdictTimeout s = .next t ∧ t.red.waiting = false ∧ redState t = st ∧
        (verdictOf s ≠ 3 → t.rd pgRed F.redCntMisUnresolved
          = satAdd F.redCntMisUnresolved.width (s.rd pgRed F.redCntMisUnresolved) 1 ∧ t.flt = s.flt) ∧
        (verdictOf s = 3 → st = 2 → t.red.faultDue = true ∧ t.is pgRed F.redFltDigestMismatch = true) ∧
        (verdictOf s = 3 → st = 3 → t.is pgRed F.redFltDigestMismatch = true ∧
          t.red.faultDue = s.red.faultDue) ∧ otherPages s t [pgRed] ∧ sameMemory s t) ∧
      (s.red.waiting = false → exec .verdictTimeout s = .next s)) ∧
    (s.live = true → s.running pgPlk = true → ∀ (bytes : List Byte) (f : AuxFrame) (u : State), f = auxOf bytes →
      u = remoteEnds (s.signal pgPlk) 4 →
      ((s.actIs pgPlk F.macTestPrbsEn = true ∨ s.act pgPlk F.macTestLoopback = 1 ∨ draining s pgPlk = true ∨
          linkState s 4 = 0) →
        exec (.heartbeatReceive bytes) s = .next s ∧ exec (.healthReceive bytes) s = .next s) ∧
      (s.actIs pgPlk F.macTestPrbsEn = false → s.act pgPlk F.macTestLoopback ≠ 1 → draining s pgPlk = false →
        (linkState s 4 ≠ 0 → linkState s 4 ≠ 2 → exec (.heartbeatReceive bytes) s = .next (count u 4 2) ∧
          exec (.healthReceive bytes) s = .next (count u 4 2)) ∧
        (linkState s 4 = 2 → etypeOf bytes ≠ s.act pgStrg F.strgCfgEtype →
          exec (.heartbeatReceive bytes) s = .next (count u 4 4) ∧
          exec (.healthReceive bytes) s = .next (count u 4 4)) ∧
        (linkState s 4 = 2 → etypeOf bytes = s.act pgStrg F.strgCfgEtype →
          ((f.hdr.version ≠ 1 ∨ f.hdr.type ≠ tHeartbeat ∨ f.sound = false ∨
              f.hdr.node ≠ s.act pgStrg F.strgNodeNodeId) → exec (.heartbeatReceive bytes) s = .next (count u 4 4)) ∧
          (f.hdr.version = 1 → f.hdr.type = tHeartbeat → f.sound = true →
            f.hdr.node = s.act pgStrg F.strgNodeNodeId →
            (st = 0 → exec (.heartbeatReceive bytes) s = .next (count u 4 0)) ∧
            (st ≠ 0 → getBits f.hdr.claim 7 0 = ownTag s → ∃ t, exec (.heartbeatReceive bytes) s = .next t ∧
              t.is pgRed F.redFltClaimConflict = true ∧
              t.red = (if f.hdr.claim = ownClaim s then { s.red with equalAt := some n } else s.red) ∧
              otherPages s t [pgRed, pgPlk, pgHif, pgSeq] ∧ sameMemory s t) ∧
            (st ≠ 0 → getBits f.hdr.claim 7 0 ≠ ownTag s → ∃ t, exec (.heartbeatReceive bytes) s = .next t ∧
              t.rd pgRed F.redCntHbRx = satAdd F.redCntHbRx.width (s.rd pgRed F.redCntHbRx) 1 ∧
              t.rd pgRed F.redStatMissed = 0 ∧ t.rd pgRed F.redStatPeerState = getBits f.hdr.hi 31 29 ∧
              t.reg pgRed F.redPeerClaimClaim.ofs = f.hdr.claim ∧ t.red.hbSeen = true ∧ t.red.hbEver = true ∧
              t.red.peerTag = some (getBits f.hdr.claim 7 0) ∧ t.red.claimed = true ∧
              redState t = (if st = 3 ∧ claimHigher f.hdr.claim (ownClaim s) = true then 4 else st) ∧
              (s.red.lost = true → t.red.lost = decide (s.red.regain < 2) ∧
                (2 ≤ s.red.regain → t.is pgRed F.redStatPeerOk = true ∧ t.is pgRed F.redEvtPeerBack = true)) ∧
              (s.red.lost = false → t.is pgRed F.redStatPeerOk = true ∧ t.red.lost = false) ∧ sameMemory s t)) ∧
          ((f.hdr.version ≠ 1 ∨ f.hdr.type ≠ tHealth ∨ f.sound = false) →
            exec (.healthReceive bytes) s = .next (count u 4 4)) ∧
          (f.hdr.version = 1 → f.hdr.type = tHealth → f.sound = true →
            (st = 0 → exec (.healthReceive bytes) s = .next (count u 4 0)) ∧
            (st ≠ 0 → f.hdr.node ≠ s.act pgStrg F.strgNodeNodeId → ∃ t, exec (.healthReceive bytes) s = .next t ∧
              t.rd pgRed F.redCntSuspForeign
                = satAdd F.redCntSuspForeign.width (s.rd pgRed F.redCntSuspForeign) 1 ∧ t.red = s.red ∧
              otherPages s t [pgRed, pgPlk, pgHif, pgSeq] ∧ sameMemory s t) ∧
            (st ≠ 0 → f.hdr.node = s.act pgStrg F.strgNodeNodeId → getBits f.hdr.claim 7 0 = ownTag s →
              (f.hdr.claim ≠ ownClaim s → ∃ t, exec (.healthReceive bytes) s = .next t ∧
                t.is pgRed F.redFltClaimConflict = true ∧ t.red = s.red ∧
                otherPages s t [pgRed, pgPlk, pgHif, pgSeq] ∧ sameMemory s t) ∧
              (f.hdr.claim = ownClaim s → exec (.healthReceive bytes) s = .next (count u 4 0))) ∧
            (st ≠ 0 → f.hdr.node = s.act pgStrg F.strgNodeNodeId → getBits f.hdr.claim 7 0 ≠ ownTag s →
              (getBits f.hdr.hi 23 20 = 0 → ∃ t, exec (.healthReceive bytes) s = .next t ∧
                (∀ k : Fin 8, t.reg pgRed (F.redPeerHealth.ofs + 4 * k.val) = w32 (beAt f.pay (4 * k.val) 4)) ∧
                t.red = s.red ∧ otherPages s t [pgRed, pgPlk, pgHif, pgSeq] ∧ sameMemory s t) ∧
              (getBits f.hdr.hi 23 20 = 1 → st = 2 → ∃ t, exec (.healthReceive bytes) s = .next t ∧
                t.red = { s.red with
                  seqMap := some (f.hdr.tick, (List.range 512).map (fun i => beAt f.pay (2 * i) 2)) } ∧
                otherPages s t [pgPlk, pgHif, pgSeq] ∧ sameMemory s t)))))) ∧
    (granted s m = true →
      (∃ t, exec (.promote m) s = .next t ∧ t.mx.lastReply = 0 ∧ redState t = st ∧
        t.red = (if st = 2 then { s.red with promote := true } else s.red) ∧ otherPages s t [] ∧ sameMemory s t) ∧
      (∃ t, exec (.rejoin m) s = .next t ∧ t.mx.lastReply = 0 ∧ redState t = st ∧
        t.red = (if st = 5 then { s.red with rejoin := true } else s.red) ∧ otherPages s t [] ∧ sameMemory s t) ∧
      (st = 3 → s.rd pgRed F.redStatPeerState = 2 → ∃ t, exec (.handover m) s = .next t ∧ t.mx.lastReply = 0 ∧
        redState t = 4 ∧ t.is pgRed F.redStatOutsel = false ∧ t.red.relLeft = 2 ∧
        t.red.relCause = some .handover ∧ t.is pgRed F.redEvtRole = true ∧
        otherPages s t [pgRed, pgPlk, pgHif, pgSeq] ∧ sameMemory s t) ∧
      ((st ≠ 3 ∨ s.rd pgRed F.redStatPeerState ≠ 2) → ∃ t, exec (.handover m) s = .next t ∧ t.mx.lastReply = 0 ∧
        t.red = s.red ∧ redState t = st ∧ otherPages s t [] ∧ sameMemory s t))

-- The device: supplies, resets, start-up, freeze, test access, life cycle (20).

/-- Device reset and start-up (R514 to R519, R521, R522, R536, R538, Tables 20.1 to 20.3). A device reset by the
supplies, by RESET_N, or by SWRST at DEV's boundary (R59) and at once in a HALTED core, holds the core with its cause;
the VAUX domain keeps B7, the retained record, the counters of wipes and of the network, the cause, the tamper record
and the life-cycle state, and everything else is as at reset. START_UP samples the straps and counts; PLL_LOCK releases
the core, whose start-up computes the seal, or leads to EXTEST or HALTED; DEVICE_READY leads to READY, and DEV_RUN is
taken in READY, ignored in RUN and refused otherwise. Completes: vauxApply, vauxRemove, resetAssert, supplyOutOfRange,
localTickBoundary, swrst, startUp, pllLock, deviceReady, devRun. -/
def Obligations.DeviceResetsAndStartUpFollowTheirSteps : Prop :=
  ∀ (s : State) (m : Master) (rail : Supply),
    (s.dev.phase = .vauxOff → ∃ t, exec .vauxApply s = .next t ∧ t.dev.phase = .held ∧ t.dev.cause = 0 ∧
      t.regs = s.regs ∧ sameMemory s t) ∧
    (s.dev.phase ≠ .vauxOff → exec .vauxApply s = .next s) ∧
    (∃ t, exec .vauxRemove s = .next t ∧ t.dev.phase = .vauxOff ∧ lcState t = lcState s ∧ t.flt.retained = none ∧
      t.rd pgDev F.devResetCauseCount = 0 ∧ (∀ a, Memory.read t.mem a = 0) ∧ t.pending = s.pending) ∧
    (s.dev.phase = .vauxOff → exec .resetAssert s = .next s) ∧
    (∀ e ∈ [(Instr.supplyOutOfRange rail, 1), (Instr.resetAssert, 2), (Instr.localTickBoundary ⟨pgDev, by decide⟩, 6)],
      (e.2 = 6 → s.live = true ∧ s.time.ticking = true ∧ s.arch.began.find pgDev ≠ some s.time.tick ∧
        s.resetting pgDev = false ∧ s.is pgDev F.ctrlEn = true ∧ s.running pgDev = true ∧
        s.is pgDev F.ctrlSrst = false ∧ s.is pgDev F.cmtPending = false ∧ s.arch.force.find pgDev = none ∧
        s.dev.swrst = true) → s.dev.phase ≠ .vauxOff → Memory.wf s.mem → ∃ t, exec e.1 s = .next t ∧
      t.dev.phase = .held ∧ t.dev.cause = (if s.dev.phase = .held then min e.2 s.dev.cause else e.2) ∧
      t.live = false ∧ t.dev.outsel = false ∧ t.flt.recs = [] ∧ t.shadow = [] ∧ t.held = [] ∧
      (∀ a, Memory.read t.mem a = if bankBase 7 ≤ a ∧ a < bankBase 7 + bankSize 7 then Memory.read s.mem a else 0) ∧
      t.flt.retained = s.flt.retained ∧ t.rd pgSec F.secWipesCount = s.rd pgSec F.secWipesCount ∧
      t.rd pgHif F.hifNetCtrLoL = s.rd pgHif F.hifNetCtrLoL ∧ t.rd pgHif F.hifNetCtrHiL = s.rd pgHif F.hifNetCtrHiL ∧
      t.rd pgDev F.devResetCauseCount = s.rd pgDev F.devResetCauseCount ∧
      t.rd pgDev F.devResetCauseCause = s.rd pgDev F.devResetCauseCause ∧
      t.rd pgDev F.devTamperSeen = s.rd pgDev F.devTamperSeen ∧ lcState t = lcState s ∧
      (e.2 = 1 → t.dev.supply = false ∧ outputDrive t = .highZ ∧
        gateDrive t = (if s.dev.vioc = true ∧ rail ≠ .vioc then .low else .highZ)) ∧ t.pending = s.pending ∧
      (∀ p ofs, ofs < 4096 → p ∉ [pgSec, pgHif, pgDev] → t.reg p ofs = State.reset.reg p ofs)) ∧
    (∀ key : BitVec 16, granted s m = true → exec (.swrst m key) s
      = .next (answered { s with dev := { s.dev with swrst := s.dev.swrst || key == 0x5A5A } } 0 0)) ∧
    (s.dev.phase = .on → s.dev.frozen = false → s.devState = 4 → m.reachesWindow = true → s.mx.locks.find 8 = none →
      s.mx.broken.find (masterNo m * 16 + 8) = none → (s.qport (masterNo m)).stall = none → memStalled s = false →
      s.mx.slicing = [] →
      ∃ t, exec (.swrst m 0x5A5A) s = .next t ∧ t.dev.phase = .held ∧ t.dev.cause = 6) ∧
    (∀ (mode : BitVec 3) (pref : Bool) (fuses : Option LifeCycle),
      (s.dev.phase ≠ .held → exec (.startUp mode pref fuses) s = .next s) ∧
      (s.dev.phase = .held → ∃ t, exec (.startUp mode pref fuses) s = .next t ∧ t.dev.phase = .starting ∧
        t.rd pgDev F.devResetCauseCause = s.dev.cause % 16 ∧
        t.rd pgDev F.devResetCauseCount
          = (if s.dev.cause = 0 then 0 else satAdd 16 (s.rd pgDev F.devResetCauseCount) 1) ∧
        t.rd pgDev F.devStrapMode = mode.toNat ∧ t.is pgDev F.devStrapRolePref = pref ∧
        t.is pgDev F.devStrapModeBad = decide (mode ≠ 0 ∧ mode ≠ 1 ∧ mode ≠ 4) ∧
        (mode ≠ 0 → mode ≠ 1 → mode ≠ 4 → (t.reg pgDev 0x010).getLsbD 2 = true) ∧
        t.rd pgRed F.redClaimPrio = (if pref then 0x80 else 0x40) ∧ t.is pgClk F.clkStatRefclkOk = true ∧
        (∀ l, fuses = some l → lcState t = lcCode l) ∧
        (fuses = none → lcState t = 4 ∧ t.is pgDev F.devFltLifecycle = true) ∧
        (s.dev.tamperOff ≠ 0 → t.is pgDev F.devFltTamper = true) ∧
        otherPages s t [pgDev, pgRed, pgClk, pgHif] ∧ sameMemory s t)) ∧
    (s.dev.phase ≠ .starting → exec .pllLock s = .next s) ∧
    (s.dev.phase = .starting → ∃ t, exec .pllLock s = .next t ∧ t.is pgClk F.clkStatSdPllLock = true ∧
      t.is pgClk F.clkStatLatLock = true ∧ t.is pgClk F.clkStatFabLock = true ∧ t.is pgClk F.clkStatTsLock = true ∧
      (s.rd pgDev F.devStrapMode = 4 → t.dev.phase = .extest ∧ t.devState = 5) ∧
      (s.rd pgDev F.devStrapMode ≠ 4 → t.dev.phase = .on ∧
        (lcState s = 4 → t.devState = 4 ∧ t.live = false ∧ t.flt.safeDrv = 0xFFFF) ∧
        (lcState s ≠ 4 → t.devState = s.devState ∧ t.is pgSec F.secStatSealBusy = true ∧ t.mx.sealing = true ∧
          t.mx.sealWrite = false ∧ (s.flt.retWait = false → otherPages s t [pgClk, pgSec]))) ∧ sameMemory s t) ∧
    (∀ bist : BitVec 48,
      (s.live = true → s.devState = 1 → startDone s = true → ∃ t, exec (.deviceReady bist) s = .next t ∧
        t.devState = 2 ∧ (s.arch.dead = [] → liveSubsys t = 0x7FFF) ∧ t.is pgDev F.devEvtReady = true ∧
        (s.rd pgDev F.devStrapMode ≠ 1 →
          t.rd pgDev F.devBistHiFail * 2 ^ 32 + t.rd pgDev F.devBistLoFail = bist.toNat) ∧
        otherPages s t [pgDev, pgHif, pgSeq] ∧ sameMemory s t) ∧
      ((s.live = false ∨ s.devState ≠ 1 ∨ startDone s = false) → exec (.deviceReady bist) s = .next s)) ∧
    (granted s m = true →
      (s.devState = 2 → ∃ t, exec (.devRun m) s = .next t ∧ t.mx.lastReply = 0 ∧ t.dev.runReq = true ∧
        t.devState = 2 ∧ otherPages s t [] ∧ sameMemory s t) ∧
      (s.devState = 3 → exec (.devRun m) s = .next (answered s 0 0)) ∧
      (s.devState ≠ 2 → s.devState ≠ 3 → ∃ t, exec (.devRun m) s = .next t ∧ t.mx.lastReply = 1 ∧ t.dev = s.dev ∧
        (t.reg pgDev 0x010).getLsbD 2 = true ∧ otherPages s t [pgDev] ∧ sameMemory s t))

/-- Freeze and test access (R523, R524, R527, R528, R530 to R532, R534, R540, Table 20.4). A freeze request is taken
from INIT to RUN: the source is recorded, the outputs are made safe, an ACTIVE unit releases, and with FREEZE_STOP the
device is frozen and DBG keeps the time. A thaw restarts the core, or is blocked while FREEZE_N is low. SNAP_DATA
reads 0 while not frozen. DBG_CFG.JTAG_EN is HIF's alone and counts in DEPLOYED only. The TAP selects its
instructions, EXTEST drives the pins in EXTEST only; DBG_ACC makes one access as master M6, or captures DECODE_ERR.
Completes: freezePin, freezeRequest, freezeStop, thaw, snapDataRead, registerWrite, extest, samplePreload, idcode,
bypass, tapReset, dbgAccess. -/
def Obligations.FreezesHoldTheCoreAndTestAccessReads : Prop :=
  ∀ (s : State) (m : Master),
    (let able := s.dev.phase = .on ∧ s.dev.frozen = false ∧ s.dev.freezing = false ∧ s.arch.resetSeq = none ∧
        1 ≤ s.devState ∧ s.devState ≤ 3
     (∀ e ∈ [(Instr.freezePin, 1), (Instr.freezeRequest m, 2)], able → (e.2 = 2 → granted s m = true) →
        ∃ t, exec e.1 s = .next t ∧ t.dev.freezing = true ∧ t.dev.frozen = false ∧
        t.rd pgDbg F.dbgStatSrc = e.2 ∧ (e.2 = 1 → t.dev.frzPin = true) ∧
        (e.2 = 2 → t.rd pgDbg F.dbgStatMaster = masterNo m ∧ t.mx.lastReply = 0) ∧
        t.flt.safeDrv = 0xFFFF ∧ t.flt.safeOut = true ∧ redState t = (if redState s = 3 then 4 else redState s) ∧
        sameMemory s t) ∧
     (¬ able → exec .freezePin s = .next { s with dev := { s.dev with frzPin := true } })) ∧
    (s.dev.freezing = true → ∃ t, exec .freezeStop s = .next t ∧ t.dev.frozen = true ∧ t.dev.freezing = false ∧
      t.live = false ∧ t.is pgDbg F.dbgStatFrozen = true ∧ t.reg pgDbg F.dbgFrzTickLoTick.ofs = w32 s.time.tick ∧
      t.rd pgDbg F.dbgFrzTickHiTick = s.time.tick / 2 ^ 32 % 65536 ∧
      t.reg pgDbg F.dbgFrzFrcLoCount.ofs = s.time.frc.extractLsb' 0 32 ∧
      t.reg pgDbg F.dbgFrzFrcHiCount.ofs = s.time.frc.extractLsb' 32 32 ∧ t.time = s.time ∧
      otherPages s t [pgDbg] ∧ sameMemory s t) ∧
    (s.dev.freezing = false → exec .freezeStop s = .next s) ∧
    (s.dev.phase = .on → s.dev.frozen = true → s.devState ≠ 4 → m.reachesWindow = true →
      (∃ t, exec (.thaw m true) s = .next t ∧ t.dev = { s.dev with frzPin := true } ∧ t.mx.lastReply = 0 ∧
        t.is pgDbg F.dbgStatThawBlocked = true ∧ otherPages s t [pgDbg] ∧ sameMemory s t) ∧
      (s.dev.tamperOff = 0 → ∃ t, exec (.thaw m false) s = .next t ∧ t.live = true ∧ t.dev.frzPin = false ∧
        t.mx.lastReply = 0 ∧ t.is pgDbg F.dbgStatFrozen = false ∧ t.is pgDbg F.dbgStatThawBlocked = false ∧
        t.rd pgDbg F.dbgFrzUsUs = min 0xFFFFFFFF (s.dev.frzCyc / 800) ∧ otherPages s t [pgDbg] ∧ sameMemory s t) ∧
      (∃ t, exec (.snapDataRead m) s = .next t ∧ t.mx.lastReply = 0 ∧ t.dev = s.dev ∧
        t.rd pgDbg F.dbgSnapOfsOfs = (s.rd pgDbg F.dbgSnapOfsOfs + 4) % 2 ^ 18 ∧ otherPages s t [pgDbg] ∧
        sameMemory s t)) ∧
    (granted s m = true → exec (.snapDataRead m) s = .next (answered s 0 0) ∧
      exec (.thaw m s.dev.frzPin) s = .next (answered s 0 0)) ∧
    (State.reset.is pgDbg F.dbgCfgJtagEn = false ∧ (granted s m = true → ∀ v : Word,
      (m = .hif → ∃ t, exec (.registerWrite m (regAddr pgDbg 0x040) v) s = .next t ∧ t.mx.lastReply = 0 ∧
        t.is pgDbg F.dbgCfgJtagEn = v.getLsbD 0 ∧ otherPages s t [pgDbg] ∧ sameMemory s t) ∧
      (m ≠ .hif → exec (.registerWrite m (regAddr pgDbg 0x040) v) s = .next (answered s 0 0)))) ∧
    (∀ e ∈ [(Instr.extest, 0x00#5), (Instr.samplePreload, 0x01), (Instr.idcode, 0x02), (Instr.bypass, 0x1F),
        (Instr.tapReset, 0x02)],
      exec e.1 s = .next (if s.dev.phase = .vauxOff then s
        else { s with dev := { s.dev with tap := e.2, extest := decide (e.2 = 0 ∧ s.dev.phase = .extest) } })) ∧
    (∀ (op : BitVec 4) (addr data : Word) (tap : BitVec 5), tap = (if lcState s = 4 then 0x1F else 0x10) →
      (s.dev.phase = .vauxOff → exec (.dbgAccess op addr data) s = .next s) ∧
      (s.dev.phase ≠ .vauxOff →
        (dbgMay s = true ↔ s.dev.phase = .on ∧ s.running pgDbg = true ∧ lcState s ≠ 4 ∧
          (lcState s = 2 → s.actIs pgDbg F.dbgCfgJtagEn = true)) ∧
        (op = 0 → (dbgMay s = false ∨ s.dev.dbgRuns = none) → exec (.dbgAccess op addr data) s
          = .next { s with dev := { s.dev with tap := tap, extest := false } }) ∧
        (op ≠ 0 → (dbgMay s = false ∨ (op ≠ 1 ∧ op ≠ 2)) → exec (.dbgAccess op addr data) s
          = .next { s with dev := { s.dev with tap := tap, extest := false, dbgRuns := none,
                                               dbgAcc := (2, addr, 0) } }) ∧
        (∀ b, dbgMay s = true → s.dev.dbgRuns = none → targetOf s 6 addr.toNat 0xF (op == 2) = b → b < 8 →
          mustWait s 6 b = false → s.mx.locks.find b = none → s.mx.broken.find (96 + b) = none → s.live = true →
          s.mx.wiping = none → s.mx.dead.contains (addr.toNat / 4 * 4) = false →
          (op = 1 → ∃ t, exec (.dbgAccess op addr data) s = .next t ∧ t.dev.tap = 0x10 ∧ t.dev.dbgRuns = none ∧
            t.dev.dbgAcc = (0, addr, s.memWord (addr.toNat / 4 * 4)) ∧ otherPages s t [pgMem b] ∧
            sameMemory s t) ∧
          (op = 2 → Memory.wf s.mem → ∃ t, exec (.dbgAccess op addr data) s = .next t ∧ t.dev.tap = 0x10 ∧
            t.dev.dbgRuns = none ∧ t.dev.dbgAcc = (0, addr, 0) ∧ t.memWord (addr.toNat / 4 * 4) = data ∧
            (∀ a, (a < addr.toNat / 4 * 4 ∨ addr.toNat / 4 * 4 + 4 ≤ a) →
              Memory.read t.mem a = Memory.read s.mem a) ∧ otherPages s t [pgSec] ∧ t.pending = s.pending))))

/-- Life cycle and tamper (R401, R468, R535 to R537). LC_ARM with the key arms a target for 1 ms, in which time of a
freeze does not count (R36), and any other write disarms. An armed GO along an allowed transition in READY or RUN
starts the wipe and the programming; any other is refused with CFG_RANGE. LC_DONE shows the new state and raises
LIFECYCLE, and SCRAPPED halts the core. An asserted tamper pin wipes B7 at once, is recorded, and raises TAMPER, after
the next start-up where the core was off; the condition ends when both pins are high. Completes: lcArm, lcGo,
lcArmLapse, lcDone, tamperAssert, tamperRelease. -/
def Obligations.LifeCycleChangesAndTamperWipe : Prop :=
  ∀ (s : State) (m : Master),
    (granted s m = true →
      (∀ v : Word, ∃ t, exec (.lcArm m v) s = .next t ∧ t.mx.lastReply = 0 ∧
        t.dev = { s.dev with lcArmed := if getBits v 31 16 = 0x4C43 then some (getBits v 2 0) else none } ∧
        otherPages s t [pgDev] ∧ sameMemory s t) ∧
      (∀ k, s.dev.lcArmed = some k → s.is pgDev F.devLcVauxLow = false → (s.devState = 2 ∨ s.devState = 3) →
        (lcState s, k) ∈ [(0, 1), (0, 4), (1, 2), (1, 3), (1, 4), (2, 3), (2, 4), (3, 4)] → Memory.wf s.mem →
        ∃ t, exec (.lcGo m) s = .next t ∧ t.mx.lastReply = 0 ∧ t.is pgDev F.devLcBusy = true ∧
        t.dev.lcNew = some k ∧ t.dev.lcArmed = none ∧ lcState t = lcState s ∧ t.mx.wiping = some 3 ∧
        t.is pgSec F.secStatWiping = true ∧ t.is pgSec F.secStatKeysUsable = false ∧
        t.rd pgSec F.secStatLastWipeCause = 3 ∧
        t.rd pgSec F.secWipesCount = satAdd F.secWipesCount.width (s.rd pgSec F.secWipesCount) 1 ∧
        (∀ a, Memory.read t.mem a
          = if bankBase 7 ≤ a ∧ a < bankBase 7 + bankSize 7 then 0 else Memory.read s.mem a) ∧
        netL t = 0 ∧ otherPages s t [pgDev, pgSec, pgHif] ∧ t.pending = s.pending) ∧
      ((s.dev.lcArmed = none ∨ s.is pgDev F.devLcVauxLow = true ∨ (s.devState ≠ 2 ∧ s.devState ≠ 3) ∨
          ∃ k, s.dev.lcArmed = some k ∧
            (lcState s, k) ∉ [(0, 1), (0, 4), (1, 2), (1, 3), (1, 4), (2, 3), (2, 4), (3, 4)]) →
        ∃ t, exec (.lcGo m) s = .next t ∧ t.mx.lastReply = 1 ∧ t.dev = s.dev ∧
        (t.reg pgDev 0x010).getLsbD 2 = true ∧ otherPages s t [pgDev] ∧ sameMemory s t)) ∧
    (exec .lcArmLapse s = .next (if s.dev.phase = .on ∧ s.dev.frozen = false
      then { s with dev := { s.dev with lcArmed := none } } else s)) ∧
    ((s.dev.lcNew = none ∨ s.dev.frozen = true) → exec .lcDone s = .next s) ∧
    (∀ k < 8, s.dev.lcNew = some k → s.dev.frozen = false → ∃ t, exec .lcDone s = .next t ∧ lcState t = k ∧
      t.dev.lcNew = none ∧ t.is pgDev F.devLcBusy = false ∧ t.is pgDev F.devEvtLcDone = true ∧
      t.is pgDev F.devFltLifecycle = true ∧
      (k = 4 → t.devState = 4 ∧ t.live = false ∧ t.flt.safeDrv = 0xFFFF) ∧
      (k ≠ 4 → t.devState = s.devState ∧ otherPages s t [pgDev, pgHif, pgSeq]) ∧ sameMemory s t) ∧
    (∀ pin : Fin 2,
      (s.dev.phase = .vauxOff → exec (.tamperAssert pin) s = .next s) ∧
      (s.dev.phase ≠ .vauxOff → Memory.wf s.mem → ∃ t, exec (.tamperAssert pin) s = .next t ∧
        t.dev.tamper = s.dev.tamper ||| (1#2 <<< pin.val) ∧ t.mx.wiping = some (pin.val + 1) ∧
        t.rd pgSec F.secStatLastWipeCause = pin.val + 1 ∧ t.is pgSec F.secStatKeysUsable = false ∧
        t.is pgDev (Fld.bit F.devTamperSeen.ofs (8 + pin.val)) = true ∧
        (∀ a, Memory.read t.mem a
          = if bankBase 7 ≤ a ∧ a < bankBase 7 + bankSize 7 then 0 else Memory.read s.mem a) ∧ netL t = 0 ∧
        (s.dev.phase = .on → s.dev.frozen = false → t.is pgDev F.devFltTamper = true ∧
          t.is pgDev F.devEvtTamper = true) ∧
        ((s.dev.phase ≠ .on ∨ s.dev.frozen = true) →
          t.dev.tamperOff = s.dev.tamperOff ||| (1#2 <<< pin.val) ∧ t.flt = s.flt) ∧
        otherPages s t [pgDev, pgSec, pgHif, pgSeq] ∧ t.pending = s.pending)) ∧
    (∃ t, exec .tamperRelease s = .next t ∧ t.dev = { s.dev with tamper := 0 } ∧ t.regs = s.regs ∧
      (∀ x ∈ t.flt.levels, x.src ≠ pgDev ∨ x.bit ≠ F.devFltTamper.lo) ∧ sameMemory s t)
end

