-- ==== Sys2Proof/Laws/Bits.lean ====
section
/-! SUPPORT. Laws of the bit-field helpers: reading a field after writing it, or another. -/

namespace Sys2Proof.Machine

theorem testBit_getBits (w : Word) (hi lo i : Nat) :
    (getBits w hi lo).testBit i = (decide (i < hi + 1 - lo) && w.getLsbD (lo + i)) := by
  unfold getBits
  rw [Nat.testBit_mod_two_pow, Nat.testBit_shiftRight]
  rfl

theorem getLsbD_bitMask (hi lo i : Nat) :
    (bitMask hi lo).getLsbD i = (decide (i < 32) && decide (lo ≤ i) && decide (i < hi + 1)) := by
  unfold bitMask
  rw [BitVec.getLsbD_ofNat, Nat.testBit_shiftLeft, Nat.testBit_two_pow_sub_one]
  by_cases h : lo ≤ i
  · have : (i - lo < hi + 1 - lo) = (i < hi + 1) := propext ⟨by omega, by omega⟩
    simp [h, this]
  · simp [h]

theorem getLsbD_setBits (w : Word) (hi lo v i : Nat) (hh : hi < 32) :
    (setBits w hi lo v).getLsbD i =
      if lo ≤ i ∧ i ≤ hi then v.testBit (i - lo) else w.getLsbD i := by
  unfold setBits
  rw [BitVec.getLsbD_or, BitVec.getLsbD_and, BitVec.getLsbD_and, BitVec.getLsbD_not, getLsbD_bitMask,
    BitVec.getLsbD_ofNat, Nat.testBit_shiftLeft]
  by_cases h1 : lo ≤ i
  · by_cases h2 : i ≤ hi
    · have h3 : i < 32 := by omega
      have h4 : i < hi + 1 := by omega
      simp [h1, h2, h3, h4]
    · have h4 : ¬ i < hi + 1 := by omega
      by_cases h3 : i < 32
      · simp [h2, h3, h4]
      · have : w.getLsbD i = false := BitVec.getLsbD_of_ge w i (by omega)
        simp [h2, h3, this]
  · by_cases h3 : i < 32
    · simp [h1, h3]
    · have : w.getLsbD i = false := BitVec.getLsbD_of_ge w i (by omega)
      simp [h1, h3, this]

/-- A field reads as the low bits of what was written to it. -/
theorem getBits_setBits_same (w : Word) (hi lo v : Nat) (hh : hi < 32) :
    getBits (setBits w hi lo v) hi lo = v % 2 ^ (hi + 1 - lo) := by
  apply Nat.eq_of_testBit_eq
  intro i
  rw [testBit_getBits, getLsbD_setBits _ _ _ _ _ hh, Nat.testBit_mod_two_pow]
  by_cases h : i < hi + 1 - lo
  · have h1 : lo ≤ lo + i ∧ lo + i ≤ hi := by omega
    simp [h, h1]
  · simp [h]

/-- A write of one field leaves another of the same word. -/
theorem getBits_setBits_apart (w : Word) (hi lo v hi' lo' : Nat) (hh : hi < 32) (hd : hi < lo' ∨ hi' < lo) :
    getBits (setBits w hi lo v) hi' lo' = getBits w hi' lo' := by
  apply Nat.eq_of_testBit_eq
  intro i
  rw [testBit_getBits, testBit_getBits, getLsbD_setBits _ _ _ _ _ hh]
  by_cases h : i < hi' + 1 - lo'
  · have h1 : ¬ (lo ≤ lo' + i ∧ lo' + i ≤ hi) := by omega
    simp [h1]
  · simp [h]

/-- A field is smaller than its width allows. -/
theorem getBits_lt (w : Word) (hi lo : Nat) : getBits w hi lo < 2 ^ (hi + 1 - lo) :=
  Nat.mod_lt _ (Nat.pow_pos (by decide))

end Sys2Proof.Machine
end

