-- ==== Sys2Proof/Laws/SMap.lean ====
section
/-! SUPPORT. Laws of the sparse tables: what is found after a change, and that the canonical order is kept. -/

namespace Sys2Proof.Machine

variable {α : Type}

theorem SMap.find_put (m : SMap α) (k k' : Nat) (v : α) :
    (SMap.put m k v).find k' = if k = k' then some v else m.find k' := by
  induction m with
  | nil => simp [SMap.put, SMap.find]
  | cons e m ih =>
    obtain ⟨a, b⟩ := e
    unfold SMap.put
    split
    · rename_i h
      simp [SMap.find]
    · split
      · rename_i h1 h2
        subst h2
        by_cases h : k = k' <;> simp [SMap.find, h]
      · rename_i h1 h2
        simp only [SMap.find, ih]
        by_cases h : a = k'
        · have : k ≠ k' := by omega
          simp [h, this]
        · simp [h]

@[simp] theorem SMap.find_put_same (m : SMap α) (k : Nat) (v : α) : (SMap.put m k v).find k = some v := by
  simp [SMap.find_put]

theorem SMap.find_put_ne (m : SMap α) {k k' : Nat} (v : α) (h : k ≠ k') : (SMap.put m k v).find k' = m.find k' := by
  simp [SMap.find_put, h]

@[simp] theorem SMap.get_put_same (d : α) (m : SMap α) (k : Nat) (v : α) : SMap.get d (SMap.put m k v) k = v := by
  simp [SMap.get]

theorem SMap.get_put_ne (d : α) (m : SMap α) {k k' : Nat} (v : α) (h : k ≠ k') :
    SMap.get d (SMap.put m k v) k' = SMap.get d m k' := by
  simp [SMap.get, SMap.find_put_ne m v h]

theorem SMap.find_del_ne (m : SMap α) {k k' : Nat} (h : k ≠ k') : (SMap.del m k).find k' = m.find k' := by
  induction m with
  | nil => rfl
  | cons e m ih =>
    obtain ⟨a, b⟩ := e
    unfold SMap.del
    split
    · have : a ≠ k' := by omega
      simp [SMap.find, this, ih]
    · simp [SMap.find, ih]

/-- A key taken off is not found. -/
@[simp] theorem SMap.find_del_same (m : SMap α) (k : Nat) : (SMap.del m k).find k = none := by
  induction m with
  | nil => rfl
  | cons e m ih =>
    obtain ⟨a, b⟩ := e
    unfold SMap.del
    split
    · exact ih
    · simp_all [SMap.find]

/-- Every key of a rising list's tail is above its first. -/
theorem SMap.rising_cons (k : Nat) (v : α) (m : SMap α) :
    SMap.Rising ((k, v) :: m) = true ↔ (∀ e ∈ m, k < e.1) ∧ SMap.Rising m = true := by
  induction m generalizing k v with
  | nil => simp [SMap.Rising]
  | cons e m ih =>
    obtain ⟨a, b⟩ := e
    simp only [SMap.Rising, Bool.and_eq_true, decide_eq_true_eq]
    constructor
    · rintro ⟨h1, h2⟩
      refine ⟨?_, h2⟩
      intro e he
      rcases List.mem_cons.mp he with rfl | he
      · exact h1
      · have := ((ih a b).mp h2).1 e he
        omega
    · rintro ⟨h1, h2⟩
      exact ⟨h1 (a, b) (List.mem_cons_self ..), h2⟩

theorem SMap.mem_put {m : SMap α} {k : Nat} {v : α} {e : Nat × α} (h : e ∈ SMap.put m k v) :
    e = (k, v) ∨ e ∈ m := by
  induction m with
  | nil => simpa [SMap.put] using h
  | cons x m ih =>
    obtain ⟨a, b⟩ := x
    unfold SMap.put at h
    split at h
    · simpa using h
    · split at h
      · rcases List.mem_cons.mp h with h | h
        · exact .inl h
        · exact .inr (List.mem_cons_of_mem _ h)
      · rcases List.mem_cons.mp h with h | h
        · exact .inr (h ▸ List.mem_cons_self ..)
        · rcases ih h with h | h
          · exact .inl h
          · exact .inr (List.mem_cons_of_mem _ h)

theorem SMap.mem_del {m : SMap α} {k : Nat} {e : Nat × α} (h : e ∈ SMap.del m k) : e ∈ m := by
  induction m with
  | nil => simp [SMap.del] at h
  | cons x m ih =>
    obtain ⟨a, b⟩ := x
    unfold SMap.del at h
    split at h
    · exact List.mem_cons_of_mem _ (ih h)
    · rcases List.mem_cons.mp h with h | h
      · exact h ▸ List.mem_cons_self ..
      · exact List.mem_cons_of_mem _ (ih h)

/-- Listing a key keeps the keys rising. -/
theorem SMap.rising_put (m : SMap α) (k : Nat) (v : α) (h : SMap.Rising m = true) :
    SMap.Rising (SMap.put m k v) = true := by
  induction m with
  | nil => rfl
  | cons x m ih =>
    obtain ⟨a, b⟩ := x
    have h' := (SMap.rising_cons a b m).mp h
    unfold SMap.put
    split
    · rename_i hk
      refine (SMap.rising_cons ..).mpr ⟨?_, h⟩
      intro e he
      rcases List.mem_cons.mp he with rfl | he
      · exact hk
      · have := h'.1 e he
        omega
    · split
      · rename_i h1 h2
        subst h2
        exact (SMap.rising_cons ..).mpr h'
      · rename_i h1 h2
        refine (SMap.rising_cons ..).mpr ⟨?_, ih h'.2⟩
        intro e he
        rcases SMap.mem_put he with rfl | he
        · show a < k
          omega
        · exact h'.1 e he

/-- Taking a key off keeps the keys rising. -/
theorem SMap.rising_del (m : SMap α) (k : Nat) (h : SMap.Rising m = true) : SMap.Rising (SMap.del m k) = true := by
  induction m with
  | nil => rfl
  | cons x m ih =>
    obtain ⟨a, b⟩ := x
    have h' := (SMap.rising_cons a b m).mp h
    unfold SMap.del
    split
    · exact ih h'.2
    · exact (SMap.rising_cons ..).mpr ⟨fun e he => h'.1 e (SMap.mem_del he), ih h'.2⟩

/-- A key below or beside every listed key is not found. -/
theorem SMap.find_none {m : SMap α} {k : Nat} (h : ∀ e ∈ m, e.1 ≠ k) : m.find k = none := by
  induction m with
  | nil => rfl
  | cons x m ih =>
    obtain ⟨a, b⟩ := x
    have : a ≠ k := h (a, b) (List.mem_cons_self ..)
    simp only [SMap.find, this, if_false]
    exact ih fun e he => h e (List.mem_cons_of_mem _ he)

/-- A part of a rising list rises. -/
theorem SMap.rising_filter (m : SMap α) (f : Nat × α → Bool) (h : SMap.Rising m = true) :
    SMap.Rising (m.filter f) = true := by
  induction m with
  | nil => rfl
  | cons x m ih =>
    obtain ⟨a, b⟩ := x
    have h' := (SMap.rising_cons a b m).mp h
    rw [List.filter_cons]
    split
    · exact (SMap.rising_cons ..).mpr ⟨fun e he => h'.1 e ((List.mem_filter.mp he).1), ih h'.2⟩
    · exact ih h'.2

end Sys2Proof.Machine
end

