-- ==== Sys2Proof/Laws/State.lean ====
section
/-! SUPPORT. What each update of the state leaves alone: one lemma for each field and update. -/

namespace Sys2Proof.Machine

-- State.setReg
@[simp] theorem State.setReg_shadow (s : State) (p ofs : Nat) (w : Word) : (s.setReg p ofs w).shadow = s.shadow := rfl
@[simp] theorem State.setReg_held (s : State) (p ofs : Nat) (w : Word) : (s.setReg p ofs w).held = s.held := rfl
@[simp] theorem State.setReg_mem (s : State) (p ofs : Nat) (w : Word) : (s.setReg p ofs w).mem = s.mem := rfl
@[simp] theorem State.setReg_freeCtr (s : State) (p ofs : Nat) (w : Word) : (s.setReg p ofs w).freeCtr = s.freeCtr := rfl
@[simp] theorem State.setReg_arch (s : State) (p ofs : Nat) (w : Word) : (s.setReg p ofs w).arch = s.arch := rfl
@[simp] theorem State.setReg_time (s : State) (p ofs : Nat) (w : Word) : (s.setReg p ofs w).time = s.time := rfl
@[simp] theorem State.setReg_net (s : State) (p ofs : Nat) (w : Word) : (s.setReg p ofs w).net = s.net := rfl
@[simp] theorem State.setReg_ref (s : State) (p ofs : Nat) (w : Word) : (s.setReg p ofs w).ref = s.ref := rfl
@[simp] theorem State.setReg_strm (s : State) (p ofs : Nat) (w : Word) : (s.setReg p ofs w).strm = s.strm := rfl
@[simp] theorem State.setReg_lat (s : State) (p ofs : Nat) (w : Word) : (s.setReg p ofs w).lat = s.lat := rfl
@[simp] theorem State.setReg_audio (s : State) (p ofs : Nat) (w : Word) : (s.setReg p ofs w).audio = s.audio := rfl
@[simp] theorem State.setReg_power (s : State) (p ofs : Nat) (w : Word) : (s.setReg p ofs w).power = s.power := rfl
@[simp] theorem State.setReg_meas (s : State) (p ofs : Nat) (w : Word) : (s.setReg p ofs w).meas = s.meas := rfl
@[simp] theorem State.setReg_qmg (s : State) (p ofs : Nat) (w : Word) : (s.setReg p ofs w).qmg = s.qmg := rfl
@[simp] theorem State.setReg_mx (s : State) (p ofs : Nat) (w : Word) : (s.setReg p ofs w).mx = s.mx := rfl
@[simp] theorem State.setReg_seq (s : State) (p ofs : Nat) (w : Word) : (s.setReg p ofs w).seq = s.seq := rfl
@[simp] theorem State.setReg_hif (s : State) (p ofs : Nat) (w : Word) : (s.setReg p ofs w).hif = s.hif := rfl
@[simp] theorem State.setReg_flt (s : State) (p ofs : Nat) (w : Word) : (s.setReg p ofs w).flt = s.flt := rfl
@[simp] theorem State.setReg_red (s : State) (p ofs : Nat) (w : Word) : (s.setReg p ofs w).red = s.red := rfl
@[simp] theorem State.setReg_dev (s : State) (p ofs : Nat) (w : Word) : (s.setReg p ofs w).dev = s.dev := rfl
@[simp] theorem State.setReg_latches (s : State) (p ofs : Nat) (w : Word) : (s.setReg p ofs w).latches = s.latches := rfl
@[simp] theorem State.setReg_pending (s : State) (p ofs : Nat) (w : Word) : (s.setReg p ofs w).pending = s.pending := rfl

-- State.setPort
@[simp] theorem State.setPort_regs (s : State) (l : Nat) (f : PortSt → PortSt) : (s.setPort l f).regs = s.regs := rfl
@[simp] theorem State.setPort_shadow (s : State) (l : Nat) (f : PortSt → PortSt) : (s.setPort l f).shadow = s.shadow := rfl
@[simp] theorem State.setPort_held (s : State) (l : Nat) (f : PortSt → PortSt) : (s.setPort l f).held = s.held := rfl
@[simp] theorem State.setPort_mem (s : State) (l : Nat) (f : PortSt → PortSt) : (s.setPort l f).mem = s.mem := rfl
@[simp] theorem State.setPort_freeCtr (s : State) (l : Nat) (f : PortSt → PortSt) : (s.setPort l f).freeCtr = s.freeCtr := rfl
@[simp] theorem State.setPort_arch (s : State) (l : Nat) (f : PortSt → PortSt) : (s.setPort l f).arch = s.arch := rfl
@[simp] theorem State.setPort_time (s : State) (l : Nat) (f : PortSt → PortSt) : (s.setPort l f).time = s.time := rfl
@[simp] theorem State.setPort_ref (s : State) (l : Nat) (f : PortSt → PortSt) : (s.setPort l f).ref = s.ref := rfl
@[simp] theorem State.setPort_strm (s : State) (l : Nat) (f : PortSt → PortSt) : (s.setPort l f).strm = s.strm := rfl
@[simp] theorem State.setPort_lat (s : State) (l : Nat) (f : PortSt → PortSt) : (s.setPort l f).lat = s.lat := rfl
@[simp] theorem State.setPort_audio (s : State) (l : Nat) (f : PortSt → PortSt) : (s.setPort l f).audio = s.audio := rfl
@[simp] theorem State.setPort_power (s : State) (l : Nat) (f : PortSt → PortSt) : (s.setPort l f).power = s.power := rfl
@[simp] theorem State.setPort_meas (s : State) (l : Nat) (f : PortSt → PortSt) : (s.setPort l f).meas = s.meas := rfl
@[simp] theorem State.setPort_qmg (s : State) (l : Nat) (f : PortSt → PortSt) : (s.setPort l f).qmg = s.qmg := rfl
@[simp] theorem State.setPort_mx (s : State) (l : Nat) (f : PortSt → PortSt) : (s.setPort l f).mx = s.mx := rfl
@[simp] theorem State.setPort_seq (s : State) (l : Nat) (f : PortSt → PortSt) : (s.setPort l f).seq = s.seq := rfl
@[simp] theorem State.setPort_hif (s : State) (l : Nat) (f : PortSt → PortSt) : (s.setPort l f).hif = s.hif := rfl
@[simp] theorem State.setPort_flt (s : State) (l : Nat) (f : PortSt → PortSt) : (s.setPort l f).flt = s.flt := rfl
@[simp] theorem State.setPort_red (s : State) (l : Nat) (f : PortSt → PortSt) : (s.setPort l f).red = s.red := rfl
@[simp] theorem State.setPort_dev (s : State) (l : Nat) (f : PortSt → PortSt) : (s.setPort l f).dev = s.dev := rfl
@[simp] theorem State.setPort_latches (s : State) (l : Nat) (f : PortSt → PortSt) : (s.setPort l f).latches = s.latches := rfl
@[simp] theorem State.setPort_pending (s : State) (l : Nat) (f : PortSt → PortSt) : (s.setPort l f).pending = s.pending := rfl

-- State.setCtx
@[simp] theorem State.setCtx_regs (s : State) (c : Nat) (f : SeqCtxSt → SeqCtxSt) : (s.setCtx c f).regs = s.regs := rfl
@[simp] theorem State.setCtx_shadow (s : State) (c : Nat) (f : SeqCtxSt → SeqCtxSt) : (s.setCtx c f).shadow = s.shadow := rfl
@[simp] theorem State.setCtx_held (s : State) (c : Nat) (f : SeqCtxSt → SeqCtxSt) : (s.setCtx c f).held = s.held := rfl
@[simp] theorem State.setCtx_mem (s : State) (c : Nat) (f : SeqCtxSt → SeqCtxSt) : (s.setCtx c f).mem = s.mem := rfl
@[simp] theorem State.setCtx_freeCtr (s : State) (c : Nat) (f : SeqCtxSt → SeqCtxSt) : (s.setCtx c f).freeCtr = s.freeCtr := rfl
@[simp] theorem State.setCtx_arch (s : State) (c : Nat) (f : SeqCtxSt → SeqCtxSt) : (s.setCtx c f).arch = s.arch := rfl
@[simp] theorem State.setCtx_time (s : State) (c : Nat) (f : SeqCtxSt → SeqCtxSt) : (s.setCtx c f).time = s.time := rfl
@[simp] theorem State.setCtx_net (s : State) (c : Nat) (f : SeqCtxSt → SeqCtxSt) : (s.setCtx c f).net = s.net := rfl
@[simp] theorem State.setCtx_ref (s : State) (c : Nat) (f : SeqCtxSt → SeqCtxSt) : (s.setCtx c f).ref = s.ref := rfl
@[simp] theorem State.setCtx_strm (s : State) (c : Nat) (f : SeqCtxSt → SeqCtxSt) : (s.setCtx c f).strm = s.strm := rfl
@[simp] theorem State.setCtx_lat (s : State) (c : Nat) (f : SeqCtxSt → SeqCtxSt) : (s.setCtx c f).lat = s.lat := rfl
@[simp] theorem State.setCtx_audio (s : State) (c : Nat) (f : SeqCtxSt → SeqCtxSt) : (s.setCtx c f).audio = s.audio := rfl
@[simp] theorem State.setCtx_power (s : State) (c : Nat) (f : SeqCtxSt → SeqCtxSt) : (s.setCtx c f).power = s.power := rfl
@[simp] theorem State.setCtx_meas (s : State) (c : Nat) (f : SeqCtxSt → SeqCtxSt) : (s.setCtx c f).meas = s.meas := rfl
@[simp] theorem State.setCtx_qmg (s : State) (c : Nat) (f : SeqCtxSt → SeqCtxSt) : (s.setCtx c f).qmg = s.qmg := rfl
@[simp] theorem State.setCtx_mx (s : State) (c : Nat) (f : SeqCtxSt → SeqCtxSt) : (s.setCtx c f).mx = s.mx := rfl
@[simp] theorem State.setCtx_hif (s : State) (c : Nat) (f : SeqCtxSt → SeqCtxSt) : (s.setCtx c f).hif = s.hif := rfl
@[simp] theorem State.setCtx_flt (s : State) (c : Nat) (f : SeqCtxSt → SeqCtxSt) : (s.setCtx c f).flt = s.flt := rfl
@[simp] theorem State.setCtx_red (s : State) (c : Nat) (f : SeqCtxSt → SeqCtxSt) : (s.setCtx c f).red = s.red := rfl
@[simp] theorem State.setCtx_dev (s : State) (c : Nat) (f : SeqCtxSt → SeqCtxSt) : (s.setCtx c f).dev = s.dev := rfl
@[simp] theorem State.setCtx_latches (s : State) (c : Nat) (f : SeqCtxSt → SeqCtxSt) : (s.setCtx c f).latches = s.latches := rfl
@[simp] theorem State.setCtx_pending (s : State) (c : Nat) (f : SeqCtxSt → SeqCtxSt) : (s.setCtx c f).pending = s.pending := rfl

-- State.setCand
@[simp] theorem State.setCand_regs (s : State) (n : Nat) (f : CandSt → CandSt) : (s.setCand n f).regs = s.regs := rfl
@[simp] theorem State.setCand_shadow (s : State) (n : Nat) (f : CandSt → CandSt) : (s.setCand n f).shadow = s.shadow := rfl
@[simp] theorem State.setCand_held (s : State) (n : Nat) (f : CandSt → CandSt) : (s.setCand n f).held = s.held := rfl
@[simp] theorem State.setCand_mem (s : State) (n : Nat) (f : CandSt → CandSt) : (s.setCand n f).mem = s.mem := rfl
@[simp] theorem State.setCand_freeCtr (s : State) (n : Nat) (f : CandSt → CandSt) : (s.setCand n f).freeCtr = s.freeCtr := rfl
@[simp] theorem State.setCand_arch (s : State) (n : Nat) (f : CandSt → CandSt) : (s.setCand n f).arch = s.arch := rfl
@[simp] theorem State.setCand_time (s : State) (n : Nat) (f : CandSt → CandSt) : (s.setCand n f).time = s.time := rfl
@[simp] theorem State.setCand_net (s : State) (n : Nat) (f : CandSt → CandSt) : (s.setCand n f).net = s.net := rfl
@[simp] theorem State.setCand_strm (s : State) (n : Nat) (f : CandSt → CandSt) : (s.setCand n f).strm = s.strm := rfl
@[simp] theorem State.setCand_lat (s : State) (n : Nat) (f : CandSt → CandSt) : (s.setCand n f).lat = s.lat := rfl
@[simp] theorem State.setCand_audio (s : State) (n : Nat) (f : CandSt → CandSt) : (s.setCand n f).audio = s.audio := rfl
@[simp] theorem State.setCand_power (s : State) (n : Nat) (f : CandSt → CandSt) : (s.setCand n f).power = s.power := rfl
@[simp] theorem State.setCand_meas (s : State) (n : Nat) (f : CandSt → CandSt) : (s.setCand n f).meas = s.meas := rfl
@[simp] theorem State.setCand_qmg (s : State) (n : Nat) (f : CandSt → CandSt) : (s.setCand n f).qmg = s.qmg := rfl
@[simp] theorem State.setCand_mx (s : State) (n : Nat) (f : CandSt → CandSt) : (s.setCand n f).mx = s.mx := rfl
@[simp] theorem State.setCand_seq (s : State) (n : Nat) (f : CandSt → CandSt) : (s.setCand n f).seq = s.seq := rfl
@[simp] theorem State.setCand_hif (s : State) (n : Nat) (f : CandSt → CandSt) : (s.setCand n f).hif = s.hif := rfl
@[simp] theorem State.setCand_flt (s : State) (n : Nat) (f : CandSt → CandSt) : (s.setCand n f).flt = s.flt := rfl
@[simp] theorem State.setCand_red (s : State) (n : Nat) (f : CandSt → CandSt) : (s.setCand n f).red = s.red := rfl
@[simp] theorem State.setCand_dev (s : State) (n : Nat) (f : CandSt → CandSt) : (s.setCand n f).dev = s.dev := rfl
@[simp] theorem State.setCand_latches (s : State) (n : Nat) (f : CandSt → CandSt) : (s.setCand n f).latches = s.latches := rfl
@[simp] theorem State.setCand_pending (s : State) (n : Nat) (f : CandSt → CandSt) : (s.setCand n f).pending = s.pending := rfl

-- State.setIng
@[simp] theorem State.setIng_regs (s : State) (c : Nat) (f : IngSt → IngSt) : (s.setIng c f).regs = s.regs := rfl
@[simp] theorem State.setIng_shadow (s : State) (c : Nat) (f : IngSt → IngSt) : (s.setIng c f).shadow = s.shadow := rfl
@[simp] theorem State.setIng_held (s : State) (c : Nat) (f : IngSt → IngSt) : (s.setIng c f).held = s.held := rfl
@[simp] theorem State.setIng_mem (s : State) (c : Nat) (f : IngSt → IngSt) : (s.setIng c f).mem = s.mem := rfl
@[simp] theorem State.setIng_freeCtr (s : State) (c : Nat) (f : IngSt → IngSt) : (s.setIng c f).freeCtr = s.freeCtr := rfl
@[simp] theorem State.setIng_arch (s : State) (c : Nat) (f : IngSt → IngSt) : (s.setIng c f).arch = s.arch := rfl
@[simp] theorem State.setIng_time (s : State) (c : Nat) (f : IngSt → IngSt) : (s.setIng c f).time = s.time := rfl
@[simp] theorem State.setIng_net (s : State) (c : Nat) (f : IngSt → IngSt) : (s.setIng c f).net = s.net := rfl
@[simp] theorem State.setIng_ref (s : State) (c : Nat) (f : IngSt → IngSt) : (s.setIng c f).ref = s.ref := rfl
@[simp] theorem State.setIng_lat (s : State) (c : Nat) (f : IngSt → IngSt) : (s.setIng c f).lat = s.lat := rfl
@[simp] theorem State.setIng_audio (s : State) (c : Nat) (f : IngSt → IngSt) : (s.setIng c f).audio = s.audio := rfl
@[simp] theorem State.setIng_power (s : State) (c : Nat) (f : IngSt → IngSt) : (s.setIng c f).power = s.power := rfl
@[simp] theorem State.setIng_meas (s : State) (c : Nat) (f : IngSt → IngSt) : (s.setIng c f).meas = s.meas := rfl
@[simp] theorem State.setIng_qmg (s : State) (c : Nat) (f : IngSt → IngSt) : (s.setIng c f).qmg = s.qmg := rfl
@[simp] theorem State.setIng_mx (s : State) (c : Nat) (f : IngSt → IngSt) : (s.setIng c f).mx = s.mx := rfl
@[simp] theorem State.setIng_seq (s : State) (c : Nat) (f : IngSt → IngSt) : (s.setIng c f).seq = s.seq := rfl
@[simp] theorem State.setIng_hif (s : State) (c : Nat) (f : IngSt → IngSt) : (s.setIng c f).hif = s.hif := rfl
@[simp] theorem State.setIng_flt (s : State) (c : Nat) (f : IngSt → IngSt) : (s.setIng c f).flt = s.flt := rfl
@[simp] theorem State.setIng_red (s : State) (c : Nat) (f : IngSt → IngSt) : (s.setIng c f).red = s.red := rfl
@[simp] theorem State.setIng_dev (s : State) (c : Nat) (f : IngSt → IngSt) : (s.setIng c f).dev = s.dev := rfl
@[simp] theorem State.setIng_latches (s : State) (c : Nat) (f : IngSt → IngSt) : (s.setIng c f).latches = s.latches := rfl
@[simp] theorem State.setIng_pending (s : State) (c : Nat) (f : IngSt → IngSt) : (s.setIng c f).pending = s.pending := rfl

-- State.setEgr
@[simp] theorem State.setEgr_regs (s : State) (c : Nat) (f : EgrSt → EgrSt) : (s.setEgr c f).regs = s.regs := rfl
@[simp] theorem State.setEgr_shadow (s : State) (c : Nat) (f : EgrSt → EgrSt) : (s.setEgr c f).shadow = s.shadow := rfl
@[simp] theorem State.setEgr_held (s : State) (c : Nat) (f : EgrSt → EgrSt) : (s.setEgr c f).held = s.held := rfl
@[simp] theorem State.setEgr_mem (s : State) (c : Nat) (f : EgrSt → EgrSt) : (s.setEgr c f).mem = s.mem := rfl
@[simp] theorem State.setEgr_freeCtr (s : State) (c : Nat) (f : EgrSt → EgrSt) : (s.setEgr c f).freeCtr = s.freeCtr := rfl
@[simp] theorem State.setEgr_arch (s : State) (c : Nat) (f : EgrSt → EgrSt) : (s.setEgr c f).arch = s.arch := rfl
@[simp] theorem State.setEgr_time (s : State) (c : Nat) (f : EgrSt → EgrSt) : (s.setEgr c f).time = s.time := rfl
@[simp] theorem State.setEgr_net (s : State) (c : Nat) (f : EgrSt → EgrSt) : (s.setEgr c f).net = s.net := rfl
@[simp] theorem State.setEgr_ref (s : State) (c : Nat) (f : EgrSt → EgrSt) : (s.setEgr c f).ref = s.ref := rfl
@[simp] theorem State.setEgr_lat (s : State) (c : Nat) (f : EgrSt → EgrSt) : (s.setEgr c f).lat = s.lat := rfl
@[simp] theorem State.setEgr_audio (s : State) (c : Nat) (f : EgrSt → EgrSt) : (s.setEgr c f).audio = s.audio := rfl
@[simp] theorem State.setEgr_power (s : State) (c : Nat) (f : EgrSt → EgrSt) : (s.setEgr c f).power = s.power := rfl
@[simp] theorem State.setEgr_meas (s : State) (c : Nat) (f : EgrSt → EgrSt) : (s.setEgr c f).meas = s.meas := rfl
@[simp] theorem State.setEgr_qmg (s : State) (c : Nat) (f : EgrSt → EgrSt) : (s.setEgr c f).qmg = s.qmg := rfl
@[simp] theorem State.setEgr_mx (s : State) (c : Nat) (f : EgrSt → EgrSt) : (s.setEgr c f).mx = s.mx := rfl
@[simp] theorem State.setEgr_seq (s : State) (c : Nat) (f : EgrSt → EgrSt) : (s.setEgr c f).seq = s.seq := rfl
@[simp] theorem State.setEgr_hif (s : State) (c : Nat) (f : EgrSt → EgrSt) : (s.setEgr c f).hif = s.hif := rfl
@[simp] theorem State.setEgr_flt (s : State) (c : Nat) (f : EgrSt → EgrSt) : (s.setEgr c f).flt = s.flt := rfl
@[simp] theorem State.setEgr_red (s : State) (c : Nat) (f : EgrSt → EgrSt) : (s.setEgr c f).red = s.red := rfl
@[simp] theorem State.setEgr_dev (s : State) (c : Nat) (f : EgrSt → EgrSt) : (s.setEgr c f).dev = s.dev := rfl
@[simp] theorem State.setEgr_latches (s : State) (c : Nat) (f : EgrSt → EgrSt) : (s.setEgr c f).latches = s.latches := rfl
@[simp] theorem State.setEgr_pending (s : State) (c : Nat) (f : EgrSt → EgrSt) : (s.setEgr c f).pending = s.pending := rfl

-- State.setTile
@[simp] theorem State.setTile_regs (s : State) (t : Nat) (f : TileSt → TileSt) : (s.setTile t f).regs = s.regs := rfl
@[simp] theorem State.setTile_shadow (s : State) (t : Nat) (f : TileSt → TileSt) : (s.setTile t f).shadow = s.shadow := rfl
@[simp] theorem State.setTile_held (s : State) (t : Nat) (f : TileSt → TileSt) : (s.setTile t f).held = s.held := rfl
@[simp] theorem State.setTile_mem (s : State) (t : Nat) (f : TileSt → TileSt) : (s.setTile t f).mem = s.mem := rfl
@[simp] theorem State.setTile_freeCtr (s : State) (t : Nat) (f : TileSt → TileSt) : (s.setTile t f).freeCtr = s.freeCtr := rfl
@[simp] theorem State.setTile_arch (s : State) (t : Nat) (f : TileSt → TileSt) : (s.setTile t f).arch = s.arch := rfl
@[simp] theorem State.setTile_time (s : State) (t : Nat) (f : TileSt → TileSt) : (s.setTile t f).time = s.time := rfl
@[simp] theorem State.setTile_net (s : State) (t : Nat) (f : TileSt → TileSt) : (s.setTile t f).net = s.net := rfl
@[simp] theorem State.setTile_ref (s : State) (t : Nat) (f : TileSt → TileSt) : (s.setTile t f).ref = s.ref := rfl
@[simp] theorem State.setTile_strm (s : State) (t : Nat) (f : TileSt → TileSt) : (s.setTile t f).strm = s.strm := rfl
@[simp] theorem State.setTile_audio (s : State) (t : Nat) (f : TileSt → TileSt) : (s.setTile t f).audio = s.audio := rfl
@[simp] theorem State.setTile_power (s : State) (t : Nat) (f : TileSt → TileSt) : (s.setTile t f).power = s.power := rfl
@[simp] theorem State.setTile_meas (s : State) (t : Nat) (f : TileSt → TileSt) : (s.setTile t f).meas = s.meas := rfl
@[simp] theorem State.setTile_qmg (s : State) (t : Nat) (f : TileSt → TileSt) : (s.setTile t f).qmg = s.qmg := rfl
@[simp] theorem State.setTile_mx (s : State) (t : Nat) (f : TileSt → TileSt) : (s.setTile t f).mx = s.mx := rfl
@[simp] theorem State.setTile_seq (s : State) (t : Nat) (f : TileSt → TileSt) : (s.setTile t f).seq = s.seq := rfl
@[simp] theorem State.setTile_hif (s : State) (t : Nat) (f : TileSt → TileSt) : (s.setTile t f).hif = s.hif := rfl
@[simp] theorem State.setTile_flt (s : State) (t : Nat) (f : TileSt → TileSt) : (s.setTile t f).flt = s.flt := rfl
@[simp] theorem State.setTile_red (s : State) (t : Nat) (f : TileSt → TileSt) : (s.setTile t f).red = s.red := rfl
@[simp] theorem State.setTile_dev (s : State) (t : Nat) (f : TileSt → TileSt) : (s.setTile t f).dev = s.dev := rfl
@[simp] theorem State.setTile_latches (s : State) (t : Nat) (f : TileSt → TileSt) : (s.setTile t f).latches = s.latches := rfl
@[simp] theorem State.setTile_pending (s : State) (t : Nat) (f : TileSt → TileSt) : (s.setTile t f).pending = s.pending := rfl

-- State.setAud
@[simp] theorem State.setAud_regs (s : State) (p : Nat) (f : AudSt → AudSt) : (s.setAud p f).regs = s.regs := rfl
@[simp] theorem State.setAud_shadow (s : State) (p : Nat) (f : AudSt → AudSt) : (s.setAud p f).shadow = s.shadow := rfl
@[simp] theorem State.setAud_held (s : State) (p : Nat) (f : AudSt → AudSt) : (s.setAud p f).held = s.held := rfl
@[simp] theorem State.setAud_mem (s : State) (p : Nat) (f : AudSt → AudSt) : (s.setAud p f).mem = s.mem := rfl
@[simp] theorem State.setAud_freeCtr (s : State) (p : Nat) (f : AudSt → AudSt) : (s.setAud p f).freeCtr = s.freeCtr := rfl
@[simp] theorem State.setAud_arch (s : State) (p : Nat) (f : AudSt → AudSt) : (s.setAud p f).arch = s.arch := rfl
@[simp] theorem State.setAud_time (s : State) (p : Nat) (f : AudSt → AudSt) : (s.setAud p f).time = s.time := rfl
@[simp] theorem State.setAud_net (s : State) (p : Nat) (f : AudSt → AudSt) : (s.setAud p f).net = s.net := rfl
@[simp] theorem State.setAud_ref (s : State) (p : Nat) (f : AudSt → AudSt) : (s.setAud p f).ref = s.ref := rfl
@[simp] theorem State.setAud_strm (s : State) (p : Nat) (f : AudSt → AudSt) : (s.setAud p f).strm = s.strm := rfl
@[simp] theorem State.setAud_lat (s : State) (p : Nat) (f : AudSt → AudSt) : (s.setAud p f).lat = s.lat := rfl
@[simp] theorem State.setAud_power (s : State) (p : Nat) (f : AudSt → AudSt) : (s.setAud p f).power = s.power := rfl
@[simp] theorem State.setAud_meas (s : State) (p : Nat) (f : AudSt → AudSt) : (s.setAud p f).meas = s.meas := rfl
@[simp] theorem State.setAud_qmg (s : State) (p : Nat) (f : AudSt → AudSt) : (s.setAud p f).qmg = s.qmg := rfl
@[simp] theorem State.setAud_mx (s : State) (p : Nat) (f : AudSt → AudSt) : (s.setAud p f).mx = s.mx := rfl
@[simp] theorem State.setAud_seq (s : State) (p : Nat) (f : AudSt → AudSt) : (s.setAud p f).seq = s.seq := rfl
@[simp] theorem State.setAud_hif (s : State) (p : Nat) (f : AudSt → AudSt) : (s.setAud p f).hif = s.hif := rfl
@[simp] theorem State.setAud_flt (s : State) (p : Nat) (f : AudSt → AudSt) : (s.setAud p f).flt = s.flt := rfl
@[simp] theorem State.setAud_red (s : State) (p : Nat) (f : AudSt → AudSt) : (s.setAud p f).red = s.red := rfl
@[simp] theorem State.setAud_dev (s : State) (p : Nat) (f : AudSt → AudSt) : (s.setAud p f).dev = s.dev := rfl
@[simp] theorem State.setAud_latches (s : State) (p : Nat) (f : AudSt → AudSt) : (s.setAud p f).latches = s.latches := rfl
@[simp] theorem State.setAud_pending (s : State) (p : Nat) (f : AudSt → AudSt) : (s.setAud p f).pending = s.pending := rfl

-- State.setSrc
@[simp] theorem State.setSrc_regs (s : State) (c : Nat) (f : AsrcSt → AsrcSt) : (s.setSrc c f).regs = s.regs := rfl
@[simp] theorem State.setSrc_shadow (s : State) (c : Nat) (f : AsrcSt → AsrcSt) : (s.setSrc c f).shadow = s.shadow := rfl
@[simp] theorem State.setSrc_held (s : State) (c : Nat) (f : AsrcSt → AsrcSt) : (s.setSrc c f).held = s.held := rfl
@[simp] theorem State.setSrc_mem (s : State) (c : Nat) (f : AsrcSt → AsrcSt) : (s.setSrc c f).mem = s.mem := rfl
@[simp] theorem State.setSrc_freeCtr (s : State) (c : Nat) (f : AsrcSt → AsrcSt) : (s.setSrc c f).freeCtr = s.freeCtr := rfl
@[simp] theorem State.setSrc_arch (s : State) (c : Nat) (f : AsrcSt → AsrcSt) : (s.setSrc c f).arch = s.arch := rfl
@[simp] theorem State.setSrc_time (s : State) (c : Nat) (f : AsrcSt → AsrcSt) : (s.setSrc c f).time = s.time := rfl
@[simp] theorem State.setSrc_net (s : State) (c : Nat) (f : AsrcSt → AsrcSt) : (s.setSrc c f).net = s.net := rfl
@[simp] theorem State.setSrc_ref (s : State) (c : Nat) (f : AsrcSt → AsrcSt) : (s.setSrc c f).ref = s.ref := rfl
@[simp] theorem State.setSrc_strm (s : State) (c : Nat) (f : AsrcSt → AsrcSt) : (s.setSrc c f).strm = s.strm := rfl
@[simp] theorem State.setSrc_lat (s : State) (c : Nat) (f : AsrcSt → AsrcSt) : (s.setSrc c f).lat = s.lat := rfl
@[simp] theorem State.setSrc_power (s : State) (c : Nat) (f : AsrcSt → AsrcSt) : (s.setSrc c f).power = s.power := rfl
@[simp] theorem State.setSrc_meas (s : State) (c : Nat) (f : AsrcSt → AsrcSt) : (s.setSrc c f).meas = s.meas := rfl
@[simp] theorem State.setSrc_qmg (s : State) (c : Nat) (f : AsrcSt → AsrcSt) : (s.setSrc c f).qmg = s.qmg := rfl
@[simp] theorem State.setSrc_mx (s : State) (c : Nat) (f : AsrcSt → AsrcSt) : (s.setSrc c f).mx = s.mx := rfl
@[simp] theorem State.setSrc_seq (s : State) (c : Nat) (f : AsrcSt → AsrcSt) : (s.setSrc c f).seq = s.seq := rfl
@[simp] theorem State.setSrc_hif (s : State) (c : Nat) (f : AsrcSt → AsrcSt) : (s.setSrc c f).hif = s.hif := rfl
@[simp] theorem State.setSrc_flt (s : State) (c : Nat) (f : AsrcSt → AsrcSt) : (s.setSrc c f).flt = s.flt := rfl
@[simp] theorem State.setSrc_red (s : State) (c : Nat) (f : AsrcSt → AsrcSt) : (s.setSrc c f).red = s.red := rfl
@[simp] theorem State.setSrc_dev (s : State) (c : Nat) (f : AsrcSt → AsrcSt) : (s.setSrc c f).dev = s.dev := rfl
@[simp] theorem State.setSrc_latches (s : State) (c : Nat) (f : AsrcSt → AsrcSt) : (s.setSrc c f).latches = s.latches := rfl
@[simp] theorem State.setSrc_pending (s : State) (c : Nat) (f : AsrcSt → AsrcSt) : (s.setSrc c f).pending = s.pending := rfl

-- State.setDrv
@[simp] theorem State.setDrv_regs (s : State) (c : Nat) (f : DrvSt → DrvSt) : (s.setDrv c f).regs = s.regs := rfl
@[simp] theorem State.setDrv_shadow (s : State) (c : Nat) (f : DrvSt → DrvSt) : (s.setDrv c f).shadow = s.shadow := rfl
@[simp] theorem State.setDrv_held (s : State) (c : Nat) (f : DrvSt → DrvSt) : (s.setDrv c f).held = s.held := rfl
@[simp] theorem State.setDrv_mem (s : State) (c : Nat) (f : DrvSt → DrvSt) : (s.setDrv c f).mem = s.mem := rfl
@[simp] theorem State.setDrv_freeCtr (s : State) (c : Nat) (f : DrvSt → DrvSt) : (s.setDrv c f).freeCtr = s.freeCtr := rfl
@[simp] theorem State.setDrv_arch (s : State) (c : Nat) (f : DrvSt → DrvSt) : (s.setDrv c f).arch = s.arch := rfl
@[simp] theorem State.setDrv_time (s : State) (c : Nat) (f : DrvSt → DrvSt) : (s.setDrv c f).time = s.time := rfl
@[simp] theorem State.setDrv_net (s : State) (c : Nat) (f : DrvSt → DrvSt) : (s.setDrv c f).net = s.net := rfl
@[simp] theorem State.setDrv_ref (s : State) (c : Nat) (f : DrvSt → DrvSt) : (s.setDrv c f).ref = s.ref := rfl
@[simp] theorem State.setDrv_strm (s : State) (c : Nat) (f : DrvSt → DrvSt) : (s.setDrv c f).strm = s.strm := rfl
@[simp] theorem State.setDrv_lat (s : State) (c : Nat) (f : DrvSt → DrvSt) : (s.setDrv c f).lat = s.lat := rfl
@[simp] theorem State.setDrv_audio (s : State) (c : Nat) (f : DrvSt → DrvSt) : (s.setDrv c f).audio = s.audio := rfl
@[simp] theorem State.setDrv_meas (s : State) (c : Nat) (f : DrvSt → DrvSt) : (s.setDrv c f).meas = s.meas := rfl
@[simp] theorem State.setDrv_qmg (s : State) (c : Nat) (f : DrvSt → DrvSt) : (s.setDrv c f).qmg = s.qmg := rfl
@[simp] theorem State.setDrv_mx (s : State) (c : Nat) (f : DrvSt → DrvSt) : (s.setDrv c f).mx = s.mx := rfl
@[simp] theorem State.setDrv_seq (s : State) (c : Nat) (f : DrvSt → DrvSt) : (s.setDrv c f).seq = s.seq := rfl
@[simp] theorem State.setDrv_hif (s : State) (c : Nat) (f : DrvSt → DrvSt) : (s.setDrv c f).hif = s.hif := rfl
@[simp] theorem State.setDrv_flt (s : State) (c : Nat) (f : DrvSt → DrvSt) : (s.setDrv c f).flt = s.flt := rfl
@[simp] theorem State.setDrv_red (s : State) (c : Nat) (f : DrvSt → DrvSt) : (s.setDrv c f).red = s.red := rfl
@[simp] theorem State.setDrv_dev (s : State) (c : Nat) (f : DrvSt → DrvSt) : (s.setDrv c f).dev = s.dev := rfl
@[simp] theorem State.setDrv_latches (s : State) (c : Nat) (f : DrvSt → DrvSt) : (s.setDrv c f).latches = s.latches := rfl
@[simp] theorem State.setDrv_pending (s : State) (c : Nat) (f : DrvSt → DrvSt) : (s.setDrv c f).pending = s.pending := rfl

-- State.setBst
@[simp] theorem State.setBst_regs (s : State) (g : Nat) (f : BstSt → BstSt) : (s.setBst g f).regs = s.regs := rfl
@[simp] theorem State.setBst_shadow (s : State) (g : Nat) (f : BstSt → BstSt) : (s.setBst g f).shadow = s.shadow := rfl
@[simp] theorem State.setBst_held (s : State) (g : Nat) (f : BstSt → BstSt) : (s.setBst g f).held = s.held := rfl
@[simp] theorem State.setBst_mem (s : State) (g : Nat) (f : BstSt → BstSt) : (s.setBst g f).mem = s.mem := rfl
@[simp] theorem State.setBst_freeCtr (s : State) (g : Nat) (f : BstSt → BstSt) : (s.setBst g f).freeCtr = s.freeCtr := rfl
@[simp] theorem State.setBst_arch (s : State) (g : Nat) (f : BstSt → BstSt) : (s.setBst g f).arch = s.arch := rfl
@[simp] theorem State.setBst_time (s : State) (g : Nat) (f : BstSt → BstSt) : (s.setBst g f).time = s.time := rfl
@[simp] theorem State.setBst_net (s : State) (g : Nat) (f : BstSt → BstSt) : (s.setBst g f).net = s.net := rfl
@[simp] theorem State.setBst_ref (s : State) (g : Nat) (f : BstSt → BstSt) : (s.setBst g f).ref = s.ref := rfl
@[simp] theorem State.setBst_strm (s : State) (g : Nat) (f : BstSt → BstSt) : (s.setBst g f).strm = s.strm := rfl
@[simp] theorem State.setBst_lat (s : State) (g : Nat) (f : BstSt → BstSt) : (s.setBst g f).lat = s.lat := rfl
@[simp] theorem State.setBst_audio (s : State) (g : Nat) (f : BstSt → BstSt) : (s.setBst g f).audio = s.audio := rfl
@[simp] theorem State.setBst_meas (s : State) (g : Nat) (f : BstSt → BstSt) : (s.setBst g f).meas = s.meas := rfl
@[simp] theorem State.setBst_qmg (s : State) (g : Nat) (f : BstSt → BstSt) : (s.setBst g f).qmg = s.qmg := rfl
@[simp] theorem State.setBst_mx (s : State) (g : Nat) (f : BstSt → BstSt) : (s.setBst g f).mx = s.mx := rfl
@[simp] theorem State.setBst_seq (s : State) (g : Nat) (f : BstSt → BstSt) : (s.setBst g f).seq = s.seq := rfl
@[simp] theorem State.setBst_hif (s : State) (g : Nat) (f : BstSt → BstSt) : (s.setBst g f).hif = s.hif := rfl
@[simp] theorem State.setBst_flt (s : State) (g : Nat) (f : BstSt → BstSt) : (s.setBst g f).flt = s.flt := rfl
@[simp] theorem State.setBst_red (s : State) (g : Nat) (f : BstSt → BstSt) : (s.setBst g f).red = s.red := rfl
@[simp] theorem State.setBst_dev (s : State) (g : Nat) (f : BstSt → BstSt) : (s.setBst g f).dev = s.dev := rfl
@[simp] theorem State.setBst_latches (s : State) (g : Nat) (f : BstSt → BstSt) : (s.setBst g f).latches = s.latches := rfl
@[simp] theorem State.setBst_pending (s : State) (g : Nat) (f : BstSt → BstSt) : (s.setBst g f).pending = s.pending := rfl

-- State.setSns
@[simp] theorem State.setSns_regs (s : State) (g : Nat) (f : SnsSt → SnsSt) : (s.setSns g f).regs = s.regs := rfl
@[simp] theorem State.setSns_shadow (s : State) (g : Nat) (f : SnsSt → SnsSt) : (s.setSns g f).shadow = s.shadow := rfl
@[simp] theorem State.setSns_held (s : State) (g : Nat) (f : SnsSt → SnsSt) : (s.setSns g f).held = s.held := rfl
@[simp] theorem State.setSns_mem (s : State) (g : Nat) (f : SnsSt → SnsSt) : (s.setSns g f).mem = s.mem := rfl
@[simp] theorem State.setSns_freeCtr (s : State) (g : Nat) (f : SnsSt → SnsSt) : (s.setSns g f).freeCtr = s.freeCtr := rfl
@[simp] theorem State.setSns_arch (s : State) (g : Nat) (f : SnsSt → SnsSt) : (s.setSns g f).arch = s.arch := rfl
@[simp] theorem State.setSns_time (s : State) (g : Nat) (f : SnsSt → SnsSt) : (s.setSns g f).time = s.time := rfl
@[simp] theorem State.setSns_net (s : State) (g : Nat) (f : SnsSt → SnsSt) : (s.setSns g f).net = s.net := rfl
@[simp] theorem State.setSns_ref (s : State) (g : Nat) (f : SnsSt → SnsSt) : (s.setSns g f).ref = s.ref := rfl
@[simp] theorem State.setSns_strm (s : State) (g : Nat) (f : SnsSt → SnsSt) : (s.setSns g f).strm = s.strm := rfl
@[simp] theorem State.setSns_lat (s : State) (g : Nat) (f : SnsSt → SnsSt) : (s.setSns g f).lat = s.lat := rfl
@[simp] theorem State.setSns_audio (s : State) (g : Nat) (f : SnsSt → SnsSt) : (s.setSns g f).audio = s.audio := rfl
@[simp] theorem State.setSns_power (s : State) (g : Nat) (f : SnsSt → SnsSt) : (s.setSns g f).power = s.power := rfl
@[simp] theorem State.setSns_qmg (s : State) (g : Nat) (f : SnsSt → SnsSt) : (s.setSns g f).qmg = s.qmg := rfl
@[simp] theorem State.setSns_mx (s : State) (g : Nat) (f : SnsSt → SnsSt) : (s.setSns g f).mx = s.mx := rfl
@[simp] theorem State.setSns_seq (s : State) (g : Nat) (f : SnsSt → SnsSt) : (s.setSns g f).seq = s.seq := rfl
@[simp] theorem State.setSns_hif (s : State) (g : Nat) (f : SnsSt → SnsSt) : (s.setSns g f).hif = s.hif := rfl
@[simp] theorem State.setSns_flt (s : State) (g : Nat) (f : SnsSt → SnsSt) : (s.setSns g f).flt = s.flt := rfl
@[simp] theorem State.setSns_red (s : State) (g : Nat) (f : SnsSt → SnsSt) : (s.setSns g f).red = s.red := rfl
@[simp] theorem State.setSns_dev (s : State) (g : Nat) (f : SnsSt → SnsSt) : (s.setSns g f).dev = s.dev := rfl
@[simp] theorem State.setSns_latches (s : State) (g : Nat) (f : SnsSt → SnsSt) : (s.setSns g f).latches = s.latches := rfl
@[simp] theorem State.setSns_pending (s : State) (g : Nat) (f : SnsSt → SnsSt) : (s.setSns g f).pending = s.pending := rfl

-- State.setQueue
@[simp] theorem State.setQueue_regs (s : State) (q : Nat) (f : QueueSt → QueueSt) : (s.setQueue q f).regs = s.regs := rfl
@[simp] theorem State.setQueue_shadow (s : State) (q : Nat) (f : QueueSt → QueueSt) : (s.setQueue q f).shadow = s.shadow := rfl
@[simp] theorem State.setQueue_held (s : State) (q : Nat) (f : QueueSt → QueueSt) : (s.setQueue q f).held = s.held := rfl
@[simp] theorem State.setQueue_mem (s : State) (q : Nat) (f : QueueSt → QueueSt) : (s.setQueue q f).mem = s.mem := rfl
@[simp] theorem State.setQueue_freeCtr (s : State) (q : Nat) (f : QueueSt → QueueSt) : (s.setQueue q f).freeCtr = s.freeCtr := rfl
@[simp] theorem State.setQueue_arch (s : State) (q : Nat) (f : QueueSt → QueueSt) : (s.setQueue q f).arch = s.arch := rfl
@[simp] theorem State.setQueue_time (s : State) (q : Nat) (f : QueueSt → QueueSt) : (s.setQueue q f).time = s.time := rfl
@[simp] theorem State.setQueue_net (s : State) (q : Nat) (f : QueueSt → QueueSt) : (s.setQueue q f).net = s.net := rfl
@[simp] theorem State.setQueue_ref (s : State) (q : Nat) (f : QueueSt → QueueSt) : (s.setQueue q f).ref = s.ref := rfl
@[simp] theorem State.setQueue_strm (s : State) (q : Nat) (f : QueueSt → QueueSt) : (s.setQueue q f).strm = s.strm := rfl
@[simp] theorem State.setQueue_lat (s : State) (q : Nat) (f : QueueSt → QueueSt) : (s.setQueue q f).lat = s.lat := rfl
@[simp] theorem State.setQueue_audio (s : State) (q : Nat) (f : QueueSt → QueueSt) : (s.setQueue q f).audio = s.audio := rfl
@[simp] theorem State.setQueue_power (s : State) (q : Nat) (f : QueueSt → QueueSt) : (s.setQueue q f).power = s.power := rfl
@[simp] theorem State.setQueue_meas (s : State) (q : Nat) (f : QueueSt → QueueSt) : (s.setQueue q f).meas = s.meas := rfl
@[simp] theorem State.setQueue_mx (s : State) (q : Nat) (f : QueueSt → QueueSt) : (s.setQueue q f).mx = s.mx := rfl
@[simp] theorem State.setQueue_seq (s : State) (q : Nat) (f : QueueSt → QueueSt) : (s.setQueue q f).seq = s.seq := rfl
@[simp] theorem State.setQueue_hif (s : State) (q : Nat) (f : QueueSt → QueueSt) : (s.setQueue q f).hif = s.hif := rfl
@[simp] theorem State.setQueue_flt (s : State) (q : Nat) (f : QueueSt → QueueSt) : (s.setQueue q f).flt = s.flt := rfl
@[simp] theorem State.setQueue_red (s : State) (q : Nat) (f : QueueSt → QueueSt) : (s.setQueue q f).red = s.red := rfl
@[simp] theorem State.setQueue_dev (s : State) (q : Nat) (f : QueueSt → QueueSt) : (s.setQueue q f).dev = s.dev := rfl
@[simp] theorem State.setQueue_latches (s : State) (q : Nat) (f : QueueSt → QueueSt) : (s.setQueue q f).latches = s.latches := rfl
@[simp] theorem State.setQueue_pending (s : State) (q : Nat) (f : QueueSt → QueueSt) : (s.setQueue q f).pending = s.pending := rfl

-- State.setQport
@[simp] theorem State.setQport_regs (s : State) (m : Nat) (f : PortQ → PortQ) : (s.setQport m f).regs = s.regs := rfl
@[simp] theorem State.setQport_shadow (s : State) (m : Nat) (f : PortQ → PortQ) : (s.setQport m f).shadow = s.shadow := rfl
@[simp] theorem State.setQport_held (s : State) (m : Nat) (f : PortQ → PortQ) : (s.setQport m f).held = s.held := rfl
@[simp] theorem State.setQport_mem (s : State) (m : Nat) (f : PortQ → PortQ) : (s.setQport m f).mem = s.mem := rfl
@[simp] theorem State.setQport_freeCtr (s : State) (m : Nat) (f : PortQ → PortQ) : (s.setQport m f).freeCtr = s.freeCtr := rfl
@[simp] theorem State.setQport_arch (s : State) (m : Nat) (f : PortQ → PortQ) : (s.setQport m f).arch = s.arch := rfl
@[simp] theorem State.setQport_time (s : State) (m : Nat) (f : PortQ → PortQ) : (s.setQport m f).time = s.time := rfl
@[simp] theorem State.setQport_net (s : State) (m : Nat) (f : PortQ → PortQ) : (s.setQport m f).net = s.net := rfl
@[simp] theorem State.setQport_ref (s : State) (m : Nat) (f : PortQ → PortQ) : (s.setQport m f).ref = s.ref := rfl
@[simp] theorem State.setQport_strm (s : State) (m : Nat) (f : PortQ → PortQ) : (s.setQport m f).strm = s.strm := rfl
@[simp] theorem State.setQport_lat (s : State) (m : Nat) (f : PortQ → PortQ) : (s.setQport m f).lat = s.lat := rfl
@[simp] theorem State.setQport_audio (s : State) (m : Nat) (f : PortQ → PortQ) : (s.setQport m f).audio = s.audio := rfl
@[simp] theorem State.setQport_power (s : State) (m : Nat) (f : PortQ → PortQ) : (s.setQport m f).power = s.power := rfl
@[simp] theorem State.setQport_meas (s : State) (m : Nat) (f : PortQ → PortQ) : (s.setQport m f).meas = s.meas := rfl
@[simp] theorem State.setQport_mx (s : State) (m : Nat) (f : PortQ → PortQ) : (s.setQport m f).mx = s.mx := rfl
@[simp] theorem State.setQport_seq (s : State) (m : Nat) (f : PortQ → PortQ) : (s.setQport m f).seq = s.seq := rfl
@[simp] theorem State.setQport_hif (s : State) (m : Nat) (f : PortQ → PortQ) : (s.setQport m f).hif = s.hif := rfl
@[simp] theorem State.setQport_flt (s : State) (m : Nat) (f : PortQ → PortQ) : (s.setQport m f).flt = s.flt := rfl
@[simp] theorem State.setQport_red (s : State) (m : Nat) (f : PortQ → PortQ) : (s.setQport m f).red = s.red := rfl
@[simp] theorem State.setQport_dev (s : State) (m : Nat) (f : PortQ → PortQ) : (s.setQport m f).dev = s.dev := rfl
@[simp] theorem State.setQport_latches (s : State) (m : Nat) (f : PortQ → PortQ) : (s.setQport m f).latches = s.latches := rfl
@[simp] theorem State.setQport_pending (s : State) (m : Nat) (f : PortQ → PortQ) : (s.setQport m f).pending = s.pending := rfl

-- State.setLatch
@[simp] theorem State.setLatch_regs (s : State) (m : Nat) (f : Latches → Latches) : (s.setLatch m f).regs = s.regs := rfl
@[simp] theorem State.setLatch_shadow (s : State) (m : Nat) (f : Latches → Latches) : (s.setLatch m f).shadow = s.shadow := rfl
@[simp] theorem State.setLatch_held (s : State) (m : Nat) (f : Latches → Latches) : (s.setLatch m f).held = s.held := rfl
@[simp] theorem State.setLatch_mem (s : State) (m : Nat) (f : Latches → Latches) : (s.setLatch m f).mem = s.mem := rfl
@[simp] theorem State.setLatch_freeCtr (s : State) (m : Nat) (f : Latches → Latches) : (s.setLatch m f).freeCtr = s.freeCtr := rfl
@[simp] theorem State.setLatch_arch (s : State) (m : Nat) (f : Latches → Latches) : (s.setLatch m f).arch = s.arch := rfl
@[simp] theorem State.setLatch_time (s : State) (m : Nat) (f : Latches → Latches) : (s.setLatch m f).time = s.time := rfl
@[simp] theorem State.setLatch_net (s : State) (m : Nat) (f : Latches → Latches) : (s.setLatch m f).net = s.net := rfl
@[simp] theorem State.setLatch_ref (s : State) (m : Nat) (f : Latches → Latches) : (s.setLatch m f).ref = s.ref := rfl
@[simp] theorem State.setLatch_strm (s : State) (m : Nat) (f : Latches → Latches) : (s.setLatch m f).strm = s.strm := rfl
@[simp] theorem State.setLatch_lat (s : State) (m : Nat) (f : Latches → Latches) : (s.setLatch m f).lat = s.lat := rfl
@[simp] theorem State.setLatch_audio (s : State) (m : Nat) (f : Latches → Latches) : (s.setLatch m f).audio = s.audio := rfl
@[simp] theorem State.setLatch_power (s : State) (m : Nat) (f : Latches → Latches) : (s.setLatch m f).power = s.power := rfl
@[simp] theorem State.setLatch_meas (s : State) (m : Nat) (f : Latches → Latches) : (s.setLatch m f).meas = s.meas := rfl
@[simp] theorem State.setLatch_qmg (s : State) (m : Nat) (f : Latches → Latches) : (s.setLatch m f).qmg = s.qmg := rfl
@[simp] theorem State.setLatch_mx (s : State) (m : Nat) (f : Latches → Latches) : (s.setLatch m f).mx = s.mx := rfl
@[simp] theorem State.setLatch_seq (s : State) (m : Nat) (f : Latches → Latches) : (s.setLatch m f).seq = s.seq := rfl
@[simp] theorem State.setLatch_hif (s : State) (m : Nat) (f : Latches → Latches) : (s.setLatch m f).hif = s.hif := rfl
@[simp] theorem State.setLatch_flt (s : State) (m : Nat) (f : Latches → Latches) : (s.setLatch m f).flt = s.flt := rfl
@[simp] theorem State.setLatch_red (s : State) (m : Nat) (f : Latches → Latches) : (s.setLatch m f).red = s.red := rfl
@[simp] theorem State.setLatch_dev (s : State) (m : Nat) (f : Latches → Latches) : (s.setLatch m f).dev = s.dev := rfl
@[simp] theorem State.setLatch_pending (s : State) (m : Nat) (f : Latches → Latches) : (s.setLatch m f).pending = s.pending := rfl

-- State.setMemWord
@[simp] theorem State.setMemWord_regs (s : State) (a : Nat) (w : Word) : (s.setMemWord a w).regs = s.regs := rfl
@[simp] theorem State.setMemWord_shadow (s : State) (a : Nat) (w : Word) : (s.setMemWord a w).shadow = s.shadow := rfl
@[simp] theorem State.setMemWord_held (s : State) (a : Nat) (w : Word) : (s.setMemWord a w).held = s.held := rfl
@[simp] theorem State.setMemWord_freeCtr (s : State) (a : Nat) (w : Word) : (s.setMemWord a w).freeCtr = s.freeCtr := rfl
@[simp] theorem State.setMemWord_arch (s : State) (a : Nat) (w : Word) : (s.setMemWord a w).arch = s.arch := rfl
@[simp] theorem State.setMemWord_time (s : State) (a : Nat) (w : Word) : (s.setMemWord a w).time = s.time := rfl
@[simp] theorem State.setMemWord_net (s : State) (a : Nat) (w : Word) : (s.setMemWord a w).net = s.net := rfl
@[simp] theorem State.setMemWord_ref (s : State) (a : Nat) (w : Word) : (s.setMemWord a w).ref = s.ref := rfl
@[simp] theorem State.setMemWord_strm (s : State) (a : Nat) (w : Word) : (s.setMemWord a w).strm = s.strm := rfl
@[simp] theorem State.setMemWord_lat (s : State) (a : Nat) (w : Word) : (s.setMemWord a w).lat = s.lat := rfl
@[simp] theorem State.setMemWord_audio (s : State) (a : Nat) (w : Word) : (s.setMemWord a w).audio = s.audio := rfl
@[simp] theorem State.setMemWord_power (s : State) (a : Nat) (w : Word) : (s.setMemWord a w).power = s.power := rfl
@[simp] theorem State.setMemWord_meas (s : State) (a : Nat) (w : Word) : (s.setMemWord a w).meas = s.meas := rfl
@[simp] theorem State.setMemWord_qmg (s : State) (a : Nat) (w : Word) : (s.setMemWord a w).qmg = s.qmg := rfl
@[simp] theorem State.setMemWord_seq (s : State) (a : Nat) (w : Word) : (s.setMemWord a w).seq = s.seq := rfl
@[simp] theorem State.setMemWord_hif (s : State) (a : Nat) (w : Word) : (s.setMemWord a w).hif = s.hif := rfl
@[simp] theorem State.setMemWord_flt (s : State) (a : Nat) (w : Word) : (s.setMemWord a w).flt = s.flt := rfl
@[simp] theorem State.setMemWord_red (s : State) (a : Nat) (w : Word) : (s.setMemWord a w).red = s.red := rfl
@[simp] theorem State.setMemWord_dev (s : State) (a : Nat) (w : Word) : (s.setMemWord a w).dev = s.dev := rfl
@[simp] theorem State.setMemWord_latches (s : State) (a : Nat) (w : Word) : (s.setMemWord a w).latches = s.latches := rfl
@[simp] theorem State.setMemWord_pending (s : State) (a : Nat) (w : Word) : (s.setMemWord a w).pending = s.pending := rfl

-- State.setF
@[simp] theorem State.setF_shadow (s : State) (p : Nat) (fd : Fld) (v : Nat) : (s.setF p fd v).shadow = s.shadow :=
  by unfold State.setF; simp only []; split <;> rfl
@[simp] theorem State.setF_mem (s : State) (p : Nat) (fd : Fld) (v : Nat) : (s.setF p fd v).mem = s.mem :=
  by unfold State.setF; simp only []; split <;> rfl
@[simp] theorem State.setF_freeCtr (s : State) (p : Nat) (fd : Fld) (v : Nat) : (s.setF p fd v).freeCtr = s.freeCtr :=
  by unfold State.setF; simp only []; split <;> rfl
@[simp] theorem State.setF_arch (s : State) (p : Nat) (fd : Fld) (v : Nat) : (s.setF p fd v).arch = s.arch :=
  by unfold State.setF; simp only []; split <;> rfl
@[simp] theorem State.setF_time (s : State) (p : Nat) (fd : Fld) (v : Nat) : (s.setF p fd v).time = s.time :=
  by unfold State.setF; simp only []; split <;> rfl
@[simp] theorem State.setF_net (s : State) (p : Nat) (fd : Fld) (v : Nat) : (s.setF p fd v).net = s.net :=
  by unfold State.setF; simp only []; split <;> rfl
@[simp] theorem State.setF_ref (s : State) (p : Nat) (fd : Fld) (v : Nat) : (s.setF p fd v).ref = s.ref :=
  by unfold State.setF; simp only []; split <;> rfl
@[simp] theorem State.setF_strm (s : State) (p : Nat) (fd : Fld) (v : Nat) : (s.setF p fd v).strm = s.strm :=
  by unfold State.setF; simp only []; split <;> rfl
@[simp] theorem State.setF_lat (s : State) (p : Nat) (fd : Fld) (v : Nat) : (s.setF p fd v).lat = s.lat :=
  by unfold State.setF; simp only []; split <;> rfl
@[simp] theorem State.setF_audio (s : State) (p : Nat) (fd : Fld) (v : Nat) : (s.setF p fd v).audio = s.audio :=
  by unfold State.setF; simp only []; split <;> rfl
@[simp] theorem State.setF_power (s : State) (p : Nat) (fd : Fld) (v : Nat) : (s.setF p fd v).power = s.power :=
  by unfold State.setF; simp only []; split <;> rfl
@[simp] theorem State.setF_meas (s : State) (p : Nat) (fd : Fld) (v : Nat) : (s.setF p fd v).meas = s.meas :=
  by unfold State.setF; simp only []; split <;> rfl
@[simp] theorem State.setF_qmg (s : State) (p : Nat) (fd : Fld) (v : Nat) : (s.setF p fd v).qmg = s.qmg :=
  by unfold State.setF; simp only []; split <;> rfl
@[simp] theorem State.setF_mx (s : State) (p : Nat) (fd : Fld) (v : Nat) : (s.setF p fd v).mx = s.mx :=
  by unfold State.setF; simp only []; split <;> rfl
@[simp] theorem State.setF_seq (s : State) (p : Nat) (fd : Fld) (v : Nat) : (s.setF p fd v).seq = s.seq :=
  by unfold State.setF; simp only []; split <;> rfl
@[simp] theorem State.setF_hif (s : State) (p : Nat) (fd : Fld) (v : Nat) : (s.setF p fd v).hif = s.hif :=
  by unfold State.setF; simp only []; split <;> rfl
@[simp] theorem State.setF_flt (s : State) (p : Nat) (fd : Fld) (v : Nat) : (s.setF p fd v).flt = s.flt :=
  by unfold State.setF; simp only []; split <;> rfl
@[simp] theorem State.setF_red (s : State) (p : Nat) (fd : Fld) (v : Nat) : (s.setF p fd v).red = s.red :=
  by unfold State.setF; simp only []; split <;> rfl
@[simp] theorem State.setF_dev (s : State) (p : Nat) (fd : Fld) (v : Nat) : (s.setF p fd v).dev = s.dev :=
  by unfold State.setF; simp only []; split <;> rfl
@[simp] theorem State.setF_latches (s : State) (p : Nat) (fd : Fld) (v : Nat) : (s.setF p fd v).latches = s.latches :=
  by unfold State.setF; simp only []; split <;> rfl
@[simp] theorem State.setF_pending (s : State) (p : Nat) (fd : Fld) (v : Nat) : (s.setF p fd v).pending = s.pending :=
  by unfold State.setF; simp only []; split <;> rfl

-- State.setB
@[simp] theorem State.setB_shadow (s : State) (p : Nat) (fd : Fld) (b : Bool) : (s.setB p fd b).shadow = s.shadow :=
  State.setF_shadow s p fd _
@[simp] theorem State.setB_mem (s : State) (p : Nat) (fd : Fld) (b : Bool) : (s.setB p fd b).mem = s.mem :=
  State.setF_mem s p fd _
@[simp] theorem State.setB_freeCtr (s : State) (p : Nat) (fd : Fld) (b : Bool) : (s.setB p fd b).freeCtr = s.freeCtr :=
  State.setF_freeCtr s p fd _
@[simp] theorem State.setB_arch (s : State) (p : Nat) (fd : Fld) (b : Bool) : (s.setB p fd b).arch = s.arch :=
  State.setF_arch s p fd _
@[simp] theorem State.setB_time (s : State) (p : Nat) (fd : Fld) (b : Bool) : (s.setB p fd b).time = s.time :=
  State.setF_time s p fd _
@[simp] theorem State.setB_net (s : State) (p : Nat) (fd : Fld) (b : Bool) : (s.setB p fd b).net = s.net :=
  State.setF_net s p fd _
@[simp] theorem State.setB_ref (s : State) (p : Nat) (fd : Fld) (b : Bool) : (s.setB p fd b).ref = s.ref :=
  State.setF_ref s p fd _
@[simp] theorem State.setB_strm (s : State) (p : Nat) (fd : Fld) (b : Bool) : (s.setB p fd b).strm = s.strm :=
  State.setF_strm s p fd _
@[simp] theorem State.setB_lat (s : State) (p : Nat) (fd : Fld) (b : Bool) : (s.setB p fd b).lat = s.lat :=
  State.setF_lat s p fd _
@[simp] theorem State.setB_audio (s : State) (p : Nat) (fd : Fld) (b : Bool) : (s.setB p fd b).audio = s.audio :=
  State.setF_audio s p fd _
@[simp] theorem State.setB_power (s : State) (p : Nat) (fd : Fld) (b : Bool) : (s.setB p fd b).power = s.power :=
  State.setF_power s p fd _
@[simp] theorem State.setB_meas (s : State) (p : Nat) (fd : Fld) (b : Bool) : (s.setB p fd b).meas = s.meas :=
  State.setF_meas s p fd _
@[simp] theorem State.setB_qmg (s : State) (p : Nat) (fd : Fld) (b : Bool) : (s.setB p fd b).qmg = s.qmg :=
  State.setF_qmg s p fd _
@[simp] theorem State.setB_mx (s : State) (p : Nat) (fd : Fld) (b : Bool) : (s.setB p fd b).mx = s.mx :=
  State.setF_mx s p fd _
@[simp] theorem State.setB_seq (s : State) (p : Nat) (fd : Fld) (b : Bool) : (s.setB p fd b).seq = s.seq :=
  State.setF_seq s p fd _
@[simp] theorem State.setB_hif (s : State) (p : Nat) (fd : Fld) (b : Bool) : (s.setB p fd b).hif = s.hif :=
  State.setF_hif s p fd _
@[simp] theorem State.setB_flt (s : State) (p : Nat) (fd : Fld) (b : Bool) : (s.setB p fd b).flt = s.flt :=
  State.setF_flt s p fd _
@[simp] theorem State.setB_red (s : State) (p : Nat) (fd : Fld) (b : Bool) : (s.setB p fd b).red = s.red :=
  State.setF_red s p fd _
@[simp] theorem State.setB_dev (s : State) (p : Nat) (fd : Fld) (b : Bool) : (s.setB p fd b).dev = s.dev :=
  State.setF_dev s p fd _
@[simp] theorem State.setB_latches (s : State) (p : Nat) (fd : Fld) (b : Bool) : (s.setB p fd b).latches = s.latches :=
  State.setF_latches s p fd _
@[simp] theorem State.setB_pending (s : State) (p : Nat) (fd : Fld) (b : Bool) : (s.setB p fd b).pending = s.pending :=
  State.setF_pending s p fd _

-- State.bumpBy
@[simp] theorem State.bumpBy_shadow (s : State) (p : Nat) (fd : Fld) (n : Nat) : (s.bumpBy p fd n).shadow = s.shadow :=
  State.setF_shadow s p fd _
@[simp] theorem State.bumpBy_mem (s : State) (p : Nat) (fd : Fld) (n : Nat) : (s.bumpBy p fd n).mem = s.mem :=
  State.setF_mem s p fd _
@[simp] theorem State.bumpBy_freeCtr (s : State) (p : Nat) (fd : Fld) (n : Nat) : (s.bumpBy p fd n).freeCtr = s.freeCtr :=
  State.setF_freeCtr s p fd _
@[simp] theorem State.bumpBy_arch (s : State) (p : Nat) (fd : Fld) (n : Nat) : (s.bumpBy p fd n).arch = s.arch :=
  State.setF_arch s p fd _
@[simp] theorem State.bumpBy_time (s : State) (p : Nat) (fd : Fld) (n : Nat) : (s.bumpBy p fd n).time = s.time :=
  State.setF_time s p fd _
@[simp] theorem State.bumpBy_net (s : State) (p : Nat) (fd : Fld) (n : Nat) : (s.bumpBy p fd n).net = s.net :=
  State.setF_net s p fd _
@[simp] theorem State.bumpBy_ref (s : State) (p : Nat) (fd : Fld) (n : Nat) : (s.bumpBy p fd n).ref = s.ref :=
  State.setF_ref s p fd _
@[simp] theorem State.bumpBy_strm (s : State) (p : Nat) (fd : Fld) (n : Nat) : (s.bumpBy p fd n).strm = s.strm :=
  State.setF_strm s p fd _
@[simp] theorem State.bumpBy_lat (s : State) (p : Nat) (fd : Fld) (n : Nat) : (s.bumpBy p fd n).lat = s.lat :=
  State.setF_lat s p fd _
@[simp] theorem State.bumpBy_audio (s : State) (p : Nat) (fd : Fld) (n : Nat) : (s.bumpBy p fd n).audio = s.audio :=
  State.setF_audio s p fd _
@[simp] theorem State.bumpBy_power (s : State) (p : Nat) (fd : Fld) (n : Nat) : (s.bumpBy p fd n).power = s.power :=
  State.setF_power s p fd _
@[simp] theorem State.bumpBy_meas (s : State) (p : Nat) (fd : Fld) (n : Nat) : (s.bumpBy p fd n).meas = s.meas :=
  State.setF_meas s p fd _
@[simp] theorem State.bumpBy_qmg (s : State) (p : Nat) (fd : Fld) (n : Nat) : (s.bumpBy p fd n).qmg = s.qmg :=
  State.setF_qmg s p fd _
@[simp] theorem State.bumpBy_mx (s : State) (p : Nat) (fd : Fld) (n : Nat) : (s.bumpBy p fd n).mx = s.mx :=
  State.setF_mx s p fd _
@[simp] theorem State.bumpBy_seq (s : State) (p : Nat) (fd : Fld) (n : Nat) : (s.bumpBy p fd n).seq = s.seq :=
  State.setF_seq s p fd _
@[simp] theorem State.bumpBy_hif (s : State) (p : Nat) (fd : Fld) (n : Nat) : (s.bumpBy p fd n).hif = s.hif :=
  State.setF_hif s p fd _
@[simp] theorem State.bumpBy_flt (s : State) (p : Nat) (fd : Fld) (n : Nat) : (s.bumpBy p fd n).flt = s.flt :=
  State.setF_flt s p fd _
@[simp] theorem State.bumpBy_red (s : State) (p : Nat) (fd : Fld) (n : Nat) : (s.bumpBy p fd n).red = s.red :=
  State.setF_red s p fd _
@[simp] theorem State.bumpBy_dev (s : State) (p : Nat) (fd : Fld) (n : Nat) : (s.bumpBy p fd n).dev = s.dev :=
  State.setF_dev s p fd _
@[simp] theorem State.bumpBy_latches (s : State) (p : Nat) (fd : Fld) (n : Nat) : (s.bumpBy p fd n).latches = s.latches :=
  State.setF_latches s p fd _
@[simp] theorem State.bumpBy_pending (s : State) (p : Nat) (fd : Fld) (n : Nat) : (s.bumpBy p fd n).pending = s.pending :=
  State.setF_pending s p fd _

-- State.bump
@[simp] theorem State.bump_shadow (s : State) (p : Nat) (fd : Fld) : (s.bump p fd).shadow = s.shadow :=
  State.setF_shadow s p fd _
@[simp] theorem State.bump_mem (s : State) (p : Nat) (fd : Fld) : (s.bump p fd).mem = s.mem :=
  State.setF_mem s p fd _
@[simp] theorem State.bump_freeCtr (s : State) (p : Nat) (fd : Fld) : (s.bump p fd).freeCtr = s.freeCtr :=
  State.setF_freeCtr s p fd _
@[simp] theorem State.bump_arch (s : State) (p : Nat) (fd : Fld) : (s.bump p fd).arch = s.arch :=
  State.setF_arch s p fd _
@[simp] theorem State.bump_time (s : State) (p : Nat) (fd : Fld) : (s.bump p fd).time = s.time :=
  State.setF_time s p fd _
@[simp] theorem State.bump_net (s : State) (p : Nat) (fd : Fld) : (s.bump p fd).net = s.net :=
  State.setF_net s p fd _
@[simp] theorem State.bump_ref (s : State) (p : Nat) (fd : Fld) : (s.bump p fd).ref = s.ref :=
  State.setF_ref s p fd _
@[simp] theorem State.bump_strm (s : State) (p : Nat) (fd : Fld) : (s.bump p fd).strm = s.strm :=
  State.setF_strm s p fd _
@[simp] theorem State.bump_lat (s : State) (p : Nat) (fd : Fld) : (s.bump p fd).lat = s.lat :=
  State.setF_lat s p fd _
@[simp] theorem State.bump_audio (s : State) (p : Nat) (fd : Fld) : (s.bump p fd).audio = s.audio :=
  State.setF_audio s p fd _
@[simp] theorem State.bump_power (s : State) (p : Nat) (fd : Fld) : (s.bump p fd).power = s.power :=
  State.setF_power s p fd _
@[simp] theorem State.bump_meas (s : State) (p : Nat) (fd : Fld) : (s.bump p fd).meas = s.meas :=
  State.setF_meas s p fd _
@[simp] theorem State.bump_qmg (s : State) (p : Nat) (fd : Fld) : (s.bump p fd).qmg = s.qmg :=
  State.setF_qmg s p fd _
@[simp] theorem State.bump_mx (s : State) (p : Nat) (fd : Fld) : (s.bump p fd).mx = s.mx :=
  State.setF_mx s p fd _
@[simp] theorem State.bump_seq (s : State) (p : Nat) (fd : Fld) : (s.bump p fd).seq = s.seq :=
  State.setF_seq s p fd _
@[simp] theorem State.bump_hif (s : State) (p : Nat) (fd : Fld) : (s.bump p fd).hif = s.hif :=
  State.setF_hif s p fd _
@[simp] theorem State.bump_flt (s : State) (p : Nat) (fd : Fld) : (s.bump p fd).flt = s.flt :=
  State.setF_flt s p fd _
@[simp] theorem State.bump_red (s : State) (p : Nat) (fd : Fld) : (s.bump p fd).red = s.red :=
  State.setF_red s p fd _
@[simp] theorem State.bump_dev (s : State) (p : Nat) (fd : Fld) : (s.bump p fd).dev = s.dev :=
  State.setF_dev s p fd _
@[simp] theorem State.bump_latches (s : State) (p : Nat) (fd : Fld) : (s.bump p fd).latches = s.latches :=
  State.setF_latches s p fd _
@[simp] theorem State.bump_pending (s : State) (p : Nat) (fd : Fld) : (s.bump p fd).pending = s.pending :=
  State.setF_pending s p fd _

-- State.roll
@[simp] theorem State.roll_shadow (s : State) (p : Nat) (fd : Fld) : (s.roll p fd).shadow = s.shadow :=
  State.setF_shadow s p fd _
@[simp] theorem State.roll_mem (s : State) (p : Nat) (fd : Fld) : (s.roll p fd).mem = s.mem :=
  State.setF_mem s p fd _
@[simp] theorem State.roll_freeCtr (s : State) (p : Nat) (fd : Fld) : (s.roll p fd).freeCtr = s.freeCtr :=
  State.setF_freeCtr s p fd _
@[simp] theorem State.roll_arch (s : State) (p : Nat) (fd : Fld) : (s.roll p fd).arch = s.arch :=
  State.setF_arch s p fd _
@[simp] theorem State.roll_time (s : State) (p : Nat) (fd : Fld) : (s.roll p fd).time = s.time :=
  State.setF_time s p fd _
@[simp] theorem State.roll_net (s : State) (p : Nat) (fd : Fld) : (s.roll p fd).net = s.net :=
  State.setF_net s p fd _
@[simp] theorem State.roll_ref (s : State) (p : Nat) (fd : Fld) : (s.roll p fd).ref = s.ref :=
  State.setF_ref s p fd _
@[simp] theorem State.roll_strm (s : State) (p : Nat) (fd : Fld) : (s.roll p fd).strm = s.strm :=
  State.setF_strm s p fd _
@[simp] theorem State.roll_lat (s : State) (p : Nat) (fd : Fld) : (s.roll p fd).lat = s.lat :=
  State.setF_lat s p fd _
@[simp] theorem State.roll_audio (s : State) (p : Nat) (fd : Fld) : (s.roll p fd).audio = s.audio :=
  State.setF_audio s p fd _
@[simp] theorem State.roll_power (s : State) (p : Nat) (fd : Fld) : (s.roll p fd).power = s.power :=
  State.setF_power s p fd _
@[simp] theorem State.roll_meas (s : State) (p : Nat) (fd : Fld) : (s.roll p fd).meas = s.meas :=
  State.setF_meas s p fd _
@[simp] theorem State.roll_qmg (s : State) (p : Nat) (fd : Fld) : (s.roll p fd).qmg = s.qmg :=
  State.setF_qmg s p fd _
@[simp] theorem State.roll_mx (s : State) (p : Nat) (fd : Fld) : (s.roll p fd).mx = s.mx :=
  State.setF_mx s p fd _
@[simp] theorem State.roll_seq (s : State) (p : Nat) (fd : Fld) : (s.roll p fd).seq = s.seq :=
  State.setF_seq s p fd _
@[simp] theorem State.roll_hif (s : State) (p : Nat) (fd : Fld) : (s.roll p fd).hif = s.hif :=
  State.setF_hif s p fd _
@[simp] theorem State.roll_flt (s : State) (p : Nat) (fd : Fld) : (s.roll p fd).flt = s.flt :=
  State.setF_flt s p fd _
@[simp] theorem State.roll_red (s : State) (p : Nat) (fd : Fld) : (s.roll p fd).red = s.red :=
  State.setF_red s p fd _
@[simp] theorem State.roll_dev (s : State) (p : Nat) (fd : Fld) : (s.roll p fd).dev = s.dev :=
  State.setF_dev s p fd _
@[simp] theorem State.roll_latches (s : State) (p : Nat) (fd : Fld) : (s.roll p fd).latches = s.latches :=
  State.setF_latches s p fd _
@[simp] theorem State.roll_pending (s : State) (p : Nat) (fd : Fld) : (s.roll p fd).pending = s.pending :=
  State.setF_pending s p fd _

-- setInt
@[simp] theorem setInt_shadow (s : State) (p : Nat) (fd : Fld) (v : Int) : (setInt s p fd v).shadow = s.shadow :=
  State.setF_shadow s p fd _
@[simp] theorem setInt_mem (s : State) (p : Nat) (fd : Fld) (v : Int) : (setInt s p fd v).mem = s.mem :=
  State.setF_mem s p fd _
@[simp] theorem setInt_freeCtr (s : State) (p : Nat) (fd : Fld) (v : Int) : (setInt s p fd v).freeCtr = s.freeCtr :=
  State.setF_freeCtr s p fd _
@[simp] theorem setInt_arch (s : State) (p : Nat) (fd : Fld) (v : Int) : (setInt s p fd v).arch = s.arch :=
  State.setF_arch s p fd _
@[simp] theorem setInt_time (s : State) (p : Nat) (fd : Fld) (v : Int) : (setInt s p fd v).time = s.time :=
  State.setF_time s p fd _
@[simp] theorem setInt_net (s : State) (p : Nat) (fd : Fld) (v : Int) : (setInt s p fd v).net = s.net :=
  State.setF_net s p fd _
@[simp] theorem setInt_ref (s : State) (p : Nat) (fd : Fld) (v : Int) : (setInt s p fd v).ref = s.ref :=
  State.setF_ref s p fd _
@[simp] theorem setInt_strm (s : State) (p : Nat) (fd : Fld) (v : Int) : (setInt s p fd v).strm = s.strm :=
  State.setF_strm s p fd _
@[simp] theorem setInt_lat (s : State) (p : Nat) (fd : Fld) (v : Int) : (setInt s p fd v).lat = s.lat :=
  State.setF_lat s p fd _
@[simp] theorem setInt_audio (s : State) (p : Nat) (fd : Fld) (v : Int) : (setInt s p fd v).audio = s.audio :=
  State.setF_audio s p fd _
@[simp] theorem setInt_power (s : State) (p : Nat) (fd : Fld) (v : Int) : (setInt s p fd v).power = s.power :=
  State.setF_power s p fd _
@[simp] theorem setInt_meas (s : State) (p : Nat) (fd : Fld) (v : Int) : (setInt s p fd v).meas = s.meas :=
  State.setF_meas s p fd _
@[simp] theorem setInt_qmg (s : State) (p : Nat) (fd : Fld) (v : Int) : (setInt s p fd v).qmg = s.qmg :=
  State.setF_qmg s p fd _
@[simp] theorem setInt_mx (s : State) (p : Nat) (fd : Fld) (v : Int) : (setInt s p fd v).mx = s.mx :=
  State.setF_mx s p fd _
@[simp] theorem setInt_seq (s : State) (p : Nat) (fd : Fld) (v : Int) : (setInt s p fd v).seq = s.seq :=
  State.setF_seq s p fd _
@[simp] theorem setInt_hif (s : State) (p : Nat) (fd : Fld) (v : Int) : (setInt s p fd v).hif = s.hif :=
  State.setF_hif s p fd _
@[simp] theorem setInt_flt (s : State) (p : Nat) (fd : Fld) (v : Int) : (setInt s p fd v).flt = s.flt :=
  State.setF_flt s p fd _
@[simp] theorem setInt_red (s : State) (p : Nat) (fd : Fld) (v : Int) : (setInt s p fd v).red = s.red :=
  State.setF_red s p fd _
@[simp] theorem setInt_dev (s : State) (p : Nat) (fd : Fld) (v : Int) : (setInt s p fd v).dev = s.dev :=
  State.setF_dev s p fd _
@[simp] theorem setInt_latches (s : State) (p : Nat) (fd : Fld) (v : Int) : (setInt s p fd v).latches = s.latches :=
  State.setF_latches s p fd _
@[simp] theorem setInt_pending (s : State) (p : Nat) (fd : Fld) (v : Int) : (setInt s p fd v).pending = s.pending :=
  State.setF_pending s p fd _

end Sys2Proof.Machine
end

