-- ==== Sys2Proof/Laws/Regs.lean ====
section
/-! SUPPORT. Laws of the registers: what a register and a field read after a register or a field is written. -/

namespace Sys2Proof.Machine

theorem keyOf_inj {p ofs q r : Nat} (h1 : ofs < 4096) (h2 : r < 4096) (h : keyOf p ofs = keyOf q r) : p = q ∧ ofs = r := by
  unfold keyOf at h
  omega

theorem reg_setReg (s : State) (p ofs : Nat) (w : Word) (q r : Nat) :
    (s.setReg p ofs w).reg q r = if keyOf p ofs = keyOf q r then w else s.reg q r := by
  show ((SMap.put s.regs (keyOf p ofs) w).find (keyOf q r)).getD _ = _
  rw [SMap.find_put]
  split <;> rfl

@[simp] theorem reg_setReg_same (s : State) (p ofs : Nat) (w : Word) : (s.setReg p ofs w).reg p ofs = w := by
  simp [reg_setReg]

/-- A word written to one register leaves the words of the others. -/
theorem reg_setReg_ne (s : State) {p ofs : Nat} (w : Word) {q r : Nat} (h : keyOf p ofs ≠ keyOf q r) :
    (s.setReg p ofs w).reg q r = s.reg q r := by
  simp [reg_setReg, h]

theorem reg_ite (c : Prop) [Decidable c] (s t : State) (q r : Nat) :
    (if c then s else t).reg q r = if c then s.reg q r else t.reg q r := by
  split <;> rfl

theorem setF_regs (s : State) (p : Nat) (f : Fld) (v : Nat) :
    (s.setF p f v).regs = s.regs.put (keyOf p f.ofs) (setBits (s.reg p f.ofs) f.hi f.lo v) := by
  unfold State.setF
  simp only []
  split <;> rfl

theorem reg_setF (s : State) (p : Nat) (f : Fld) (v q r : Nat) :
    (s.setF p f v).reg q r =
      if keyOf p f.ofs = keyOf q r then setBits (s.reg p f.ofs) f.hi f.lo v else s.reg q r := by
  unfold State.reg
  rw [setF_regs, SMap.find_put]
  split <;> rfl

theorem reg_setF_ne (s : State) {p : Nat} {f : Fld} (v : Nat) {q r : Nat} (h : keyOf p f.ofs ≠ keyOf q r) :
    (s.setF p f v).reg q r = s.reg q r := by
  simp [reg_setF, h]

/-- A field reads back what was written to it. -/
theorem rd_setF_same (s : State) (p : Nat) (f : Fld) (v : Nat) (hh : f.hi < 32) :
    (s.setF p f v).rd p f = v % 2 ^ (f.hi + 1 - f.lo) := by
  unfold State.rd
  rw [reg_setF, if_pos rfl, getBits_setBits_same _ _ _ _ hh]

/-- A field written leaves every field of another register, and every other field of its own. -/
theorem rd_setF_apart (s : State) (p : Nat) (f : Fld) (v q : Nat) (g : Fld) (hh : f.hi < 32) (hf : f.ofs < 4096)
    (hg : g.ofs < 4096) (hd : p ≠ q ∨ f.ofs ≠ g.ofs ∨ f.hi < g.lo ∨ g.hi < f.lo) :
    (s.setF p f v).rd q g = s.rd q g := by
  unfold State.rd
  rw [reg_setF]
  split
  · rename_i hk
    obtain ⟨hp, ho⟩ := keyOf_inj hf hg hk
    subst hp
    rw [ho]
    rcases hd with hd | hd | hd
    · exact absurd rfl hd
    · exact absurd ho hd
    · exact getBits_setBits_apart _ _ _ _ _ _ hh hd
  · rfl

/-- A field written leaves every register other than its own. -/
theorem reg_setF_apart (s : State) (p : Nat) (f : Fld) (v q r : Nat) (hf : f.ofs < 4096) (hr : r < 4096)
    (hd : p ≠ q ∨ f.ofs ≠ r) : (s.setF p f v).reg q r = s.reg q r := by
  apply reg_setF_ne
  intro hk
  obtain ⟨hp, ho⟩ := keyOf_inj hf hr hk
  rcases hd with hd | hd
  · exact hd hp
  · exact hd ho

theorem rd_setReg_apart (s : State) (p ofs : Nat) (w : Word) (q : Nat) (g : Fld) (hf : ofs < 4096)
    (hg : g.ofs < 4096) (hd : p ≠ q ∨ ofs ≠ g.ofs) : (s.setReg p ofs w).rd q g = s.rd q g := by
  unfold State.rd
  rw [reg_setReg_ne]
  intro hk
  obtain ⟨hp, ho⟩ := keyOf_inj hf hg hk
  rcases hd with hd | hd
  · exact hd hp
  · exact hd ho

theorem rd_setReg_same (s : State) (p : Nat) (w : Word) (g : Fld) :
    (s.setReg p g.ofs w).rd p g = getBits w g.hi g.lo := by
  unfold State.rd
  rw [reg_setReg_same]

/-- A one-bit field is its bit. -/
theorem is_of_bit (s : State) (p : Nat) (f : Fld) (n : Nat) (h1 : f.hi = n) (h2 : f.lo = n) :
    s.is p f = (s.reg p f.ofs).getLsbD n := by
  have : getBits (s.reg p f.ofs) f.hi f.lo = if (s.reg p f.ofs).getLsbD n then 1 else 0 := by
    apply Nat.eq_of_testBit_eq
    intro i
    rw [testBit_getBits, h1, h2]
    cases i with
    | zero => cases (s.reg p f.ofs).getLsbD n <;> simp
    | succ i =>
      have hi : ¬ i + 1 < n + 1 - n := by omega
      simp only [hi, decide_false, Bool.false_and]
      cases (s.reg p f.ofs).getLsbD n
      · simp
      · simp [Nat.testBit_succ]
  unfold State.is State.rd
  rw [this]
  split <;> simp_all

/-- Where no boundary is awaited, the value in force is the value read. -/
theorem act_eq_rd (s : State) (p : Nat) (f : Fld) (h : s.held.find (keyOf p f.ofs) = none) : s.act p f = s.rd p f := by
  simp [State.act, State.rd, State.inForce, h]

end Sys2Proof.Machine
end

