-- ==== Sys2Proof/Laws/Access.lean ====
section
/-! SUPPORT. Laws of granted register accesses: a command that reads or writes a register is the read or the write of that
register, and its answer. -/

namespace Sys2Proof.Machine

open Sys2Proof.Safety

theorem regAddr_toNat {p ofs : Nat} (hp : p < 1024) (ho : ofs < 4096) :
    (regAddr p ofs).toNat = 0x40000000 + p * 4096 + ofs := by
  unfold regAddr
  rw [BitVec.toNat_ofNat]
  omega

theorem windowOf_regAddr {p ofs : Nat} (hp : p < 1024) (ho : ofs < 4096) :
    windowOf (0x40000000 + p * 4096 + ofs) = some (p, ofs) := by
  unfold windowOf
  have h1 : (0x40000000 ≤ 0x40000000 + p * 4096 + ofs) := by omega
  have h2 : 0x40000000 + p * 4096 + ofs < 0x40400000 := by omega
  have h3 : (0x40000000 + p * 4096 + ofs - 0x40000000) / 4096 = p := by omega
  have h4 : (0x40000000 + p * 4096 + ofs) % 4096 = ofs := by omega
  simp [h1, h2, h3, h4]

theorem bankOf_window {a : Nat} (h : 0x40000000 ≤ a) : bankOf a = none := by
  unfold bankOf
  rw [List.find?_eq_none]
  intro b hb
  have hb : b < 8 := List.mem_range.mp hb
  have : bankBase b + bankSize b ≤ 0x40000000 := by
    rcases b with _ | _ | _ | _ | _ | _ | _ | _ | b <;> first | decide | omega
  simp only [Bool.and_eq_true, decide_eq_true_eq, not_and]
  intro _
  omega

theorem reaches_no {m : Master} (h : m.reachesWindow = true) : [0, 1, 6, 7].contains (masterNo m) = true := by
  cases m <;> first | rfl | exact absurd h (by decide)

structure Grant (s : State) (m : Master) : Prop where
  live  : s.live = true
  reach : m.reachesWindow = true
  lock  : s.mx.locks.find 8 = none
  whole : s.mx.broken.find (masterNo m * 16 + 8) = none
  stall : (s.qport (masterNo m)).stall = none
  mem   : memStalled s = false
  slice : s.mx.slicing = []

theorem grant_of {s : State} {m : Master} (h : granted s m = true) : Grant s m := by
  unfold granted at h
  simp only [Bool.and_eq_true, Option.isNone_iff_eq_none, Bool.not_eq_true'] at h
  exact ⟨h.1.1.1.1.1.1, h.1.1.1.1.1.2, h.1.1.1.1.2, h.1.1.1.2, h.1.1.2, h.1.2, List.isEmpty_iff.mp h.2⟩

theorem live_on {s : State} (h : s.live = true) :
    s.dev.phase = .on ∧ s.dev.frozen = false ∧ s.devState ≠ 4 := by
  unfold State.live at h
  simp only [Bool.and_eq_true, beq_iff_eq, Bool.not_eq_true', bne_iff_ne] at h
  exact ⟨h.1.1, h.1.2, h.2⟩

theorem pageStopped_live {s : State} (h : s.live = true) (p : Nat) : pageStopped s p = false := by
  obtain ⟨_, h2, h3⟩ := live_on h
  simp [pageStopped, h2, h3]

theorem targetOf_reg {s : State} {m : Master} (h : m.reachesWindow = true) {p ofs : Nat} (hp : p < 1024)
    (ho : ofs < 4096) (h4 : ofs % 4 = 0) (hk : pageKind p ≠ .reserved) (wr : Bool) :
    targetOf s (masterNo m) (0x40000000 + p * 4096 + ofs) 0xF wr = 8 := by
  unfold targetOf busTarget
  rw [bankOf_window (by omega), windowOf_regAddr hp ho]
  have h5 : (0x40000000 + p * 4096 + ofs) % 4 = 0 := by omega
  have hw : windowOk (masterNo m) (0x40000000 + p * 4096 + ofs) 0xF = true := by
    unfold windowOk
    rw [windowOf_regAddr hp ho, reaches_no h, h5]
    simp [hk]
  exact if_pos hw

/-- A granted access of the register window meets no lock and does not wait. -/
theorem busAccess_reg {s : State} {m : Master} (g : granted s m = true) {p ofs : Nat} (hp : p < 1024)
    (ho : ofs < 4096) (h4 : ofs % 4 = 0) (hk : pageKind p ≠ .reserved) (wr : Option Word) :
    busAccess s (masterNo m) (0x40000000 + p * 4096 + ofs) wr 0xF false
      = serveAs s (masterNo m) 8 (0x40000000 + p * 4096 + ofs) wr 0xF false := by
  have g := grant_of g
  obtain ⟨_, hf, _⟩ := live_on g.live
  unfold busAccess
  rw [targetOf_reg g.reach hp ho h4 hk]
  have hw : mustWait s (masterNo m) 8 = false := by
    simp [mustWait, hf, lockedOut, sliceHeld, g.lock, g.stall, g.mem, g.slice]
  have hl : lockUse s (masterNo m) 8 false false = (false, s) := by
    simp [lockUse, g.whole, g.lock]
  have he : lockEnds s (masterNo m) 8 = false := by simp [lockEnds, g.lock]
  have hp : pathsSwitch s (masterNo m) 8 = s := by simp [pathsSwitch, g.slice]
  simp only [hw, hp, hl, ite_self, he, Bool.false_and]
  rfl

/-- A granted write of a register is that write and its answer. -/
theorem doRegWrite_granted {s : State} {m : Master} (g : granted s m = true) {p ofs : Nat} (hp : p < 1024)
    (ho : ofs < 4096) (h4 : ofs % 4 = 0) (hk : pageKind p ≠ .reserved) (v : Word) :
    doRegWrite s m p ofs v
      = answered (regWrite s (masterNo m) p ofs v).2 (regWrite s (masterNo m) p ofs v).1 0 := by
  have hon : s.answers = true := by simp [State.answers, (live_on (grant_of g).live).1]
  unfold doRegWrite doWrite busWrite
  rw [hon, regAddr_toNat hp ho, busAccess_reg g hp ho h4 hk]
  unfold serveAs serve
  rw [windowOf_regAddr hp ho]
  rfl

/-- A granted read of a register that does not stall is that read and its answer. -/
theorem doRegRead_granted {s : State} {m : Master} (g : granted s m = true) {p ofs : Nat} (hp : p < 1024)
    (ho : ofs < 4096) (h4 : ofs % 4 = 0) (hk : pageKind p ≠ .reserved) {w : Word} {t : State}
    (hr : regRead s (masterNo m) p ofs = (some w, t)) :
    doRegRead s m p ofs = answered t 0 w := by
  have hon : s.answers = true := by simp [State.answers, (live_on (grant_of g).live).1]
  unfold doRegRead doRead busRead
  rw [hon, regAddr_toNat hp ho, busAccess_reg g hp ho h4 hk]
  unfold serveAs serve
  rw [windowOf_regAddr hp ho]
  simp only [hr]
  rfl

/-- A write of a header register of a working core (R45, R67). -/
theorem regWrite_header {s : State} (h : s.live = true) (m : Nat) {p ofs : Nat} (hk : isRegPage p = true)
    (ho : ofs < 0x40) (v : Word) (hv : headerVeto s p ofs v = none) :
    regWrite s m p ofs v = (rOk, headerWrite s p ofs v) := by
  have h1 : ¬ 0x800 ≤ ofs := by omega
  simp [regWrite, pageStopped_live h, hk, ho, h1, hv]

/-- A write of a block register of a working core (R45, R67). -/
theorem regWrite_block {s : State} (h : s.live = true) (m : Nat) {p ofs : Nat} (v : Word) {d : RegDesc}
    (ho : isRegPage p = true → 0x40 ≤ ofs ∧ ofs < 0x800) (hd : descOf s p ofs = some d) (hw : d.writable = true) :
    regWrite s m p ofs v = blockWrite s m p ofs v d := by
  have h1 : (isRegPage p && decide (0x800 ≤ ofs)) = false := by
    cases hr : isRegPage p
    · rfl
    · have := ho hr; simp; omega
  have h2 : (isRegPage p && decide (ofs < 0x40)) = false := by
    cases hr : isRegPage p
    · rfl
    · have := ho hr; simp; omega
  simp [regWrite, pageStopped_live h, h1, h2, hd, hw]

/-- A write that no rule refuses is stored, and does what the block gives it (Table 2.11). -/
theorem blockWrite_ok {s : State} {m p ofs : Nat} (v : Word) {d : RegDesc} (hd : ¬ (p = pgDbg ∧ ofs = 0x040 ∧ m ≠ 0))
    (h1 : classVeto s p d = none) (h2 : blockVeto s p ofs v = none) :
    blockWrite s m p ofs v d =
      (rOk, opWrote (blockWrote (storeReg s p ofs v d) m p ofs v (s.reg p ofs)) p ofs v) := by
  simp only [blockWrite, if_neg hd, h1, h2, orVeto]

/-- A live register reads its new word at once (Table 2.11). -/
theorem reg_putLive (s : State) (p ofs : Nat) (w : Word) (q r : Nat) :
    (putLive s p ofs w).reg q r = if keyOf p ofs = keyOf q r then w else s.reg q r := by
  unfold putLive
  simp only [reg_setReg]
  split
  · rfl
  · split <;> rfl

@[simp] theorem reg_answered (s : State) (r : Nat) (d : Word) (q o : Nat) : (answered s r d).reg q o = s.reg q o := rfl
@[simp] theorem rd_answered (s : State) (r : Nat) (d : Word) (q : Nat) (f : Fld) : (answered s r d).rd q f = s.rd q f := rfl
@[simp] theorem is_answered (s : State) (r : Nat) (d : Word) (q : Nat) (f : Fld) : (answered s r d).is q f = s.is q f := rfl

/-- The block keeps working with the word it had, where a live write meets it engaged (R33). -/
theorem inForce_putLive (s : State) (p ofs : Nat) (w : Word) (h : engaged s (ownerPage p) = true) :
    (putLive s p ofs w).inForce p ofs = s.inForce p ofs := by
  unfold putLive State.inForce
  simp only [h, Bool.true_and]
  cases hk : s.held.find (keyOf p ofs) with
  | none => simp
  | some x => simp [hk]

theorem isReg_kind {p : Nat} (h : isRegPage p = true) : pageKind p ≠ .reserved := by
  intro hk
  simp [isRegPage, hk] at h

theorem isReg_owner {p : Nat} (h : isRegPage p = true) : ownerPage p = p := by
  unfold isRegPage at h
  unfold ownerPage
  split <;> simp_all

/-- A granted write of a header register that is not refused. -/
theorem doRegWrite_header {s : State} {m : Master} {p : Page} (g : granted s m = true) (hr : isRegPage p = true)
    {ofs : Nat} (h1 : ofs < 0x40) (h4 : ofs % 4 = 0) (v : Word) (hv : headerVeto s p ofs v = none) :
    doRegWrite s m p ofs v = answered (headerWrite s p ofs v) 0 0 := by
  rw [doRegWrite_granted g p.isLt (by omega) h4 (isReg_kind hr), regWrite_header (grant_of g).live _ hr h1 v hv]

end Sys2Proof.Machine
end

