-- ==== Sys2Proof/Laws/Flags.lean ====
section
/-! SUPPORT. What setting an event or fault flag, raising attention and an occurrence at the sequencer leave alone: all but
the registers, the sequencer, the host link's epoch, the fault collector and the reset requests. -/

namespace Sys2Proof.Machine

/-- What every step of a fold keeps, the fold keeps. -/
theorem foldl_keeps {α β : Type} (g : State → β) (f : State → α → State) (l : List α)
    (h : ∀ s a, a ∈ l → g (f s a) = g s) (s : State) : g (l.foldl f s) = g s := by
  induction l generalizing s with
  | nil => rfl
  | cons a l ih =>
    show g (l.foldl f (f s a)) = g s
    rw [ih (fun s b hb => h s b (List.mem_cons_of_mem _ hb)), h s a (List.mem_cons_self ..)]

/-- The state without what events and faults touch: registers, sequencer, host link, fault collector, requests. -/
def beside (s : State) : State := { s with regs := [], held := [], seq := {}, hif := {}, flt := {}, arch := {} }

@[simp] theorem beside_setReg (s : State) (p ofs : Nat) (w : Word) : beside (s.setReg p ofs w) = beside s := rfl

@[simp] theorem beside_setF (s : State) (p : Nat) (f : Fld) (v : Nat) : beside (s.setF p f v) = beside s := by
  unfold State.setF
  simp only []
  split <;> rfl

@[simp] theorem beside_setB (s : State) (p : Nat) (f : Fld) (b : Bool) : beside (s.setB p f b) = beside s :=
  beside_setF s p f _

@[simp] theorem beside_bump (s : State) (p : Nat) (f : Fld) : beside (s.bump p f) = beside s := beside_setF s p f _

@[simp] theorem beside_roll (s : State) (p : Nat) (f : Fld) : beside (s.roll p f) = beside s := beside_setF s p f _

@[simp] theorem beside_setCtx (s : State) (c : Nat) (f : SeqCtxSt → SeqCtxSt) : beside (s.setCtx c f) = beside s := rfl

theorem beside_ite (c : Prop) [Decidable c] (s t : State) :
    beside (if c then s else t) = if c then beside s else beside t := by
  split <;> rfl

@[simp] theorem seqEnter_beside (s : State) (c : Nat) : beside (seqEnter s c) = beside s := by
  simp only [seqEnter, beside_setCtx, beside_bump, beside_setF]

@[simp] theorem seqTrigger_beside (s : State) (c : Nat) : beside (seqTrigger s c) = beside s := by
  simp only [seqTrigger, beside_ite, seqEnter_beside, beside_bump, beside_setB, ite_self]

@[simp] theorem seqRelease_beside (s : State) (c : Nat) (b : Bool) : beside (seqRelease s c b) = beside s := by
  simp only [seqRelease, beside_setCtx, beside_setF, beside_setB]

@[simp] theorem seqSees_beside (page bit : Nat) (en : Bool) (s : State) (c : Nat) :
    beside (seqSees page bit en s c) = beside s := by
  unfold seqSees
  split <;> simp only [beside_ite, seqTrigger_beside, seqRelease_beside, ite_self]

@[simp] theorem seqOccur_beside (s : State) (page bit : Nat) (en : Bool) :
    beside (seqOccur s page bit en) = beside s := by
  unfold seqOccur
  split
  · exact foldl_keeps beside _ _ (fun s c _ => seqSees_beside page bit en s c) s
  · rfl

@[simp] theorem attDetail_beside (s : State) (page bit : Nat) : beside (attDetail s page bit) = beside s := rfl

@[simp] theorem attRaise_beside (s : State) (att page bit sub : Nat) : beside (attRaise s att page bit sub) = beside s := by
  simp only [attRaise, beside_ite, attDetail_beside, beside_setB, ite_self]

/-- An event leaves all that stands beside the registers, attention and the sequencer (R58, R427, R444). -/
@[simp] theorem event_beside (s : State) (p bit : Nat) : beside (event s p bit) = beside s := by
  simp only [event, seqOccur_beside, beside_ite, attRaise_beside, beside_setB, ite_self]

@[simp] theorem eventF_beside (s : State) (p : Nat) (f : Fld) : beside (eventF s p f) = beside s := event_beside s p f.lo

@[simp] theorem eventAlways_beside (s : State) (p bit att : Nat) : beside (eventAlways s p bit att) = beside s := by
  simp only [eventAlways, beside_ite, attRaise_beside, event_beside, ite_self]

@[simp] theorem keepLevel_beside (s : State) (v : Level) : beside (keepLevel s v) = beside s := rfl

@[simp] theorem postRaise_beside (s : State) (m : FltMsg) : beside (postRaise s m) = beside s := rfl

@[simp] theorem askReset_beside (s : State) (p cause : Nat) : beside (askReset s p cause) = beside s := rfl

/-- A fault leaves all that stands beside its flag, the messages, levels and the reset requests (R52, R454). -/
@[simp] theorem raiseSev_beside (s : State) (p bit : Nat) (ctx : Word) (crim : Bool) (react : Nat) :
    beside (raiseSev s p bit ctx crim react) = beside s := by
  unfold raiseSev
  extract_lets s1 k kind lv en lvl own held runs msg s2 s3
  have h1 : beside s1 = beside s := beside_setB ..
  have h2 : beside s2 = beside s := by
    show beside (if lv then _ else _) = _
    rw [beside_ite, keepLevel_beside, ite_self, h1]
  have h3 : beside s3 = beside s := by
    show beside (if en then _ else _) = _
    rw [beside_ite, postRaise_beside, ite_self, h2]
  rw [beside_ite, askReset_beside, ite_self, h3]

@[simp] theorem raise_beside (s : State) (p bit : Nat) (ctx : Word) : beside (raise s p bit ctx) = beside s :=
  raiseSev_beside s p bit ctx false 0

@[simp] theorem ceaseIf_beside (s : State) (p bit : Nat) (f : Level → Bool) : beside (ceaseIf s p bit f) = beside s := rfl

@[simp] theorem cease_beside (s : State) (p bit : Nat) : beside (cease s p bit) = beside s := rfl

@[simp] theorem ceaseAll_beside (s : State) (p : Nat) : beside (ceaseAll s p) = beside s := by
  unfold ceaseAll
  exact foldl_keeps beside (fun s b => cease s p b) (List.range 32) (fun s b _ => cease_beside s p b) s

-- Registers.

theorem reg_setCtx (s : State) (c : Nat) (f : SeqCtxSt → SeqCtxSt) (q r : Nat) : (s.setCtx c f).reg q r = s.reg q r := rfl

theorem seqF_ofs (f : Fld) (c : Nat) : (seqF f c).ofs = f.ofs + 0x20 * c := rfl

/-- A context's start writes registers of SEQ alone (Table 15.3). -/
theorem reg_seqEnter (s : State) (c q r : Nat) (hc : c < 8) (hr : r < 4096) (hq : q ≠ pgSeq) :
    (seqEnter s c).reg q r = s.reg q r := by
  have h : ∀ (s : State) (f : Fld) (v : Nat), f.ofs < 2048 → (s.setF pgSeq (seqF f c) v).reg q r = s.reg q r := by
    intro s f v hf
    exact reg_setF_apart _ _ _ _ _ _ (by rw [seqF_ofs]; omega) hr (.inl (Ne.symm hq))
  unfold seqEnter
  simp only [reg_setCtx, State.bump, State.bumpBy]
  rw [h _ _ _ (by decide), h _ _ _ (by decide), h _ _ _ (by decide), h _ _ _ (by decide), h _ _ _ (by decide)]

/-- What one context does at an occurrence writes registers of SEQ alone (R424, R427, R428). -/
theorem reg_seqSees (page bit : Nat) (en : Bool) (s : State) (c q r : Nat) (hc : c < 8) (hr : r < 4096)
    (hq : q ≠ pgSeq) : (seqSees page bit en s c).reg q r = s.reg q r := by
  have h : ∀ (s : State) (f : Fld) (v : Nat), f.ofs < 2048 → (s.setF pgSeq (seqF f c) v).reg q r = s.reg q r := by
    intro s f v hf
    exact reg_setF_apart _ _ _ _ _ _ (by rw [seqF_ofs]; omega) hr (.inl (Ne.symm hq))
  have ht : ∀ s : State, (seqTrigger s c).reg q r = s.reg q r := by
    intro s
    unfold seqTrigger
    simp only [reg_ite, reg_seqEnter _ c q r hc hr hq, State.bump, State.bumpBy, State.setB]
    rw [h _ _ _ (by decide), h _ _ _ (by decide)]
    simp
  have hl : ∀ (s : State) (b : Bool), (seqRelease s c b).reg q r = s.reg q r := by
    intro s b
    unfold seqRelease
    simp only [reg_setCtx, State.setB]
    rw [h _ _ _ (by decide), h _ _ _ (by decide)]
  unfold seqSees
  split <;> simp only [reg_ite, ht, hl, ite_self]

/-- An occurrence writes registers of SEQ alone. -/
theorem reg_seqOccur (s : State) (page bit : Nat) (en : Bool) (q r : Nat) (hr : r < 4096) (hq : q ≠ pgSeq) :
    (seqOccur s page bit en).reg q r = s.reg q r := by
  unfold seqOccur
  split
  · exact foldl_keeps (fun s => s.reg q r) _ _
      (fun s c hc => reg_seqSees page bit en s c q r (List.mem_range.mp hc) hr hq) s
  · rfl

/-- Attention writes registers of HIF alone (R445, R446). -/
theorem reg_attRaise (s : State) (att page bit sub q r : Nat) (hr : r < 4096) (hq : q ≠ pgHif) :
    (attRaise s att page bit sub).reg q r = s.reg q r := by
  have h : ∀ (s : State) (ofs n : Nat) (b : Bool), ofs < 4096 → (s.setB pgHif (Fld.bit ofs n) b).reg q r = s.reg q r := by
    intro s ofs n b ho
    exact reg_setF_apart _ _ _ _ _ _ ho hr (.inl (Ne.symm hq))
  have hd : ∀ s : State, (attDetail s page bit).reg q r = s.reg q r := by
    intro s
    show (s.setReg pgHif F.hifAttnDetail.ofs _).reg q r = _
    refine reg_setReg_ne _ _ ?_
    intro hk
    exact hq (keyOf_inj (by decide) hr hk).1.symm
  unfold attRaise
  simp only [reg_ite, hd]
  rw [h _ _ _ _ (by decide)]
  simp only [reg_ite]
  rw [h _ _ _ _ (by decide)]
  simp

/-- An event of a page writes its flag, and registers of HIF and SEQ (R58, R427, R444). -/
theorem reg_event (s : State) (p bit q r : Nat) (hr : r < 4096) (h1 : ¬ (q = p ∧ r = 0x020)) (h2 : q ≠ pgHif)
    (h3 : q ≠ pgSeq) : (event s p bit).reg q r = s.reg q r := by
  unfold event
  simp only [reg_seqOccur _ _ _ _ q r hr h3, reg_ite, reg_attRaise _ _ _ _ _ q r hr h2, ite_self]
  refine reg_setF_apart _ _ _ _ _ _ (show F.evt.ofs < 4096 by decide) hr ?_
  by_cases hp : p = q
  · exact .inr fun ho => h1 ⟨hp.symm, ho.symm⟩
  · exact .inl hp

theorem reg_keepLevel (s : State) (v : Level) (q r : Nat) : (keepLevel s v).reg q r = s.reg q r := rfl
theorem reg_postRaise (s : State) (m : FltMsg) (q r : Nat) : (postRaise s m).reg q r = s.reg q r := rfl
theorem reg_askReset (s : State) (p cause q r : Nat) : (askReset s p cause).reg q r = s.reg q r := rfl

/-- A fault writes no register but its flag's. -/
theorem reg_raiseSev (s : State) (p bit : Nat) (ctx : Word) (crim : Bool) (react q r : Nat) :
    (raiseSev s p bit ctx crim react).reg q r = (s.setB p (Fld.bit F.flt.ofs bit) true).reg q r := by
  unfold raiseSev
  extract_lets s1 k kind lv en lvl own held runs msg s2 s3
  have h2 : s2.reg q r = s1.reg q r := by
    show (if lv then _ else _ : State).reg q r = _
    rw [reg_ite, reg_keepLevel, ite_self]
  have h3 : s3.reg q r = s1.reg q r := by
    show (if en then _ else _ : State).reg q r = _
    rw [reg_ite, reg_postRaise, ite_self, h2]
  rw [reg_ite, reg_askReset, ite_self, h3]

theorem reg_raise (s : State) (p bit : Nat) (ctx : Word) (q r : Nat) :
    (raise s p bit ctx).reg q r = (s.setB p (Fld.bit F.flt.ofs bit) true).reg q r :=
  reg_raiseSev s p bit ctx false 0 q r

end Sys2Proof.Machine
end

