-- ==== Sys2Proof/Laws/Lines.lean ====
section
/-! SUPPORT. The lines of the host link: what is sent in a width is read in that width. -/

namespace Sys2Proof.Machine

theorem laneNibbles_join (b : Byte) : b.extractLsb' 4 4 ++ b.extractLsb' 0 4 = b := by
  revert b; decide +kernel

theorem laneByte_laneBits (b : Byte) : laneByte ((laneBits b).map (fun x => if x then 0xF else 0xE)) = b := by
  revert b; decide +kernel

/-- Bytes sent in a width are the bytes read in that width (R433). -/
theorem laneTake_laneSend (w : Bool) (l : List Byte) : laneTake w (laneSend w l) = l := by
  induction l with
  | nil => cases w <;> rfl
  | cons b l ih =>
    cases w with
    | true =>
      show laneTake true (laneNibbles b ++ laneSend true l) = b :: l
      simp only [laneNibbles, List.cons_append, List.nil_append, laneTake, ih, laneNibbles_join]
    | false =>
      have h := laneByte_laneBits b
      show laneTake false ((laneBits b).map (fun x => if x then 0xF else 0xE) ++ laneSend false l) = b :: l
      simp only [laneBits, List.range, List.range.loop, List.map_cons, List.map_nil] at h
      simp only [laneBits, List.range, List.range.loop, List.map_cons, List.map_nil, List.cons_append, List.nil_append,
        laneTake, ih, h]

end Sys2Proof.Machine
end

