-- ==== Sys2Proof/Laws/Memory.lean ====
section
/-! SUPPORT. Laws of memory: every operation keeps its canonical form, and a read gives what was written. -/

namespace Sys2Proof.Machine

/-- A byte written keeps memory canonical. -/
theorem Memory.wf_write {m : List Host.Cell} (a : Nat) (b : Byte) (h : Memory.wf m) : Memory.wf (Memory.write m a b) := by
  unfold Memory.write
  split
  · exact ⟨SMap.rising_del m a h.1, fun c hc => h.2 c (SMap.mem_del hc)⟩
  · rename_i hb
    refine ⟨SMap.rising_put m a b h.1, fun c hc => ?_⟩
    rcases SMap.mem_put hc with rfl | hc
    · exact hb
    · exact h.2 c hc

/-- Bytes written keep memory canonical. -/
theorem Memory.wf_writes {m : List Host.Cell} (a : Nat) (bs : List Byte) (h : Memory.wf m) :
    Memory.wf (Memory.writes m a bs) := by
  induction bs generalizing m a with
  | nil => exact h
  | cons b bs ih => exact ih (a + 1) (Memory.wf_write a b h)

/-- A part of canonical memory is canonical. -/
theorem Memory.wf_filter {m : List Host.Cell} (f : Host.Cell → Bool) (h : Memory.wf m) : Memory.wf (m.filter f) :=
  ⟨SMap.rising_filter m f h.1, fun c hc => h.2 c (List.mem_filter.mp hc).1⟩

/-- A word written keeps memory canonical. -/
theorem Memory.wf_setMemWord {s : State} (a : Nat) (w : Word) (h : Memory.wf s.mem) : Memory.wf (s.setMemWord a w).mem :=
  Memory.wf_writes a _ h

/-- Words written keep memory canonical. -/
theorem Memory.wf_setMemWords {s : State} (a : Nat) (ws : List Word) (h : Memory.wf s.mem) :
    Memory.wf (s.setMemWords a ws).mem := by
  induction ws generalizing s a with
  | nil => exact h
  | cons w ws ih => exact ih (a + 4) (Memory.wf_setMemWord a w h)

/-- A read after a byte was written. -/
theorem Memory.read_write (m : List Host.Cell) (a : Nat) (b : Byte) (a' : Nat) :
    Memory.read (Memory.write m a b) a' = if a = a' then b else Memory.read m a' := by
  unfold Memory.write Memory.read
  by_cases hb : b = 0
  · subst hb
    by_cases ha : a = a'
    · subst ha
      simp [SMap.find_del_same]
    · simp [ha, SMap.find_del_ne m ha]
  · rw [if_neg hb, SMap.find_put]
    by_cases ha : a = a' <;> simp [ha]

/-- Bytes written leave every address outside them. -/
theorem Memory.read_writes_outside (m : List Host.Cell) (a : Nat) (bs : List Byte) (a' : Nat)
    (ho : a' < a ∨ a + bs.length ≤ a') : Memory.read (Memory.writes m a bs) a' = Memory.read m a' := by
  induction bs generalizing m a with
  | nil => rfl
  | cons b bs ih =>
    have hl : (b :: bs).length = bs.length + 1 := rfl
    rw [hl] at ho
    show Memory.read (Memory.writes (Memory.write m a b) (a + 1) bs) a' = _
    rw [ih _ (a + 1) (by omega), Memory.read_write]
    have : a ≠ a' := by omega
    simp [this]

/-- A byte of what was written reads back. -/
theorem Memory.read_writes_inside (m : List Host.Cell) (a : Nat) (bs : List Byte) (i : Nat)
    (hi : i < bs.length) : Memory.read (Memory.writes m a bs) (a + i) = bs[i] := by
  induction bs generalizing m a i with
  | nil => simp at hi
  | cons b bs ih =>
    show Memory.read (Memory.writes (Memory.write m a b) (a + 1) bs) (a + i) = _
    cases i with
    | zero =>
      rw [Memory.read_writes_outside _ _ _ _ (by omega), Memory.read_write]
      simp
    | succ i =>
      have hi' : i < bs.length := by simpa using hi
      have : a + (i + 1) = a + 1 + i := by omega
      rw [this, ih _ (a + 1) i hi']
      rfl

/-- A word written reads back. -/
theorem memWord_setMemWord (s : State) (a : Nat) (w : Word) : (s.setMemWord a w).memWord a = w := by
  have r := fun (i : Nat) (hi : i < (bytesLE w).length) => Memory.read_writes_inside s.mem a (bytesLE w) i hi
  have e0 := r 0 (by simp [bytesLE])
  have e1 := r 1 (by simp [bytesLE])
  have e2 := r 2 (by simp [bytesLE])
  have e3 := r 3 (by simp [bytesLE])
  have hm : (s.setMemWord a w).mem = Memory.writes s.mem a (bytesLE w) := rfl
  unfold State.memWord
  rw [hm, e1, e2, e3]
  rw [Nat.add_zero] at e0
  rw [e0]
  simp only [bytesLE, List.getElem_cons_zero, List.getElem_cons_succ]
  ext i hi
  simp only [BitVec.getElem_append, BitVec.getElem_extractLsb']
  split
  · simp [BitVec.getLsbD_eq_getElem hi]
  · split
    · rename_i h1 h2
      have : 8 + (i - 8) = i := by omega
      simp [this, BitVec.getLsbD_eq_getElem hi]
    · split
      · rename_i h1 h2 h3
        have : 16 + (i - 8 - 8) = i := by omega
        simp [this, BitVec.getLsbD_eq_getElem hi]
      · rename_i h1 h2 h3
        have : 24 + (i - 8 - 8 - 8) = i := by omega
        simp [this, BitVec.getLsbD_eq_getElem hi]

end Sys2Proof.Machine
end

