-- ==== Sys2Proof/Laws/PerInstr.lean ====
section
/-! SUPPORT. The per-instruction family Wf: the master of a well-formed access of a register page is one from which the
register window accepts requests (R42), for every constructor of Instr. -/

namespace Sys2Proof.Laws.Wf

open Sys2Proof

/-- The master of a command that is an access of a register page in the page's own terms (R42 to R63). -/
def pageMaster : Instr → Option Master
  | .registerWrite m _ _ => some m
  | .registerReadClear m _ => some m
  | .drain m _ => some m
  | .srst m _ => some m
  | .blockEnable m _ _ => some m
  | .faultFlagClear m _ _ => some m
  | .faultForce m _ _ => some m
  | .commitRequest m _ _ => some m
  | .commitCancel m _ => some m
  | .counterClear m _ => some m
  | _ => none

/-- The master of a well-formed register page access reaches the register window. -/
def Statement (i : Instr) : Prop := i.wellFormed = true → ∀ m, pageMaster i = some m → m.reachesWindow = true

theorem tickEvent (frac : BitVec 17) : Statement (.tickEvent frac) := fun _ _ k => nomatch k
theorem localTickBoundary (p : Page) : Statement (.localTickBoundary p) := fun _ _ k => nomatch k
theorem stallWatchdogExpiry (p : Page) (u : Fin 16) (rep : CellReport) :
    Statement (.stallWatchdogExpiry p u rep) := fun _ _ k => nomatch k
theorem unitRetryLimit (p : Page) (u : Fin 16) (ctx : Word) : Statement (.unitRetryLimit p u ctx) := fun _ _ k => nomatch k
theorem blockReset (p : Page) : Statement (.blockReset p) := fun _ _ k => nomatch k
theorem blockResetDone (p : Page) : Statement (.blockResetDone p) := fun _ _ k => nomatch k
theorem subsystemWatchdogExpiry (n : Fin 16) : Statement (.subsystemWatchdogExpiry n) := fun _ _ k => nomatch k
theorem livenessToken : Statement .livenessToken := fun _ _ k => nomatch k
theorem deviceWatchdogExpiry : Statement .deviceWatchdogExpiry := fun _ _ k => nomatch k
theorem refclkLoss : Statement .refclkLoss := fun _ _ k => nomatch k
theorem registerWrite (m : Master) (addr : Word) (v : Word) :
    Statement (.registerWrite m addr v) := fun h _ k => Option.some.inj k ▸ h
theorem registerReadClear (m : Master) (addr : Word) :
    Statement (.registerReadClear m addr) := fun h _ k => Option.some.inj k ▸ h
theorem defaultTargetAccess (m : Master) (addr : Word) (be : BitVec 4) (wr : Option Word) :
    Statement (.defaultTargetAccess m addr be wr) := fun _ _ k => nomatch k
theorem drain (m : Master) (p : Page) : Statement (.drain m p) := fun h _ k => Option.some.inj k ▸ h
theorem srst (m : Master) (p : Page) : Statement (.srst m p) := fun h _ k => Option.some.inj k ▸ h
theorem blockEnable (m : Master) (p : Page) (en : Bool) :
    Statement (.blockEnable m p en) := fun h _ k => Option.some.inj k ▸ h
theorem faultFlagClear (m : Master) (p : Page) (mask : Word) :
    Statement (.faultFlagClear m p mask) := fun h _ k => Option.some.inj k ▸ h
theorem faultForce (m : Master) (p : Page) (mask : Word) :
    Statement (.faultForce m p mask) := fun h _ k => Option.some.inj k ▸ h
theorem pgTmoExpiry (p : Page) : Statement (.pgTmoExpiry p) := fun _ _ k => nomatch k
theorem commitRequest (m : Master) (p : Page) (atTick : Bool) :
    Statement (.commitRequest m p atTick) := fun h _ k => Option.some.inj k ▸ h
theorem commitCancel (m : Master) (p : Page) : Statement (.commitCancel m p) := fun h _ k => Option.some.inj k ▸ h
theorem lockGained (l : Link) : Statement (.lockGained l) := fun _ _ k => nomatch k
theorem lockLost (l : Link) (tx : Option Instant) (rx : Bool) : Statement (.lockLost l tx rx) := fun _ _ k => nomatch k
theorem holdupExpiry (l : Link) : Statement (.holdupExpiry l) := fun _ _ k => nomatch k
theorem remoteFaultTimeout (x : LinkCut) : Statement (.remoteFaultTimeout x) := fun _ _ k => nomatch k
theorem localFault (x : LinkCut) : Statement (.localFault x) := fun _ _ k => nomatch k
theorem anComplete (q : Port) : Statement (.anComplete q) := fun _ _ k => nomatch k
theorem frameReceive (l : Link) (info : RxInfo) (bytes : List Byte) :
    Statement (.frameReceive l info bytes) := fun _ _ k => nomatch k
theorem pauseTimerExpiry (q : Port) : Statement (.pauseTimerExpiry q) := fun _ _ k => nomatch k
theorem pauseRepeat (q : Port) : Statement (.pauseRepeat q) := fun _ _ k => nomatch k
theorem frameTransmit (l : Link) (inst : Instant) (deferred : Bool) (cuts : List Nat) :
    Statement (.frameTransmit l inst deferred cuts) := fun _ _ k => nomatch k
theorem launchTimeReached (q : Port) (express : Bool) : Statement (.launchTimeReached q express) := fun _ _ k => nomatch k
theorem verifyFrameSend (q : Port) : Statement (.verifyFrameSend q) := fun _ _ k => nomatch k
theorem verifyTimeout (q : Port) : Statement (.verifyTimeout q) := fun _ _ k => nomatch k
theorem recoveryWindowClose (l : Link) : Statement (.recoveryWindowClose l) := fun _ _ k => nomatch k
theorem counterClear (m : Master) (l : Link) : Statement (.counterClear m l) := fun h _ k => Option.some.inj k ▸ h
theorem rateWrite (m : Master) (v : Word) : Statement (.rateWrite m v) := fun _ _ k => nomatch k
theorem stepRequest (m : Master) (v : Word) : Statement (.stepRequest m v) := fun _ _ k => nomatch k
theorem nowRead (m : Master) : Statement (.nowRead m) := fun _ _ k => nomatch k
theorem frcRead (m : Master) : Statement (.frcRead m) := fun _ _ k => nomatch k
theorem tickTimeRead (m : Master) : Statement (.tickTimeRead m) := fun _ _ k => nomatch k
theorem ppsinRead (m : Master) : Statement (.ppsinRead m) := fun _ _ k => nomatch k
theorem txtsPop (m : Master) : Statement (.txtsPop m) := fun _ _ k => nomatch k
theorem ppsInEdge (frac : BitVec 17) : Statement (.ppsInEdge frac) := fun _ _ k => nomatch k
theorem genArm (m : Master) (n : Fin 8) (cfg : BitVec 3) : Statement (.genArm m n cfg) := fun _ _ k => nomatch k
theorem genDisarm (m : Master) (n : Fin 8) (cfg : BitVec 3) : Statement (.genDisarm m n cfg) := fun _ _ k => nomatch k
theorem pulseStart (x : PulseAt) : Statement (.pulseStart x) := fun _ _ k => nomatch k
theorem pulseEnd (x : PulseAt) : Statement (.pulseEnd x) := fun _ _ k => nomatch k
theorem marker (n : Fin 8) (ph : Int) : Statement (.marker n ph) := fun _ _ k => nomatch k
theorem markerTimeout (n : Fin 8) : Statement (.markerTimeout n) := fun _ _ k => nomatch k
theorem refsMeasurement (ofs : List Int) (freq : Int) : Statement (.refsMeasurement ofs freq) := fun _ _ k => nomatch k
theorem candidatePrioWrite (m : Master) (n : Fin 8) (prio : BitVec 4) :
    Statement (.candidatePrioWrite m n prio) := fun _ _ k => nomatch k
theorem ptpValid (m : Master) (valid : Bool) : Statement (.ptpValid m valid) := fun _ _ k => nomatch k
theorem ptpKeepalive (m : Master) : Statement (.ptpKeepalive m) := fun _ _ k => nomatch k
theorem ptpTimeout : Statement .ptpTimeout := fun _ _ k => nomatch k
theorem dpllLock : Statement .dpllLock := fun _ _ k => nomatch k
theorem dpllUnlock : Statement .dpllUnlock := fun _ _ k => nomatch k
theorem phstepRequest (m : Master) (v : Word) : Statement (.phstepRequest m v) := fun _ _ k => nomatch k
theorem realignOutputs (m : Master) : Statement (.realignOutputs m) := fun _ _ k => nomatch k
theorem numberLoad (m : Master) : Statement (.numberLoad m) := fun _ _ k => nomatch k
theorem tickOffsetWrite (m : Master) (v : Word) : Statement (.tickOffsetWrite m v) := fun _ _ k => nomatch k
theorem tickRead (m : Master) : Statement (.tickRead m) := fun _ _ k => nomatch k
theorem headerComplete (q : Port) (bytes : List Byte) : Statement (.headerComplete q bytes) := fun _ _ k => nomatch k
theorem channelHandoff (q : Port) (bytes : List Byte) : Statement (.channelHandoff q bytes) := fun _ _ k => nomatch k
theorem predictionDeadline (c : CtxIx) : Statement (.predictionDeadline c) := fun _ _ k => nomatch k
theorem commitDeadline (c : CtxIx) : Statement (.commitDeadline c) := fun _ _ k => nomatch k
theorem contextEnable (m : Master) (egress : Bool) (c : CtxIx) (v : Word) :
    Statement (.contextEnable m egress c v) := fun _ _ k => nomatch k
theorem contextKindWrite (m : Master) (egress : Bool) (c : CtxIx) (v : Word) :
    Statement (.contextKindWrite m egress c v) := fun _ _ k => nomatch k
theorem segmentSend (c : CtxIx) (seg : Fin 4) : Statement (.segmentSend c seg) := fun _ _ k => nomatch k
theorem speculativeSegmentStart (c : CtxIx) (seg : Fin 4) :
    Statement (.speculativeSegmentStart c seg) := fun _ _ k => nomatch k
theorem segmentResend (c : CtxIx) (seg : Fin 4) : Statement (.segmentResend c seg) := fun _ _ k => nomatch k
theorem correctionSend (c : CtxIx) : Statement (.correctionSend c) := fun _ _ k => nomatch k
theorem aes67PacketSend (c : CtxIx) : Statement (.aes67PacketSend c) := fun _ _ k => nomatch k
theorem rerunStart : Statement .rerunStart := fun _ _ k => nomatch k
theorem rerunDone : Statement .rerunDone := fun _ _ k => nomatch k
theorem safHoldExpiry (c : CtxIx) : Statement (.safHoldExpiry c) := fun _ _ k => nomatch k
theorem safEnd (m : Master) (c : CtxIx) : Statement (.safEnd m c) := fun _ _ k => nomatch k
theorem coneTableReady : Statement .coneTableReady := fun _ _ k => nomatch k
theorem taskStart (t : TileIx) : Statement (.taskStart t) := fun _ _ k => nomatch k
theorem taskFinish (t : TileIx) (r : TaskRun) : Statement (.taskFinish t r) := fun _ _ k => nomatch k
theorem ringDelivery (t : TileIx) : Statement (.ringDelivery t) := fun _ _ k => nomatch k
theorem imageCheck (m : Master) : Statement (.imageCheck m) := fun _ _ k => nomatch k
theorem imageCheckDone : Statement .imageCheckDone := fun _ _ k => nomatch k
theorem imageBaseWrite (m : Master) (v : Word) : Statement (.imageBaseWrite m v) := fun _ _ k => nomatch k
theorem preloadDone : Statement .preloadDone := fun _ _ k => nomatch k
theorem tileBistStart (m : Master) (t : TileIx) (mode : BitVec 2) :
    Statement (.tileBistStart m t mode) := fun _ _ k => nomatch k
theorem tileBistDone (t : TileIx) (fail : Bool) : Statement (.tileBistDone t fail) := fun _ _ k => nomatch k
theorem tdmFrameReceive (n : Fin 16) (wire : SerialFrame) : Statement (.tdmFrameReceive n wire) := fun _ _ k => nomatch k
theorem misplacedFrameStart (n : Fin 16) : Statement (.misplacedFrameStart n) := fun _ _ k => nomatch k
theorem tdmClockLoss (n : Fin 16) : Statement (.tdmClockLoss n) := fun _ _ k => nomatch k
theorem tdmFrameTransmit (x : TdmStart) : Statement (.tdmFrameTransmit x) := fun _ _ k => nomatch k
theorem aes3Subframe (n : Fin 4) (pre : Preamble) (bits : BitVec 28) (biphase : Bool) :
    Statement (.aes3Subframe n pre bits biphase) := fun _ _ k => nomatch k
theorem aes3Lock (n : Fin 4) (hz : BitVec 18) : Statement (.aes3Lock n hz) := fun _ _ k => nomatch k
theorem aes3LockLoss (n : Fin 4) : Statement (.aes3LockLoss n) := fun _ _ k => nomatch k
theorem aes3FrameTransmit (x : AesStart) : Statement (.aes3FrameTransmit x) := fun _ _ k => nomatch k
theorem asrcEnable (m : Master) (ch : Fin 64) (v : Word) : Statement (.asrcEnable m ch v) := fun _ _ k => nomatch k
theorem asrcSettled (ch : Fin 64) (ratio : BitVec 24) : Statement (.asrcSettled ch ratio) := fun _ _ k => nomatch k
theorem asrcSourceLoss (ch : Fin 64) : Statement (.asrcSourceLoss ch) := fun _ _ k => nomatch k
theorem carrierPeriod (ch : Fin 16) (k : Fin 24) : Statement (.carrierPeriod ch k) := fun _ _ k => nomatch k
theorem overcurrentTrip (oc : OcPin) : Statement (.overcurrentTrip oc) := fun _ _ k => nomatch k
theorem boostHoldExpiry (g : Fin 4) : Statement (.boostHoldExpiry g) := fun _ _ k => nomatch k
theorem retryExpiry (ch : Fin 16) : Statement (.retryExpiry ch) := fun _ _ k => nomatch k
theorem prechargeDone (ch : Fin 16) : Statement (.prechargeDone ch) := fun _ _ k => nomatch k
theorem tripCountClear (ch : Fin 16) : Statement (.tripCountClear ch) := fun _ _ k => nomatch k
theorem unlatch (m : Master) (ch : Fin 16) : Statement (.unlatch m ch) := fun _ _ k => nomatch k
theorem safePinAssert : Statement .safePinAssert := fun _ _ k => nomatch k
theorem safePinRelease : Statement .safePinRelease := fun _ _ k => nomatch k
theorem dcWindow (ch : Fin 16) : Statement (.dcWindow ch) := fun _ _ k => nomatch k
theorem boostPeriod (g : Fin 4) (k : Fin 24) : Statement (.boostPeriod g k) := fun _ _ k => nomatch k
theorem boostIlim (g : Fin 4) : Statement (.boostIlim g) := fun _ _ k => nomatch k
theorem boostOvpPin (g : Fin 4) (low : Bool) : Statement (.boostOvpPin g low) := fun _ _ k => nomatch k
theorem senseTimeout (g : Fin 4) : Statement (.senseTimeout g) := fun _ _ k => nomatch k
theorem thermalClear (g : Fin 4) : Statement (.thermalClear g) := fun _ _ k => nomatch k
theorem senseFrame (g : Fin 4) (wire : SerialFrame) : Statement (.senseFrame g wire) := fun _ _ k => nomatch k
theorem senseClockLoss (g : Fin 4) : Statement (.senseClockLoss g) := fun _ _ k => nomatch k
theorem senseCountCheck (g : Fin 4) : Statement (.senseCountCheck g) := fun _ _ k => nomatch k
theorem exposureSecond (e : Fin 8) : Statement (.exposureSecond e) := fun _ _ k => nomatch k
theorem captureGo (m : Master) (v : Word) : Statement (.captureGo m v) := fun _ _ k => nomatch k
theorem captureStop (m : Master) : Statement (.captureStop m) := fun _ _ k => nomatch k
theorem sweepGo (m : Master) (mask : BitVec 16) : Statement (.sweepGo m mask) := fun _ _ k => nomatch k
theorem sweepStepEnd : Statement .sweepStepEnd := fun _ _ k => nomatch k
theorem sweepAbort (m : Master) (mask : BitVec 16) : Statement (.sweepAbort m mask) := fun _ _ k => nomatch k
theorem pilotWindow (ch : Fin 16) : Statement (.pilotWindow ch) := fun _ _ k => nomatch k
theorem pilotCapture (m : Master) : Statement (.pilotCapture m) := fun _ _ k => nomatch k
theorem queuePush (m : Master) (last : Bool) (w : Word) : Statement (.queuePush m last w) := fun _ _ k => nomatch k
theorem pushAbort (m : Master) : Statement (.pushAbort m) := fun _ _ k => nomatch k
theorem itemTimeout (m : Master) : Statement (.itemTimeout m) := fun _ _ k => nomatch k
theorem queuePop (m : Master) : Statement (.queuePop m) := fun _ _ k => nomatch k
theorem stallTimeout (m : Master) : Statement (.stallTimeout m) := fun _ _ k => nomatch k
theorem heldItemTimeout (q : QueueIx) : Statement (.heldItemTimeout q) := fun _ _ k => nomatch k
theorem queueEnable (m : Master) (q : QueueIx) (v : Word) : Statement (.queueEnable m q v) := fun _ _ k => nomatch k
theorem flushRequest (m : Master) (q : QueueIx) : Statement (.flushRequest m q) := fun _ _ k => nomatch k
theorem linkEccError (q : Option QueueIx) (uncorr : Bool) (lost : Nat) :
    Statement (.linkEccError q uncorr lost) := fun _ _ k => nomatch k
theorem transactionResponse (x : Txn) : Statement (.transactionResponse x) := fun _ _ k => nomatch k
theorem eccWriteBack (b : Bank) : Statement (.eccWriteBack b) := fun _ _ k => nomatch k
theorem scrubStep (x : ScrubRead) : Statement (.scrubStep x) := fun _ _ k => nomatch k
theorem bistWindowPhase (b : Bank) (bad : Option (Fin 256)) : Statement (.bistWindowPhase b bad) := fun _ _ k => nomatch k
theorem bankInitDone (b : Bank) : Statement (.bankInitDone b) := fun _ _ k => nomatch k
theorem wipe (m : Master) : Statement (.wipe m) := fun _ _ k => nomatch k
theorem wipeDone : Statement .wipeDone := fun _ _ k => nomatch k
theorem transactionTimeout (m : Master) : Statement (.transactionTimeout m) := fun _ _ k => nomatch k
theorem lockBreak (m : Master) (tgt : Fin 16) : Statement (.lockBreak m tgt) := fun _ _ k => nomatch k
theorem nop (c : SeqCtx) : Statement (.nop c) := fun _ _ k => nomatch k
theorem wr (c : SeqCtx) : Statement (.wr c) := fun _ _ k => nomatch k
theorem rmw (c : SeqCtx) : Statement (.rmw c) := fun _ _ k => nomatch k
theorem waitTick (c : SeqCtx) : Statement (.waitTick c) := fun _ _ k => nomatch k
theorem waitAt (c : SeqCtx) : Statement (.waitAt c) := fun _ _ k => nomatch k
theorem waitEvt (c : SeqCtx) : Statement (.waitEvt c) := fun _ _ k => nomatch k
theorem ifEq (c : SeqCtx) : Statement (.ifEq c) := fun _ _ k => nomatch k
theorem jmp (c : SeqCtx) : Statement (.jmp c) := fun _ _ k => nomatch k
theorem call (c : SeqCtx) : Statement (.call c) := fun _ _ k => nomatch k
theorem ret (c : SeqCtx) : Statement (.ret c) := fun _ _ k => nomatch k
theorem signal (c : SeqCtx) : Statement (.signal c) := fun _ _ k => nomatch k
theorem commit (c : SeqCtx) : Statement (.commit c) := fun _ _ k => nomatch k
theorem endList (c : SeqCtx) : Statement (.endList c) := fun _ _ k => nomatch k
theorem actionReply (c : SeqCtx) : Statement (.actionReply c) := fun _ _ k => nomatch k
theorem waitTickRelease (c : SeqCtx) : Statement (.waitTickRelease c) := fun _ _ k => nomatch k
theorem waitAtRelease (c : SeqCtx) : Statement (.waitAtRelease c) := fun _ _ k => nomatch k
theorem waitEvtTimeout (c : SeqCtx) : Statement (.waitEvtTimeout c) := fun _ _ k => nomatch k
theorem contextStart (m : Master) (c : SeqCtx) : Statement (.contextStart m c) := fun _ _ k => nomatch k
theorem contextStop (m : Master) (c : SeqCtx) : Statement (.contextStop m c) := fun _ _ k => nomatch k
theorem contextWatchdog (c : SeqCtx) : Statement (.contextWatchdog c) := fun _ _ k => nomatch k
theorem read (f : HostFrame) : Statement (.read f) := fun _ _ k => nomatch k
theorem write (f : HostFrame) : Statement (.write f) := fun _ _ k => nomatch k
theorem statusPoll (f : HostFrame) : Statement (.statusPoll f) := fun _ _ k => nomatch k
theorem burstRead (f : HostFrame) : Statement (.burstRead f) := fun _ _ k => nomatch k
theorem burstWrite (f : HostFrame) : Statement (.burstWrite f) := fun _ _ k => nomatch k
theorem unknownCommand (cmd : Byte) (f : HostFrame) : Statement (.unknownCommand cmd f) := fun _ _ k => nomatch k
theorem frameAbort : Statement .frameAbort := fun _ _ k => nomatch k
theorem frameTimeout : Statement .frameTimeout := fun _ _ k => nomatch k
theorem deferredComplete : Statement .deferredComplete := fun _ _ k => nomatch k
theorem holdTimeout : Statement .holdTimeout := fun _ _ k => nomatch k
theorem attnClear (m : Master) (sub : Bool) (mask : Word) : Statement (.attnClear m sub mask) := fun _ _ k => nomatch k
theorem networkRequest (q : Port) (src : BitVec 48) (header : List Byte) (payload : List Byte) (tail : List Byte) :
    Statement (.networkRequest q src header payload tail) := fun _ _ k => nomatch k
theorem networkRequestRun : Statement .networkRequestRun := fun _ _ k => nomatch k
theorem faultMessageAccept : Statement .faultMessageAccept := fun _ _ k => nomatch k
theorem cease : Statement .cease := fun _ _ k => nomatch k
theorem shadowEnd : Statement .shadowEnd := fun _ _ k => nomatch k
theorem recordPop (m : Master) : Statement (.recordPop m) := fun _ _ k => nomatch k
theorem clearAll (m : Master) : Statement (.clearAll m) := fun _ _ k => nomatch k
theorem firstClr (m : Master) : Statement (.firstClr m) := fun _ _ k => nomatch k
theorem outRelease (m : Master) : Statement (.outRelease m) := fun _ _ k => nomatch k
theorem outSet (m : Master) : Statement (.outSet m) := fun _ _ k => nomatch k
theorem drvRelease (m : Master) (mask : BitVec 16) : Statement (.drvRelease m mask) := fun _ _ k => nomatch k
theorem deviceResetAssert : Statement .deviceResetAssert := fun _ _ k => nomatch k
theorem heartbeatSend : Statement .heartbeatSend := fun _ _ k => nomatch k
theorem heartbeatReceive (bytes : List Byte) : Statement (.heartbeatReceive bytes) := fun _ _ k => nomatch k
theorem heartbeatMiss : Statement .heartbeatMiss := fun _ _ k => nomatch k
theorem healthSend : Statement .healthSend := fun _ _ k => nomatch k
theorem healthReceive (bytes : List Byte) : Statement (.healthReceive bytes) := fun _ _ k => nomatch k
theorem sequenceMapSend : Statement .sequenceMapSend := fun _ _ k => nomatch k
theorem listenExpiry : Statement .listenExpiry := fun _ _ k => nomatch k
theorem promote (m : Master) : Statement (.promote m) := fun _ _ k => nomatch k
theorem handover (m : Master) : Statement (.handover m) := fun _ _ k => nomatch k
theorem rejoin (m : Master) : Statement (.rejoin m) := fun _ _ k => nomatch k
theorem releasingEnd : Statement .releasingEnd := fun _ _ k => nomatch k
theorem verdictDone : Statement .verdictDone := fun _ _ k => nomatch k
theorem verdictTimeout : Statement .verdictTimeout := fun _ _ k => nomatch k
theorem vauxApply : Statement .vauxApply := fun _ _ k => nomatch k
theorem supplyOutOfRange (rail : Supply) : Statement (.supplyOutOfRange rail) := fun _ _ k => nomatch k
theorem resetAssert : Statement .resetAssert := fun _ _ k => nomatch k
theorem startUp (mode : BitVec 3) (rolePref : Bool) (fuses : Option LifeCycle) :
    Statement (.startUp mode rolePref fuses) := fun _ _ k => nomatch k
theorem pllLock : Statement .pllLock := fun _ _ k => nomatch k
theorem deviceReady (bistFail : BitVec 48) : Statement (.deviceReady bistFail) := fun _ _ k => nomatch k
theorem devRun (m : Master) : Statement (.devRun m) := fun _ _ k => nomatch k
theorem swrst (m : Master) (key : BitVec 16) : Statement (.swrst m key) := fun _ _ k => nomatch k
theorem freezePin : Statement .freezePin := fun _ _ k => nomatch k
theorem freezeRequest (m : Master) : Statement (.freezeRequest m) := fun _ _ k => nomatch k
theorem freezeStop : Statement .freezeStop := fun _ _ k => nomatch k
theorem thaw (m : Master) (pinLow : Bool) : Statement (.thaw m pinLow) := fun _ _ k => nomatch k
theorem snapDataRead (m : Master) : Statement (.snapDataRead m) := fun _ _ k => nomatch k
theorem dbgAccess (op : BitVec 4) (addr : Word) (data : Word) :
    Statement (.dbgAccess op addr data) := fun _ _ k => nomatch k
theorem extest : Statement .extest := fun _ _ k => nomatch k
theorem samplePreload : Statement .samplePreload := fun _ _ k => nomatch k
theorem idcode : Statement .idcode := fun _ _ k => nomatch k
theorem bypass : Statement .bypass := fun _ _ k => nomatch k
theorem tapReset : Statement .tapReset := fun _ _ k => nomatch k
theorem lcArm (m : Master) (v : Word) : Statement (.lcArm m v) := fun _ _ k => nomatch k
theorem lcArmLapse : Statement .lcArmLapse := fun _ _ k => nomatch k
theorem lcGo (m : Master) : Statement (.lcGo m) := fun _ _ k => nomatch k
theorem lcDone : Statement .lcDone := fun _ _ k => nomatch k
theorem tamperAssert (pin : Fin 2) : Statement (.tamperAssert pin) := fun _ _ k => nomatch k
theorem tamperRelease : Statement .tamperRelease := fun _ _ k => nomatch k
theorem pllLockLoss (pll : Pll) : Statement (.pllLockLoss pll) := fun _ _ k => nomatch k
theorem vauxRemove : Statement .vauxRemove := fun _ _ k => nomatch k
theorem sealDone : Statement .sealDone := fun _ _ k => nomatch k
theorem senseMisplacedFrameStart (g : Fin 4) : Statement (.senseMisplacedFrameStart g) := fun _ _ k => nomatch k
theorem localFaultClear (l : Link) : Statement (.localFaultClear l) := fun _ _ k => nomatch k
theorem remoteFaultReceived (l : Link) : Statement (.remoteFaultReceived l) := fun _ _ k => nomatch k
theorem anRestart (q : Port) : Statement (.anRestart q) := fun _ _ k => nomatch k

end Sys2Proof.Laws.Wf

theorem Sys2Proof.Laws.Wf.seal (m : Sys2Proof.Master) : Sys2Proof.Laws.Wf.Statement (.seal m) := fun _ _ k => nomatch k
end

