-- ==== Sys2Proof/Tests/Slice0.lean ====
section
/-! SUPPORT. Tests: an ill-formed command for each check of Instr.wellFormed, single commands whose results the spec gives,
and one witness theorem per statement with hypotheses: states and operands that meet them. -/

namespace Sys2Proof.Tests

open Sys2Proof Sys2Proof.Machine Sys2Proof.Safety

set_option maxRecDepth 100000
set_option Elab.async false

/-- The device in RUN. -/
def base : State := State.reset.setF pgDev F.devStateState 3
/-- A block that runs. -/
def runs (p : Nat) (s : State) : State := (s.setF p F.ctrlEn 1).setF p F.statRun 1
/-- Tick 5 has begun at HIF and not at CLK; a live field of CLK waits. -/
def ticking : State :=
  { (base.setReg pgClk 0x01C 0x01000064) with
    time := { ticking := true, tick := 5 }, arch := { began := [(pgHif, 5), (pgClk, 4)] }, held := [(keyOf pgClk 0x01C, 0)] }
/-- A block that resets. -/
def inReset (p : Nat) (s : State) : State := (s.setF p F.ctrlEn 1).setF p F.statResetting 1
/-- A link whose page runs, in a state of Table 3.2. -/
def link (l st : Nat) (s : State) : State :=
  ((runs (pgLink l) s).setF (pgLink l) F.macLinkState st).setPort l (fun x => { x with lock := st != 0 })
/-- QMG runs, with a queue that is on and holds items, in cells of B3 from cell 0 on. -/
def queued (q : Nat) (items : List (List Word)) (s : State) : State :=
  let cells := fun k => (List.range (cellsOf (items.getD k []).length)).map (· + ((items.take k).map (fun i => cellsOf i.length)).sum)
  let s := (List.range items.length).foldl (fun s k => storeWords s (cells k) 0 (items.getD k [])) s
  (qdSet (runs pgQmg s) q F.qdescW0En 1).setQueue q (fun x =>
    { x with items := (List.range items.length).map (fun k => { words := (items.getD k []).length, cells := cells k }) })
/-- A PAUSE frame of 7 quanta. -/
def pauseBytes : List Byte :=
  sealFrame ([0x01, 0x80, 0xC2, 0, 0, 0x01, 2, 0, 0, 0, 0, 1, 0x88, 0x08, 0, 1, 0, 7] ++ List.replicate 42 0)
/-- A frame received whole. -/
def whole : RxInfo := { pcsErr := false, smdErr := false, asmErr := false, frags := 1, mpkt := 0, crossing := ⟨0, 0⟩, bitErrs := 0 }
/-- A generator of TPG in a given state, its pulse width set. -/
def generator (n : Nat) (g : GenSt) : State :=
  ((runs pgTpg base).setF pgTpg (F.tpgGenWidthWidth.at 0x20 n) 100).setGen n (fun _ => g)
/-- REFS runs; candidate n is in a state of Table 5.2, the DPLL in a state of Table 5.3 with candidate `sel` selected. -/
def refs (n st d sel : Nat) : State :=
  ((((runs pgRefs base).setF pgRefs (candF F.refsCandStatState n) st).setF pgRefs (candF F.refsCandCfgPrio n) 3).setF
    pgRefs F.refsStatDpll d).setF pgRefs F.refsStatSel sel
/-- A list of a tile. -/
def tileOf (l : List Task) : TileSt := { tasks := l.map (fun k => { task := k }) }
/-- Ingress context 0 in RUN on port 0: two channels of two samples a tick, in cut-through; a CONCEAL task for each of its
strips on tile 0; tick 5 is in progress. -/
def streaming : State :=
  let s := runs pgStrg (runs pgSpx (runs pgLatg (runs (pgTile 0) (link 0 2 base))))
  let s := ingSet (ingSet (ingSet (ingSet s 0 F.ing0W0AshIn 1) 0 F.ing0W0PortMask 1) 0 F.ing0W0SrcNode 3) 0 F.ing0W0SrcStream 9
  let s := ingSet (ingSet (ingSet (ingSet s 0 F.ing0W1Domain 0) 0 F.ing0W1Channels 2) 0 F.ing0W2En 1) 0 F.ing0W2Cdl 100
  let s := (s.setF pgSpx F.spxCfgCutEn 1).setF pgSpx F.spxCfgPredEn 1
  let arch := { s.arch with began := [(pgStrg, 5), (pgSpx, 5), (pgLatg, 5)] }
  let strm := { s.strm with ing := [(0, { accepted := true, state := 2 })], ledger := [(0, 100)] }
  { s with arch, strm, lat.tiles := [(0, tileOf [{ kind := kConceal, object := 0 }, { kind := kConceal, object := 1 }])] }
/-- Change context 0. -/
def ctx0 (f : IngSt → IngSt) (s : State) : State := s.setIng 0 f
/-- The header of a MEDIA frame of that stream for a tick. -/
def mediaHdr (tick : Nat) : AuxHdr :=
  { type := tMedia, node := 3, stream := 9, seq := 1, tick := tick, chanCount := 2, chans := 2, payLen := 12 }
/-- A frame of that stream as far as it has come. -/
def mediaBytes (h : AuxHdr) (got : Nat) : List Byte :=
  [2, 0, 0, 0, 0, 1, 2, 0, 0, 0, 0, 2, 0x88, 0xB5] ++ auxBytes h ++ (List.range got).map (BitVec.ofNat 8)
/-- Egress context 0 of kind 0 on port 0, two channels, with a segment. -/
def sending (e : EgrSeg) : State :=
  let s := egrSet (egrSet streaming 0 F.egr0W0PortMask 1) 0 F.egr0W2Channels 2
  let out := fun k => (k, [({ tick := 4, data := [1, 2, 3, 4] } : OutBlk)])
  { s with strm := { s.strm with egr := [(0, { accepted := true, segs := [e] })] },
           lat := { s.lat with past := [out 0, out 1], outs := [(0, { tick := 5, data := [3, 4, 5, 6] })] } }
/-- Tile 0 in tick 5 with one OUTSTRIP task that posts barrier 3, its input block in slot 0. -/
def tiling (b : Blk) : State :=
  let s := runs pgLatg (runs (pgTile 0) base)
  let k : Task := { kind := kOutstrip, object := 7, inCount := 1, postBar := 3, budget := 100 }
  { s with lat := { s.lat with tiles := [(0, { tileOf [k] with begun := true, tick := 5, store := [(0, b)] })] } }
/-- TDM0 runs with 32-bit slots, slots 0 and 1 enabled on both sides, in states of Tables 10.2 and 10.3. -/
def tdm (rx tx : Nat) (f : AudSt → AudSt) : State :=
  let p := pgTdm 0
  let s := ((runs p base).setF p F.tdmCfgWidth 2).setF p F.tdmCfgMaster 0
  let s := ((s.setF p F.tdmRxRxEn 1).setF p F.tdmRxMaskSlots 3).setF p F.tdmTxTxEn 1
  ((s.setF p F.tdmStatRxState rx).setF p F.tdmStatTxState tx).setAud p f
/-- AES3 receiver 0 runs, its state, lock and subframes given. -/
def aesi (st : Nat) (lock : Bool) (f : AudSt → AudSt) : State :=
  let p := pgAesi 0
  let s := (((runs p base).setF p F.aesiCfgAEn 1).setF p F.aesiCfgBEn 1).setF p F.aesiStatState st
  (s.setB p F.aesiStatLock lock).setAud p f
/-- A bit clock with a level of data and of frame sync at both edges. -/
def sbit (d f : Bool) : SerialBit := ⟨d, d, f, f⟩
/-- A frame of n bit clocks, its sync one bit clock long. -/
def wire (n : Nat) : SerialFrame := { before := sbit true false, bits := (List.range n).map (fun k => sbit (k % 3 == 0) (k == 0)) }
/-- ASRC runs with channel 0 of TDM0 enabled, in a state of Table 10.4. -/
def asrcing (st : Nat) : State :=
  (((runs pgAsrc (tdm 3 3 id)).setF pgAsrc F.asrcChEnEn 1).setF pgAsrc F.asrcChStatState st).setF (pgTdm 0) F.tdmCfgAsrc 1
/-- Drive channel 0 runs in a state of Table 11.2. -/
def drive (st : Nat) (f : DrvSt → DrvSt) : State :=
  { ((runs (pgDrv 0) base).setF (pgDrv 0) F.drvStatState st) with power.drv := [(0, f {})] }
/-- The boost controller of group 0 runs in a state of Table 11.3. -/
def boost (st : Nat) (f : BstSt → BstSt) : State :=
  { ((runs (pgBst 0) base).setF (pgBst 0) F.bstStatState st) with power.bst := [(0, f {})] }
/-- A sense port runs in a state of Table 12.1. -/
def sense (st : Nat) (f : SnsSt → SnsSt) : State :=
  { ((runs (pgSns 0) base).setF (pgSns 0) F.snsStatState st) with meas.sns := [(0, f {})] }
/-- MEA runs at a tick, with an exposure meter in a state. -/
def meters (tick : Nat) (x : ExpSt) : State :=
  let s := runs pgMea base
  { s with time := { s.time with tick := tick }, meas.exps := [(0, x)] }
/-- MEA runs with a tap, and a capture in a mode. -/
def capturing (busy : Bool) (mode post : Nat) : State :=
  ((((meters 5 {}).setF pgMea (F.meaTapEn.at 4 0) 1).setB pgMea F.meaCapStatBusy busy).setF pgMea F.meaCapCtrlMode mode).setF pgMea
    F.meaCapPostTicks post
/-- DIAG runs, with a sweep of steps at a position. -/
def diagnosing (steps : List Nat) (pos : Nat) (chans : SMap DiagChan) : State :=
  { ((runs pgDiag base).setB pgDiag F.diagStatBusy (steps != [])) with
    meas.diag := { steps := steps, pos := pos, mask := 3, chans := chans } }
/-- DIAG runs with a pilot on drive channel 0, which runs. -/
def piloting (x : DiagChan) (seen : SMap Nat) (cap : Nat) : State :=
  { ((runs pgDiag (drive 3 id)).setF pgDiag F.diagPilotEnMask 1) with
    meas.diag := { pilots := [(0, x)], seen := seen, capture := cap } }
/-- A queue that is on, with a limit and a mode of an empty read. -/
def served (items : List (List Word)) (limit mode : Nat) (f : PortQ → PortQ) : State :=
  (qdSet (qdSet (queued 0 items base) 0 F.qdescW1Limit limit) 0 F.qdescW1EmptyMode mode).setQport 0 f
/-- A bank with a test phase and window. -/
def testing (b phase win : Nat) : State := (base.setF (pgMem b) F.memStatBistPhase phase).setF (pgMem b) F.memBistWinOfs win
/-- A device in PROVISIONED or DEPLOYED. -/
def owned (lc : Nat) (s : State) : State := s.setF pgDev F.devLcState lc
/-- Every bank is filled. -/
def filled (s : State) : State := (List.range 8).foldl (fun s b => s.setF (pgMem b) F.memStatInitDone 1) s
/-- SEQ's context 0 in a state, with an action at its PC and the word after it. -/
def acting (st op f a : Nat) (b b2 : Word) (f' : SeqCtxSt → SeqCtxSt) : State :=
  (((((runs pgSeq (filled base)).setF pgSeq (seqF F.seqCtxStatState 0) st).setF pgSeq (seqF F.seqCtxCtrlEn 0) 1).setMemWord 0x08000004
    (w32 (op * 2 ^ 26 + f * 2 ^ 24 + a))).setMemWord 0x08000000 b).setMemWord 0x08000008 b2 |>.setCtx 0 f'
/-- No context of such a state holds a lock. -/
theorem acting_unlocked (st op f a : Nat) (b b2 : Word) (d : Nat) : ((acting st op f a b b2 id).ctx d).locked = [] := by
  by_cases h : d = 0
  · subst h; simp [acting, State.setCtx, State.ctx]; rfl
  · simp only [acting, State.setCtx, State.ctx, SMap.get_put_ne _ _ _ (Ne.symm h)]; rfl
/-- A frame of a command, its CRC-16 in order. -/
def hframe (cmd : Nat) (addr : Word) (len : Byte) (data : List Word) (late : Bool) : HostFrame :=
  let f : HostFrame := { addr := addr, len := len, data := data, crc := 0, late := late }
  { f with crc := crc16 (frameBytes cmd f) }
/-- FLT runs with messages, records and shadows. -/
def faulted (msgs : List FltMsg) (recs : List FltRec) (shadows : List Shadow) : State :=
  { runs pgFlt base with flt := { msgs := msgs, recs := recs, shadows := shadows } }
/-- RED runs in a state of Table 18.4, as does PLK, in a tick. -/
def paired (st tick : Nat) (f : RedSt → RedSt) : State :=
  let s := link 4 2 ((runs pgRed base).setF pgRed F.redStatState st)
  { s with red := f s.red, arch.began := [(pgRed, tick)] }
/-- A frame of the pair with a type, a claim and the word HI of its header. -/
def pairFrame (type : Nat) (claim hi : Word) (n : Nat) : List Byte :=
  [2, 0, 0, 0, 0, 1, 2, 0, 0, 0, 0, 2, 0x88, 0xB5]
    ++ auxBody { type := type, seq := 1, tick := 3, claim := claim, hi := hi } ((List.range n).map (BitVec.ofNat 8)) 1 0
/-- The device in a phase and a state of Table 20.2. -/
def phased (ph : Phase) (n : Nat) : State :=
  let s := State.reset.setF pgDev F.devStateState n
  { s with dev := { s.dev with phase := ph } }
/-- A queue item that is a PAUSE-sized frame. -/
def launchItem : List Word := [0x00040000#32 + 60, 0, 0] ++ List.replicate 15 0
/-- The stream of `streaming`. -/
def s0 : State := streaming
/-- A segment expected in tick 5. -/
def seg1 : SegSt := { due := 5, seq := 1, key := 0, chans := [0, 1], open_ := true }
/-- An AES67 egress context. -/
def egr1 : State :=
  let s := egrSet (egrSet streaming 0 F.egr0W0Kind 1) 0 F.egr1W0PortMask 1
  { s with strm := { s.strm with egr := [(0, { accepted := true, packet := 0 })] },
           flt := { s.flt with safeOut := true }, arch := { s.arch with began := [(pgStrg, 50), (pgLatg, 50)] } }
/-- Tile 0 with a final block. -/
def t0 : State := tiling { tick := 5, st := .ivory, data := [100, 200, 300, 400] }
/-- Tile 0 with its task under way. -/
def busyT : State := t0.setTile 0 (fun x => { x with cur := some 0 })
/-- A full receive FIFO. -/
def full : List (List Int) := List.replicate 32 [1, 2]
/-- A channel of DIAG with n samples summed. -/
def fullc (n : Nat) : DiagChan :=
  { n := n, sv := 1000000, si := 90000, vr := 2 ^ 60, ir := 2 ^ 56, vi := 3, ii := 2 ^ 55, ticks := 0x80000 }
/-- Scales of the sense port of group 0. -/
def scal (s : State) : State := (s.setF (pgSns 0) F.snsScaleVlUv 200).setF (pgSns 0) F.snsScaleIlUa 100
/-- Queue 0 with a limit, a mode of an empty read and a stall time-out. -/
def cfgd (lim mode tmo : Nat) (s : State) : State :=
  qdSet (qdSet (qdSet s 0 F.qdescW1Limit lim) 0 F.qdescW1EmptyMode mode) 0 F.qdescW2StallTmo tmo
/-- Change the memory part. -/
def mxs (f : MemSt → MemSt) (s : State) : State := { s with mx := f s.mx }
/-- One damaged word. -/
def some1 : List Nat := [bankBase 1]
/-- The device with every bank filled. -/
def base1 : State := (List.range 8).foldl (fun s b => s.setF (pgMem b) F.memStatInitDone 1) base
/-- A context with a bus action under way. -/
def tx (z : SeqTxn) : SeqCtxSt → SeqCtxSt := fun x => { x with txn := some z }
/-- A context that waits. -/
def wt (w : SeqWait) : SeqCtxSt → SeqCtxSt := fun x => { x with wait := w }
/-- A deferred read and a deferred write of two words. -/
def rd2 : HostCmd := cmdOf 0x0B (hframe 0x0B 0x05000000 1 [] true)
/-- A deferred write of two words. -/
def wr2 : HostCmd := cmdOf 0x02 (hframe 0x02 0x05000000 1 [3, 4] true)
/-- The device with every bank filled. -/
def fb : State := filled base
/-- The key store usable and network access enabled. -/
def usable (s : State) : State := (s.setB pgSec F.secStatKeysUsable true).setF pgHif F.hifNetNetEn 1
/-- A READ of one word as a network payload. -/
def payR : List Byte := [0x0B, 5, 0, 0, 0, 0]
/-- The header of a network request with a serial number. -/
def hd (n : Nat) : List Byte := auxBytes { type := tControl, node := 3, stream := 4, tick := 5, payLen := 6, hi := 0, lo := n }
/-- Network requests under way. -/
def net (r : List NetReq) : State := { usable fb with hif.net := r }
/-- An Amber message of a level. -/
def am : FltMsg := { src := 0xA0, kind := 5, ctx := 3, level := true }
/-- A Crimson message. -/
def cr (k r : Nat) : FltMsg := { src := 0xA0, kind := k, ctx := 3, crim := true, react := r }
/-- The record of the Amber message. -/
def rec1 : FltRec := { src := 0xA0, kind := 5, ctx := 3, level := true, msg := am }
/-- Change the device part. -/
def dv (f : DevSt → DevSt) (s : State) : State := { s with dev := f s.dev }


/-! An ill-formed command for each check of Instr.wellFormed. -/

/-- A host frame without data. -/
def bare : HostFrame := { addr := 0x05000000, len := 1, data := [], crc := 0, late := false }

theorem ill_registerWrite : (Instr.registerWrite .mea 0x40046000 0).wellFormed = false := by decide
theorem ill_registerReadClear : (Instr.registerReadClear .lat 0x40046000).wellFormed = false := by decide
theorem ill_drain : (Instr.drain .strg 0).wellFormed = false := by decide
theorem ill_srst : (Instr.srst .qmgDma 0).wellFormed = false := by decide
theorem ill_blockEnable : (Instr.blockEnable .mea 0 true).wellFormed = false := by decide
theorem ill_faultFlagClear : (Instr.faultFlagClear .mea 0 0).wellFormed = false := by decide
theorem ill_faultForce : (Instr.faultForce .mea 0 0).wellFormed = false := by decide
theorem ill_commitRequest : (Instr.commitRequest .mea 0 true).wellFormed = false := by decide
theorem ill_commitCancel : (Instr.commitCancel .mea 0).wellFormed = false := by decide
theorem ill_counterClear : (Instr.counterClear .mea 0).wellFormed = false := by decide
theorem ill_write : (Instr.write bare).wellFormed = false := by decide
theorem ill_burstWrite : (Instr.burstWrite bare).wellFormed = false := by decide
theorem ill_senseFrame : (Instr.senseFrame 0 (wire 12)).wellFormed = false := by decide
theorem ill_tdmFrameReceive : (Instr.tdmFrameReceive 0 (wire 1056)).wellFormed = false := by decide
theorem ill_refsMeasurement : (Instr.refsMeasurement [0] 0).wellFormed = false := by decide
theorem ill_networkHeader : (Instr.networkRequest 0 0 [] [] (List.replicate 16 0)).wellFormed = false := by decide
theorem ill_networkPayload :
    (Instr.networkRequest 0 0 (List.replicate 32 0) (List.replicate 1025 0) (List.replicate 16 0)).wellFormed = false := by
  decide
theorem ill_networkTail : (Instr.networkRequest 0 0 (List.replicate 32 0) [] []).wellFormed = false := by decide
theorem well_registerWrite : (Instr.registerWrite .hif 0x40046000 0).wellFormed = true := by decide
theorem well_write : (Instr.write { bare with data := [1, 2] }).wellFormed = true := by decide
theorem well_senseFrame : (Instr.senseFrame 0 (wire 384)).wellFormed = true := by decide

/-! Single commands on small states. The results are those of the spec's examples, tables and rules named. -/

/-- The state that a command answers. -/
def after (c : Instr) (s : State) : State :=
  match exec c s with
  | .next t => t
  | _ => State.reset

/-- Chapter 2, the example of an unknown page: PG_ID of page 0x046 reads 0x0602_1190. -/
theorem test_pgIdTile : (after (.registerReadClear .hif 0x40046000) base).mx.lastData = 0x06021190 := by decide +kernel
/-- The same example: page 0x000 gives 0x0F01_0020. -/
theorem test_pgIdDev : (after (.registerReadClear .hif 0x40000000) base).mx.lastData = 0x0F010020 := by decide +kernel
/-- R530: DBG_IDCODE reads 0x1D02_45CB. -/
theorem test_idcode : (after (.registerReadClear .hif (regAddr pgDbg 0x06C)) base).mx.lastData = 0x1D0245CB := by
  decide +kernel
/-- R435: the CRC of "123456789" is 0x29B1. -/
theorem test_crc16 : crc16 [0x31, 0x32, 0x33, 0x34, 0x35, 0x36, 0x37, 0x38, 0x39] = 0x29B1 := by decide +kernel
/-- R40: a page of no block answers DECODE_ERR, the reply code 2 of Table 16.3. -/
theorem test_emptyPage : (after (.registerReadClear .hif 0x401FF000) base).mx.lastReply = 2 := by decide +kernel
/-- Table 2.10: PG_SCRATCH keeps what is written. -/
theorem test_scratch :
    (after (.registerReadClear .seq 0x40046034) (after (.registerWrite .hif 0x40046034 0xA5A51234) base)).mx.lastData
      = 0xA5A51234 := by decide +kernel
/-- R31: a tick event begins the next tick. -/
theorem test_tickNumber : (after (.tickEvent 7) { base with time := { ticking := true, tick := 41 } }).time.tick = 42 := by
  decide +kernel
/-- Table 2.8, PG_FLT, W1C: a write of 1 clears the flag, a write of 0 does not. -/
theorem test_flagCleared :
    (after (.faultFlagClear .hif 2 5) (base.setReg 2 0x010 7)).reg pgHif 0x010 = 2 := by decide +kernel
/-- R113: a step requested waits for a local tick boundary. -/
theorem test_stepWaits :
    (after (.stepRequest .hif 1) (runs pgTsu base)).is pgTsu F.tsuStepCtrlGo = true := by decide +kernel
/-- R373: a last word closes an item, which the queue holds. -/
theorem test_pushLast :
    ((after (.queuePush .hif true 9) ((served [] 300 1 id).setQport 0
      (fun x => { x with open_ := some { queue := 0, words := 2, cells := [40] } }))).queue 0).items
        = [{ words := 3, cells := [40] }] := by decide +kernel
/-- R365: word i of an item lies at word i mod 16 of its cell, in B3. -/
theorem test_pushPlace :
    (after (.queuePush .hif true 9) ((served [] 300 1 id).setQport 0
      (fun x => { x with open_ := some { queue := 0, words := 2, cells := [40] } }))).memWord (cellAddr [40] 2) = 9 := by
  decide +kernel
/-- R377: a pop takes the first word of the first item. -/
theorem test_pop : (after (.queuePop .seq) ((served [[7, 8], [4]] 300 1 id).setQport 1 id)).mx.lastData = 7 := by
  decide +kernel
/-- Table 15.1, R412: NOP moves the PC by one action. -/
theorem test_nop : seqPc (after (.nop 0) (acting 1 0 0 0 0 0 id)) 0 = 1 := by decide +kernel
/-- R419: CALL pushes the PC of the action after it. -/
theorem test_call : ((after (.call 0) (acting 1 0x12 0 77 0 0 id)).ctx 0).stack = [1] := by decide +kernel
/-- R437: an unknown command changes no register and no word of memory. -/
theorem test_unknown : (after (.unknownCommand 0x77 (hframe 0x77 0x05000000 0 [] false)) fb).mem = fb.mem := by
  decide +kernel
/-- R390: a word of a bank reads back as written. -/
theorem test_bankWord :
    (fb.setMemWord 0x05000000 0x11223344).memWord 0x05000000 = 0x11223344 := by decide +kernel
/-- Table 11.2: a trip takes the channel out of RUN. -/
theorem test_trip : (after (.overcurrentTrip ⟨0, true⟩) (drive 3 id)).rd (pgDrv 0) F.drvStatState ≠ 3 := by decide +kernel
/-- R349: the second frame in step locks the sense port. -/
theorem test_senseLocks :
    (after (.senseFrame 0 (wire 384)) (sense 1 (fun x => { x with good := 1 }))).rd (pgSns 0) F.snsStatState = 2 := by
  decide +kernel
/-- R463: a record is stored with the message's source. -/
theorem test_record : ((after .faultMessageAccept (faulted [am] [] [])).flt.recs.map (·.src)) = [0xA0] := by decide +kernel

/-- States and operands that meet the hypotheses of StepRunsTheFrontCommand. -/
theorem witness_StepRunsTheFrontCommand :
  ∃ c rest, ∃ (s : State), s.pending = c :: rest :=
  ⟨.heartbeatSend, [], { base with pending := [.heartbeatSend] }, by decide +kernel⟩

/-- States and operands that meet the hypotheses of IdleStepCountsOneCycle. -/
theorem witness_IdleStepCountsOneCycle :
  (∃ (s : State), s.pending = [] ∧ s.live = true) ∧
  (∃ (s : State), s.pending = [] ∧ s.dev.frozen = true) ∧
  (∃ (s : State), s.pending = [] ∧ s.live = false ∧ s.dev.frozen = false) :=
  ⟨⟨State.reset, by decide +kernel⟩,
   ⟨{ base with dev := { base.dev with frozen := true } }, by decide +kernel⟩,
   ⟨phased .held 0, by decide +kernel⟩⟩

/-- States and operands that meet the hypotheses of EnableAfterReset. -/
theorem witness_EnableAfterReset :
  (∃ (p : Page), isRegPage p = true) ∧
  (∃ (p : Page) (s : State) (m : Master), isRegPage p = true ∧ [0, 1, 2, 3, 4, 5, 6, 7, 8, 9, 10, 11, 12,
      0x10].contains p.val = true ∧ granted s m = true ∧ s.is p F.ctrlEn = true) ∧
  (∃ (p : Page), ∃ d, isRegPage p = true ∧ [0, 1, 2, 3, 4, 5, 6, 7, 8, 9, 10, 11, 12, 0x10].contains p.val = true ∧
      d ∈ regsOf (pageKind p)) :=
  ⟨⟨0, by decide +kernel⟩,
   ⟨0, State.reset, Master.hif, by decide +kernel⟩,
   ⟨0, { base := 64, stride := 4, count := 1, rst := 0x00000001#32, rw := 0x00000000#32, w1c := 0x00000000#32, w1s := 0x00000000#32, rc := 0x00000000#32, wo := 0x00000000#32, rcs := 0x00000000#32, cls := RegClass.live }, by decide +kernel⟩⟩

/-- States and operands that meet the hypotheses of ResetLeavesEveryPageClear. -/
theorem witness_ResetLeavesEveryPageClear :
  ∃ (p : Page), isRegPage p = true :=
  ⟨0, by decide +kernel⟩

/-- States and operands that meet the hypotheses of EveryStepKeepsMemoryCanonical. -/
theorem witness_EveryStepKeepsMemoryCanonical :
  ∃ (s t : State), step s = .next t ∧ Memory.wf s.mem :=
  ⟨{ base with pending := [.idcode] }, _, rfl, by decide +kernel⟩

/-- States and operands that meet the hypotheses of BankWriteReplacesEnabledBytes. -/
theorem witness_BankWriteReplacesEnabledBytes :
  ∃ (s : State) (a : Nat) (be : BitVec 4), Memory.wf s.mem ∧ a % 4 = 0 ∧ be ≠ 0 ∧ s.mx.wiping = none ∧
      s.mx.dead.contains a = false :=
  ⟨State.reset, 112, 0x1#4, by decide +kernel⟩

/-- States and operands that meet the hypotheses of DrainAndSoftResetWriteTheirBits. -/
theorem witness_DrainAndSoftResetWriteTheirBits :
  ∃ (s : State) (m : Master) (p : Page), granted s m = true ∧ isRegPage p = true :=
  ⟨State.reset, Master.hif, 0, by decide +kernel⟩

/-- States and operands that meet the hypotheses of FaultFlagsClearAndForce. -/
theorem witness_FaultFlagsClearAndForce :
  ∃ (s : State) (m : Master) (p : Page), granted s m = true ∧ isRegPage p = true :=
  ⟨State.reset, Master.hif, 0, by decide +kernel⟩

/-- States and operands that meet the hypotheses of EnableWaitsForTheBoundary. -/
theorem witness_EnableWaitsForTheBoundary :
  (∃ (s : State) (m : Master) (p : Page) (en : Bool),
      (en = true → s.is p F.ctrlEn = false → 2 ≤ s.devState ∧ enableOk s p = true) ∧ granted s m = true ∧ isRegPage p = true) ∧
  (∃ (s : State) (m : Master) (p : Page) (en : Bool), en = true ∧ granted s m = true ∧ isRegPage p = true ∧
      s.is p F.ctrlEn = false ∧ s.devState < 2 ∧ enReset (pageKind p) = false) :=
  ⟨⟨base, Master.hif, 0, true, by decide +kernel⟩,
   ⟨State.reset, Master.hif, 17, _, rfl, by decide +kernel⟩⟩

/-- States and operands that meet the hypotheses of CommitRequestsWaitAndCancel. -/
theorem witness_CommitRequestsWaitAndCancel :
  (∃ (s : State) (m : Master) (p : Page), granted s m = true ∧ isRegPage p = true ∧ engaged s p = true ∧
      s.is p F.cmtPending = false) ∧
  (∃ (s : State) (m : Master) (p : Page), granted s m = true ∧ isRegPage p = true ∧ s.is p F.cmtPending = true) ∧
  (∃ (s : State) (m : Master) (p : Page), granted s m = true ∧ isRegPage p = true ∧ s.is p F.cmtPending = true) :=
  ⟨⟨State.reset, Master.hif, 0, by decide +kernel⟩,
   ⟨(runs 0x20 base).setF 0x20 F.cmtPending 1, Master.hif, 32, by decide +kernel⟩,
   ⟨(runs 0x20 base).setF 0x20 F.cmtPending 1, Master.hif, 32, by decide +kernel⟩⟩

/-- States and operands that meet the hypotheses of RegisterWriteOutcomes. -/
theorem witness_RegisterWriteOutcomes :
  (∃ (s : State) (m : Master) (p : Page) (ofs : Nat), ∃ d, granted s m = true ∧ isRegPage p = true ∧ ofs % 4 = 0 ∧
      d ∈ regsOf (pageKind p)) ∧
  (∃ (s : State) (m : Master) (p : Page) (ofs : Nat), granted s m = true ∧ isRegPage p = true ∧ ofs % 4 = 0 ∧ 0x800 ≤ ofs) ∧
  (∃ (s : State) (m : Master) (p : Page) (ofs : Nat), ∃ h, granted s m = true ∧ isRegPage p = true ∧ ofs % 4 = 0 ∧
      h ∈ [0x038, 0x03C]) ∧
  (∃ (s : State) (m : Master) (p : Page) (ofs : Nat), granted s m = true ∧ isRegPage p = true ∧ ofs % 4 = 0) ∧
  (∃ (s : State) (m : Master) (p : Page) (ofs : Nat), granted s m = true ∧ isRegPage p = true ∧ ofs % 4 = 0 ∧
      0x040 ≤ ofs ∧ ofs < 0x800 ∧ descOf s p ofs = none ∧ inPop p ofs = false) ∧
  (∃ (s : State) (m : Master) (p : Page) (ofs : Nat), ∃ d, granted s m = true ∧ isRegPage p = true ∧ ofs % 4 = 0 ∧
      descOf s p ofs = some d ∧ 0x040 ≤ ofs ∧ ofs < 0x800 ∧ d.cls = .frozen ∧ d.writable = true ∧
      ownEnPage (pageKind p) = false ∧ p.val ≠ pgDbg ∧ s.is p F.ctrlEn = true) :=
  ⟨⟨State.reset, Master.hif, 0, 112,
      { base := 64, stride := 4, count := 1, rst := 0x00000001#32, rw := 0x00000000#32, w1c := 0x00000000#32, w1s := 0x00000000#32, rc := 0x00000000#32, wo := 0x00000000#32, rcs := 0x00000000#32, cls := RegClass.live }, by decide +kernel⟩,
   ⟨base, .hif, 0x20, 0x850, by decide +kernel⟩,
   ⟨State.reset, Master.hif, 0, 112, 56, by decide +kernel⟩,
   ⟨State.reset, Master.hif, 0, 112, by decide +kernel⟩,
   ⟨State.reset, Master.hif, 17, 112, by decide +kernel⟩,
   ⟨(runs 0x20 base).setF 0x20 F.cmtPending 1, Master.hif, 32, 64,
      { base := 64, stride := 4, count := 1, rst := 0x00000010#32, rw := 0x0000007f#32, w1c := 0x00000000#32, w1s := 0x00000000#32, rc := 0x00000000#32, wo := 0x00000000#32, rcs := 0x00000000#32, cls := RegClass.frozen }, by decide +kernel⟩⟩

/-- States and operands that meet the hypotheses of ReadClearsCounters. -/
theorem witness_ReadClearsCounters :
  ∃ (s : State) (m : Master) (p : Page) (ofs : Nat) (d : RegDesc), descOf s p ofs = some d ∧ granted s m = true ∧
      pageKind p ≠ .reserved ∧ ofs % 4 = 0 ∧ ofs < 0x800 ∧ (isRegPage p = true → 0x040 ≤ ofs) ∧ d.rcs = 0 ∧ d.rc ≠ 0 ∧
      pageKind p ≠ .tsu ∧ pageKind p ≠ .mcg ∧ ¬ (pageKind p = .sns ∧ ofs = 0x060) ∧ ¬ (p.val = pgQmg ∧ ofs = 0x044) ∧
      ¬ (p.val = pgSpx ∧ ofs = 0x04C) ∧ ¬ (p.val = pgLatg ∧ ofs = 0x05C) ∧ inPop p ofs = false ∧ ¬ (p.val = pgDbg ∧
      ofs = 0x068) ∧ pageView s (masterNo m) p ofs = none :=
  ⟨State.reset, Master.hif, 0, 116,
      { base := 116, stride := 4, count := 1, rst := 0x00000000#32, rw := 0x00000000#32, w1c := 0x00000000#32, w1s := 0x00000000#32, rc := 0xffffffff#32, wo := 0x00000000#32, rcs := 0x00000000#32, cls := RegClass.live }, by decide +kernel⟩

/-- States and operands that meet the hypotheses of DefaultTargetAnswersDecodeErr. -/
theorem witness_DefaultTargetAnswersDecodeErr :
  ∃ (s : State) (m : Master) (addr : Word) (be : BitVec 4), s.live = true ∧ bankOf addr.toNat = none ∧
      (windowOf addr.toNat = none ∨ m.reachesWindow = false ∨ addr.toNat % 4 ≠ 0 ∨ be ≠ 0xF ∨ ∃ p ofs,
      windowOf addr.toNat = some (p, ofs) ∧ pageKind p = .reserved) :=
  ⟨State.reset, Master.hif, 0x50000000#32, 0x0#4, by decide +kernel, by decide +kernel, .inl (by decide +kernel)⟩

/-- States and operands that meet the hypotheses of FreezeRefusesWrites. -/
theorem witness_FreezeRefusesWrites :
  (∃ (s : State) (m : Master) (p : Page) (ofs : Nat), s.dev.phase = .on ∧ s.dev.frozen = true ∧ m.reachesWindow = true ∧
      s.mx.slicing = [] ∧ pageKind p ≠ .reserved ∧ ofs < 4096 ∧ ofs % 4 = 0 ∧ (p.val ≠ pgHif) ∧ p.val ≠ pgDbg) ∧
  (∃ (s : State) (m : Master) (p : Page) (ofs : Nat), s.dev.phase = .on ∧ s.dev.frozen = true ∧ m.reachesWindow = true ∧
      s.mx.slicing = [] ∧ pageKind p ≠ .reserved ∧ ofs < 4096 ∧ ofs % 4 = 0 ∧ inPop p ofs = false ∧ ¬ (p.val = pgDbg ∧
      ofs = 0x068)) :=
  ⟨⟨{ base with dev := { base.dev with frozen := true } }, Master.hif, 0, 112, by decide +kernel⟩,
   ⟨{ base with dev := { base.dev with frozen := true } }, Master.hif, 0, 112, by decide +kernel⟩⟩

/-- States and operands that meet the hypotheses of TickEventAdvancesTheNumber. -/
theorem witness_TickEventAdvancesTheNumber :
  ∃ (s : State), s.live = true :=
  ⟨{ runs pgMea base with meas.late := [(0x07000000, [0])] }, by decide +kernel⟩

/-- States and operands that meet the hypotheses of BoundaryBringsLiveFieldsIntoForce. -/
theorem witness_BoundaryBringsLiveFieldsIntoForce :
  (∃ (s : State) (p : Page), s.live = true ∧ s.time.ticking = true ∧ isRegPage p = true ∧
      s.arch.began.find p = some s.time.tick) ∧
  (∃ (s : State) (p : Page), s.live = true ∧ s.time.ticking = true ∧ isRegPage p = true ∧
      s.arch.began.find p ≠ some s.time.tick ∧ s.resetting p = true ∧ s.is p F.cmtPending = false ∧ pageKind p ∉ [.mac,
      .plk, .strg, .latg]) ∧
  (∃ (s : State) (p : Page), s.live = true ∧ s.time.ticking = true ∧ isRegPage p = true ∧
      s.arch.began.find p ≠ some s.time.tick ∧ s.resetting p = false ∧ s.running p = true ∧ s.is p F.ctrlEn = true ∧
      s.is p F.ctrlSrst = false ∧ s.is p F.cmtPending = false ∧ s.arch.force.find p = none ∧ (pageKind p ∈ [.clk, .hif,
      .xbr, .sec, .wck, .dbg]) ∧ (pageKind p = .wck → s.rd pgWck F.wckInCfgNom = s.ref.nom)) :=
  ⟨⟨ticking, 2, by decide +kernel⟩,
   ⟨{ (runs 0x3C (runs 0xA0 (inReset 0x84 ticking))) with arch := { rstReq := [(0x20, 1), (0x3C, 4), (2, 3)], restarts := [(0xA0*16, 1), (0xA0*16+1,2)] }, shadow := [(keyOf 0x20 0x50, 5)] }, 132, by decide +kernel⟩,
   ⟨{ (runs 0x3C (runs 0xA0 (inReset 0x84 ticking))) with arch := { rstReq := [(0x20, 1), (0x3C, 4), (2, 3)], restarts := [(0xA0*16, 1), (0xA0*16+1,2)] }, shadow := [(keyOf 0x20 0x50, 5)] }, 2, by decide +kernel⟩⟩

/-- States and operands that meet the hypotheses of StalledUnitsRestartAndReport. -/
theorem witness_StalledUnitsRestartAndReport :
  ∃ (s : State) (p : Page), s.live = true ∧ s.running p = true :=
  ⟨{ runs pgMea base with meas.late := [(0x07000000, [0])] }, 0, by decide +kernel⟩

/-- States and operands that meet the hypotheses of BlockTimeoutSetsTmoAndWedged. -/
theorem witness_BlockTimeoutSetsTmoAndWedged :
  (∃ (s : State) (p : Page), s.live = true ∧ s.running p = true ∧ awaits s p = true) ∧
  (∃ (s : State) (p : Page), s.live = true ∧ s.running p = true ∧ awaits s p = false) :=
  ⟨⟨{ runs pgMea base with meas.late := [(0x07000000, [0])] }, 192, by decide +kernel⟩,
   ⟨{ runs pgMea base with meas.late := [(0x07000000, [0])] }, 0, by decide +kernel⟩⟩

/-- States and operands that meet the hypotheses of BlockResetClearsAndCompletes. -/
theorem witness_BlockResetClearsAndCompletes :
  (∃ (s : State) (p : Page) (cause : Nat), s.live = true ∧ isRegPage p = true ∧ cause < 16 ∧
      s.arch.rstReq.find p = some cause ∧ s.arch.resetSeq = none ∧ s.resetting p = false) ∧
  (∃ (s : State) (p : Page) (cause : Nat), s.live = true ∧ isRegPage p = true ∧ cause < 16 ∧ s.resetting p = true ∧
      p.val ≠ pgQmg) :=
  ⟨⟨{ (runs 0x3C (runs 0xA0 (inReset 0x84 ticking))) with arch := { rstReq := [(0x20, 1), (0x3C, 4), (2, 3)], restarts := [(0xA0*16, 1), (0xA0*16+1,2)] }, shadow := [(keyOf 0x20 0x50, 5)] }, 2, 3, by decide +kernel⟩,
   ⟨{ (runs 0x3C (runs 0xA0 (inReset 0x84 ticking))) with arch := { rstReq := [(0x20, 1), (0x3C, 4), (2, 3)], restarts := [(0xA0*16, 1), (0xA0*16+1,2)] }, shadow := [(keyOf 0x20 0x50, 5)] }, 132, 0, by decide +kernel⟩⟩

/-- States and operands that meet the hypotheses of WatchdogsRaiseTimeouts. -/
theorem witness_WatchdogsRaiseTimeouts :
  (∃ (s : State) (n : Fin 16), s.live = true ∧ 1 ≤ n.val ∧ (s.devState = 2 ∨ s.devState = 3) ∧
      s.arch.dead.get false n = false ∧ ∃ p ∈ watched s n, s.arch.progress.get false p = false) ∧
  (∃ (s : State) (n : Fin 16), s.live = true ∧ 1 ≤ n.val ∧ (s.devState = 2 ∨ s.devState = 3) ∧
      (s.arch.dead.get false n = true ∨ ∀ p ∈ watched s n, s.arch.progress.get false p = true)) ∧
  (∃ (s : State), s.live = true ∧ (s.devState = 2 ∨ s.devState = 3) ∧ s.running pgFlt = true) ∧
  (∃ (s : State), s.live = true ∧ s.arch.resetSeq = none) :=
  ⟨⟨base, 15, by decide +kernel⟩,
   ⟨{ runs pgMea base with meas.late := [(0x07000000, [0])] }, 1, by decide +kernel⟩,
   ⟨{ runs pgMea base with meas.late := [(0x07000000, [0])] }, by decide +kernel⟩,
   ⟨{ runs pgMea base with meas.late := [(0x07000000, [0])] }, by decide +kernel⟩⟩

/-- States and operands that meet the hypotheses of ClockLossForcesAndResets. -/
theorem witness_ClockLossForcesAndResets :
  (∃ (s : State), s.dev.phase = .on ∧ s.dev.frozen = false ∧ s.dev.refclk = true) ∧
  (∃ (s : State), s.dev.phase = .starting) :=
  ⟨⟨{ runs pgMea base with meas.late := [(0x07000000, [0])] }, by decide +kernel⟩,
   ⟨{ base with dev := { base.dev with phase := .starting } }, by decide +kernel⟩⟩

/-- States and operands that meet the hypotheses of LinkStatesFollowTheirConditions. -/
theorem witness_LinkStatesFollowTheirConditions :
  (∃ (s : State) (l : Link), s.live = true ∧ s.running (pgLink l) = true ∧ linkState s l = 0 ∧
      s.resetting (pgLink l) = false) ∧
  (∃ (s : State) (l : Link), s.live = true ∧ s.running (pgLink l) = true ∧ linkState s l = 1 ∧ upConditions s l = true) ∧
  (∃ (s : State) (l : Link), s.live = true ∧ s.running (pgLink l) = true ∧ linkState s l ≠ 0) ∧
  (∃ (s : State) (l : Link), s.live = true ∧ s.running (pgLink l) = true ∧ s.resetting (pgLink l) = false) ∧
  (∃ (s : State) (l : Link), s.live = true ∧ s.running (pgLink l) = true) ∧
  (∃ (s : State) (l : Link), s.live = true ∧ s.running (pgLink l) = true ∧ linkState s l = 2 ∧
      s.is (pgLink l) F.macLinkRemoteFault = true) ∧
  (∃ (s : State) (l : Link) (q : Port), s.live = true ∧ s.running (pgLink l) = true ∧ q.val = l.val) :=
  ⟨⟨link 0 0 base, 0, by decide +kernel⟩,
   ⟨(link 0 1 base).setF 0x20 F.macLinkCfgHoldup 0, 0, by decide +kernel⟩,
   ⟨(link 0 1 base).setF 0x20 F.macLinkCfgHoldup 0, 0, by decide +kernel⟩,
   ⟨link 0 0 base, 0, by decide +kernel⟩,
   ⟨link 0 0 base, 0, by decide +kernel⟩,
   ⟨((link 0 2 base).setF 0x20 F.macLinkRemoteFault 1), 0, by decide +kernel⟩,
   ⟨link 0 0 base, 0, 0, by decide +kernel⟩⟩

/-- States and operands that meet the hypotheses of PortTimersAndCountersFollowTheirRules. -/
theorem witness_PortTimersAndCountersFollowTheirRules :
  (∃ (s : State) (q : Port), s.live = true ∧ s.running (pgLink q) = true) ∧
  (∃ (s : State) (q : Port), s.live = true ∧ s.running (pgLink q) = true ∧ (s.port q).xoff = true ∧
      s.actIs (pgLink q) F.macPauseTxEn = true ∧ s.act (pgLink q) F.macPauseThrXon < poolUsed s) ∧
  (∃ (s : State) (q : Port) (e : Bool), ∃ i t0, s.live = true ∧ s.running (pgLink q) = true ∧ headsReach s q = s ∧
      hostHead s q e = some i ∧ i.launch = some t0 ∧ headSt s q e = .waits ∧ t0 ≤ s.now) ∧
  (∃ (s : State) (q : Port) (e : Bool), ∃ i t0, s.live = true ∧ s.running (pgLink q) = true ∧ headsReach s q = s ∧
      hostHead s q e = some i ∧ i.launch = some t0 ∧ headSt s q e = .waits ∧ s.now < t0) ∧
  (∃ (s : State) (q : Port), s.live = true ∧ s.running (pgLink q) = true ∧ linkState s q = 2 ∧
      s.rd (pgLink q) F.macPreStatState = 1 ∧ ((s.port q).verifies < s.act (pgLink q) F.macPreVerifyLimit)) ∧
  (∃ (s : State) (q : Port), s.live = true ∧ s.running (pgLink q) = true ∧ linkState s q = 2 ∧
      s.rd (pgLink q) F.macPreStatState = 1 ∧ (s.act (pgLink q) F.macPreVerifyLimit ≤ (s.port q).verifies)) ∧
  (∃ (s : State) (q : Port), s.live = true ∧ s.running (pgLink q) = true) ∧
  (∃ (s : State) (q : Port) (m : Master) (l : Link), s.live = true ∧ s.running (pgLink q) = true ∧ granted s m = true ∧
      engaged s (pgLink l) = true) ∧
  (∃ (s : State) (q : Port) (m : Master) (l : Link), s.live = true ∧ s.running (pgLink q) = true ∧ granted s m = true ∧
      engaged s (pgLink l) = false) ∧
  (∃ (s : State) (q : Port), ∃ n, s.live = true ∧ s.running (pgLink q) = true ∧ s.arch.acts = [(keyOf (pgLink q) 0x08C,
      1)] ∧ n < nCounters q) :=
  ⟨⟨link 0 0 base, 0, by decide +kernel⟩,
   ⟨(((link 0 2 base).setF 0x20 F.macPauseTxEn 1).setF pgQmg F.qmgPoolFreeCells 0).setPort 0 (fun x => { x with xoff := true }), 0, by decide +kernel⟩,
   ⟨(queued 3 [launchItem] (((link 0 2 base).setF 0x20 F.macTxqExpEn 1).setF 0x20 F.macTxqExpQ 3)).setPort 0 (fun x => { x with headExp := .waits }), 0, true, { cls := false, csum := false, launch := some 0, tsReq := false, bytes := [0x00#8, 0x00#8, 0x00#8, 0x00#8, 0x00#8, 0x00#8, 0x00#8, 0x00#8, 0x00#8, 0x00#8, 0x00#8, 0x00#8, 0x00#8, 0x00#8, 0x00#8, 0x00#8, 0x00#8, 0x00#8, 0x00#8, 0x00#8, 0x00#8, 0x00#8, 0x00#8, 0x00#8, 0x00#8, 0x00#8, 0x00#8, 0x00#8, 0x00#8, 0x00#8, 0x00#8, 0x00#8, 0x00#8, 0x00#8, 0x00#8, 0x00#8, 0x00#8, 0x00#8, 0x00#8, 0x00#8, 0x00#8, 0x00#8, 0x00#8, 0x00#8, 0x00#8, 0x00#8, 0x00#8, 0x00#8, 0x00#8, 0x00#8, 0x00#8, 0x00#8, 0x00#8, 0x00#8, 0x00#8, 0x00#8, 0x00#8, 0x00#8, 0x00#8, 0x00#8] }, 0, by decide +kernel⟩,
   ⟨(queued 3 [[0x00040000#32 + 60, 0,
      1000] ++ List.replicate 15 0] (((link 0 2 base).setF 0x20 F.macTxqExpEn 1).setF 0x20 F.macTxqExpQ 3)).setPort 0 (fun x => { x with headExp := .waits }), 0, true, { cls := false, csum := false, launch := some 65536000000000000, tsReq := false, bytes := [0x00#8, 0x00#8, 0x00#8, 0x00#8, 0x00#8, 0x00#8, 0x00#8, 0x00#8, 0x00#8, 0x00#8, 0x00#8, 0x00#8, 0x00#8, 0x00#8, 0x00#8, 0x00#8, 0x00#8, 0x00#8, 0x00#8, 0x00#8, 0x00#8, 0x00#8, 0x00#8, 0x00#8, 0x00#8, 0x00#8, 0x00#8, 0x00#8, 0x00#8, 0x00#8, 0x00#8, 0x00#8, 0x00#8, 0x00#8, 0x00#8, 0x00#8, 0x00#8, 0x00#8, 0x00#8, 0x00#8, 0x00#8, 0x00#8, 0x00#8, 0x00#8, 0x00#8, 0x00#8, 0x00#8, 0x00#8, 0x00#8, 0x00#8, 0x00#8, 0x00#8, 0x00#8, 0x00#8, 0x00#8, 0x00#8, 0x00#8, 0x00#8, 0x00#8, 0x00#8] }, 65536000000000000, by decide +kernel⟩,
   ⟨(((link 0 2 base).setF 0x20 F.macPreStatState 1).setF 0x20 F.macPreVerifyLimit 3), 0, by decide +kernel⟩,
   ⟨(((link 0 2 base).setF 0x20 F.macPreStatState 1).setF 0x20 F.macPreVerifyLimit 0), 0, by decide +kernel⟩,
   ⟨link 0 0 base, 0, by decide +kernel⟩,
   ⟨link 0 0 base, 0, Master.hif, 0, by decide +kernel⟩,
   ⟨link 0 0 base, 0, Master.hif, 1, by decide +kernel⟩,
   ⟨{ ((link 0 2 base).setReg 0x20 0x104 7).setF 0x20 F.macStatsModeMode 1 with arch.acts := [(keyOf 0x20 0x8C, 1)] }, 0,
      0, by decide +kernel⟩⟩

/-- States and operands that meet the hypotheses of FramesAreCountedTakenAndSent. -/
theorem witness_FramesAreCountedTakenAndSent :
  (∃ (s : State) (l : Link), s.live = true ∧ s.running (pgLink l) = true ∧ s.actIs (pgLink l) F.macTestPrbsEn = true) ∧
  (∃ (s : State) (l : Link) (info : RxInfo), s.live = true ∧ s.running (pgLink l) = true ∧ draining s (pgLink l) = false ∧
      s.actIs (pgLink l) F.macTestPrbsEn = false ∧ s.act (pgLink l) F.macTestLoopback = 0 ∧ l.val < 4 ∧
      linkState s l = 1 ∧ info.mpkt = 0 ∧ info.frags < 2) ∧
  (∃ (s : State) (l : Link) (info : RxInfo) (b : List Byte), s.live = true ∧ s.running (pgLink l) = true ∧
      draining s (pgLink l) = false ∧ s.actIs (pgLink l) F.macTestPrbsEn = false ∧
      s.act (pgLink l) F.macTestLoopback = 0 ∧ l.val < 4 ∧ info.mpkt = 0 ∧ info.frags < 2 ∧ rxError s l info b = none ∧
      etypeOf (withoutFcs b) = 0x8808 ∧ beAt b (l3Ofs b) 2 = 1 ∧ s.actIs (pgLink l) F.macPauseRxEn = true) ∧
  (∃ (s : State) (l : Link) (info : RxInfo) (b : List Byte), s.live = true ∧ s.running (pgLink l) = true ∧
      draining s (pgLink l) = false ∧ s.actIs (pgLink l) F.macTestPrbsEn = false ∧
      s.act (pgLink l) F.macTestLoopback = 0 ∧ l.val = 4 ∧ linkState s l = 2 ∧ plkError s info b = none ∧
      etypeOf (withoutFcs b) ≠ s.act pgStrg F.strgCfgEtype) ∧
  (∃ (s : State) (l : Link), s.live = true ∧ s.running (pgLink l) = true ∧ lineTest s l = false ∧
      (s.port l).respond = true ∧ (s.port l).ready = [] ∧ linkState s l = 2) ∧
  (∃ (s : State) (l : Link) (f : TxFrame), s.live = true ∧ s.running (pgLink l) = true ∧ lineTest s l = false ∧
      (s.port l).respond = false ∧ (s.port l).ready = [f] ∧ f.express = true ∧ f.strm = none ∧ f.csum = 0 ∧ f.fwd = none ∧
      f.cells = 0 ∧ hostHead s l true = none ∧ hostHead s l false = none ∧ linkState s l = 2 ∧
      s.act (pgLink l) F.macTestLoopback ≠ 1) ∧
  (∃ (s : State) (l : Link) (f : TxFrame), s.live = true ∧ s.running (pgLink l) = true ∧ lineTest s l = false ∧
      (s.port l).respond = false ∧ (s.port l).ready = [f] ∧ f.express = true ∧ f.strm = none ∧ f.csum = 0 ∧ f.fwd = none ∧
      f.cells = 0 ∧ hostHead s l true = none ∧ hostHead s l false = none ∧ linkState s l ≠ 2) :=
  ⟨⟨((link 0 2 base).setF 0x20 F.macTestPrbsEn 1), 0, by decide +kernel⟩,
   ⟨(link 0 1 base).setF 0x20 F.macLinkCfgHoldup 0, 0,
      { pcsErr := false, smdErr := false, asmErr := false, frags := 1, mpkt := 0, crossing := { frc := 0x0000000000000000#64, frac := 0x00000#17 }, bitErrs := 0 }, by decide +kernel⟩,
   ⟨link 0 2 base, 0,
      { pcsErr := false, smdErr := false, asmErr := false, frags := 1, mpkt := 0, crossing := { frc := 0x0000000000000000#64, frac := 0x00000#17 }, bitErrs := 0 }, [0x01#8, 0x80#8, 0xc2#8, 0x00#8, 0x00#8, 0x01#8, 0x02#8, 0x00#8, 0x00#8, 0x00#8, 0x00#8, 0x01#8, 0x88#8, 0x08#8, 0x00#8, 0x01#8, 0x00#8, 0x07#8, 0x00#8, 0x00#8, 0x00#8, 0x00#8, 0x00#8, 0x00#8, 0x00#8, 0x00#8, 0x00#8, 0x00#8, 0x00#8, 0x00#8, 0x00#8, 0x00#8, 0x00#8, 0x00#8, 0x00#8, 0x00#8, 0x00#8, 0x00#8, 0x00#8, 0x00#8, 0x00#8, 0x00#8, 0x00#8, 0x00#8, 0x00#8, 0x00#8, 0x00#8, 0x00#8, 0x00#8, 0x00#8, 0x00#8, 0x00#8, 0x00#8, 0x00#8, 0x00#8, 0x00#8, 0x00#8, 0x00#8, 0x00#8, 0x00#8, 0xf9#8, 0xd1#8, 0xb7#8, 0x88#8], by decide +kernel⟩,
   ⟨link 4 2 base, 4, whole, pauseBytes, by decide +kernel⟩,
   ⟨(link 0 2 base).setPort 0 (fun x => { x with respond := true }), 0, by decide +kernel⟩,
   ⟨(link 0 2 base).setPort 0 (fun x => { x with ready := [{ express := true, bytes := [1, 2] }] }), 0,
      { express := true, rank := 0, bytes := [0x01#8, 0x02#8], fwd := none, strm := none, cells := 0, csum := 0, since := 0 }, by decide +kernel⟩,
   ⟨(link 0 1 base).setPort 0 (fun x => { x with ready := [{ express := true, bytes := [1, 2] }] }), 0,
      { express := true, rank := 0, bytes := [0x01#8, 0x02#8], fwd := none, strm := none, cells := 0, csum := 0, since := 0 }, by decide +kernel⟩⟩

/-- States and operands that meet the hypotheses of TimeReadsLatchTheirWholeValue. -/
theorem witness_TimeReadsLatchTheirWholeValue :
  ∃ (s : State) (m : Master), granted s m = true :=
  ⟨base, Master.hif, by decide +kernel⟩

/-- States and operands that meet the hypotheses of RatesStepsAndStampsFollowLocalTime. -/
theorem witness_RatesStepsAndStampsFollowLocalTime :
  (∃ (s : State) (m : Master), granted s m = true) ∧
  (∃ (s : State) (m : Master), granted s m = true ∧ s.is pgTsu F.tsuStepCtrlGo = false) ∧
  (∃ (s : State) (m : Master), granted s m = true ∧ s.is pgTsu F.tsuStepCtrlGo = true) ∧
  (∃ (s : State) (m : Master), ∃ r, granted s m = true ∧ s.time.rateReq = some r ∧ s.running pgTsu = true ∧
      s.is pgTsu F.tsuStepCtrlGo = false) ∧
  (∃ (s : State) (m : Master), granted s m = true ∧ s.running pgTsu = true) :=
  ⟨⟨base, Master.hif, by decide +kernel⟩,
   ⟨base, Master.hif, by decide +kernel⟩,
   ⟨(runs pgTsu base).setF pgTsu F.tsuStepCtrlGo 1, Master.hif, by decide +kernel⟩,
   ⟨{ (runs pgTsu base) with time := { rateReq := some 1000, frc := 0x123456789AB, txts := [{}, {}], tick := 0x1234567890 } }, Master.hif, 1000, by decide +kernel⟩,
   ⟨base, Master.hif, by decide +kernel⟩⟩

/-- States and operands that meet the hypotheses of GeneratorsArmPulseAndFinish. -/
theorem witness_GeneratorsArmPulseAndFinish :
  (∃ (s : State) (m : Master) (n : Fin 8) (cfg : BitVec 3), granted s m = true ∧
      s.rd pgTpg (F.tpgGenWidthWidth.at 0x20 n) ≠ 0 ∧ cfg.getLsbD 0 = false ∧ s.actIs pgTpg F.ctrlDrain = false) ∧
  (∃ (s : State) (m : Master) (n : Fin 8), granted s m = true ∧ s.rd pgTpg (F.tpgGenWidthWidth.at 0x20 n) = 0) ∧
  (∃ (s : State) (m : Master), granted s m = true) ∧
  (∃ (s : State) (n : Fin 8) (cyc : BitVec 14), s.live = true ∧ s.running pgTpg = true ∧ (s.gen n).active = true ∧
      (s.gen n).level = false ∧ genSpent (s.gen n) = false ∧
      genReached s (s.gen n).base cyc.toNat (genTarget (s.gen n) (s.gen n).next) = true) ∧
  (∃ (s : State) (n : Fin 8) (cyc : BitVec 14), s.live = true ∧ s.running pgTpg = true ∧ (s.gen n).active = true ∧
      (s.gen n).level = false ∧ genSpent (s.gen n) = false ∧
      genReached s (s.gen n).base cyc.toNat (genTarget (s.gen n) (s.gen n).next) = false) ∧
  (∃ (s : State) (n : Fin 8) (cyc : BitVec 14), s.live = true ∧ s.running pgTpg = true ∧ (s.gen n).level = true ∧
      genReached s (s.gen n).endsMedia cyc.toNat (s.gen n).ends = true) ∧
  (∃ (s : State) (n : Fin 8) (cyc : BitVec 14), s.live = true ∧ s.running pgTpg = true ∧ (s.gen n).level = true ∧
      genReached s (s.gen n).endsMedia cyc.toNat (s.gen n).ends = false) :=
  ⟨⟨generator 0 {active := true, count := 3, next := 0, start1 := 5}, Master.hif, 0, 0x0#3, by decide +kernel⟩,
   ⟨base, Master.hif, 0, by decide +kernel⟩,
   ⟨base, Master.hif, by decide +kernel⟩,
   ⟨generator 0 {active := true, count := 3, next := 0, level := false}, 0, 0x0000#14, by decide +kernel⟩,
   ⟨generator 0 {active := true, count := 3, next := 0, start1 := 5}, 0, 0x0000#14, by decide +kernel⟩,
   ⟨generator 0 {active := true, count := 3, next := 3, level := true}, 0, 0x0000#14, by decide +kernel⟩,
   ⟨generator 0 {level := true, ends := 2 ^ 60}, 0, 0x0000#14, by decide +kernel⟩⟩

/-- States and operands that meet the hypotheses of CandidatesFollowActivityAndPriority. -/
theorem witness_CandidatesFollowActivityAndPriority :
  (∃ (s : State) (n : Fin 8) (ph x : Int), x = (if n = 0 then ptpPhase s else wrapPhase (captureRate s n) ph) ∧
      s.live = true ∧ s.running pgRefs = true ∧ candUsable s n = true ∧ candState s n = 1) ∧
  (∃ (s : State) (n : Fin 8), s.live = true ∧ s.running pgRefs = true ∧ 2 ≤ candState s n) ∧
  (∃ (s : State), s.live = true ∧ s.running pgRefs = true ∧ 2 ≤ candState s 0) ∧
  (∃ (s : State) (m : Master), s.live = true ∧ s.running pgRefs = true ∧ granted s m = true) ∧
  (∃ (s : State), s.live = true ∧ s.running pgRefs = true) ∧
  (∃ (s : State) (m : Master), s.live = true ∧ s.running pgRefs = true ∧ granted s m = true ∧
      1 ≤ s.rd pgRefs F.refsPtpTmo) ∧
  (∃ (s : State) (m : Master), s.live = true ∧ s.running pgRefs = true ∧ granted s m = true ∧
      1 ≤ s.rd pgRefs F.refsPtpTmo) ∧
  (∃ (s : State), s.live = true ∧ s.running pgRefs = true ∧ s.actIs pgRefs F.refsPtpValid = false) ∧
  (∃ (s : State), s.live = true ∧ s.running pgRefs = true ∧ s.arch.acts = [(keyOf pgRefs 0x060, 2)]) :=
  ⟨⟨runs pgMcg (refs 7 1 0 15), 7, 0, _, rfl, by decide +kernel⟩,
   ⟨(refs 7 3 2 7).setF pgRefs F.refsPherrErr 0x7FFFFFFF, 7, by decide +kernel⟩,
   ⟨refs 0 2 1 0, by decide +kernel⟩,
   ⟨(refs 7 3 2 7).setF pgRefs F.refsPherrErr 0x7FFFFFFF, Master.hif, by decide +kernel⟩,
   ⟨(refs 7 3 2 7).setF pgRefs F.refsPherrErr 0x7FFFFFFF, by decide +kernel⟩,
   ⟨(refs 7 3 2 7).setF pgRefs F.refsPherrErr 0x7FFFFFFF, Master.hif, by decide +kernel⟩,
   ⟨(refs 7 3 2 7).setF pgRefs F.refsPherrErr 0x7FFFFFFF, Master.hif, by decide +kernel⟩,
   ⟨(refs 7 3 2 7).setF pgRefs F.refsPherrErr 0x7FFFFFFF, by decide +kernel⟩,
   ⟨{ refs 0 3 2 0 with ref.ptpDead := true, arch.acts := [(keyOf pgRefs 0x60, 2)] }, by decide +kernel⟩⟩

/-- States and operands that meet the hypotheses of DpllStepsAndGridFollowTheirRules. -/
theorem witness_DpllStepsAndGridFollowTheirRules :
  (∃ (s : State), s.live = true ∧ s.running pgRefs = true ∧ dpll s = 1 ∧ phaseNear s = true) ∧
  (∃ (s : State), s.live = true ∧ s.running pgRefs = true ∧ dpll s = 2 ∧ phaseNear s = false) ∧
  (∃ (s : State), s.live = true ∧ s.running pgRefs = true) ∧
  (∃ (s : State) (m : Master) (v : Word), ∃ x, x = ofBits 40 (getBits v 7 0 * 2 ^ 32 + (s.reg pgRefs 0x068).toNat) ∧
      s.live = true ∧ granted s m = true ∧ s.is pgRefs F.refsStatStepPending = true) ∧
  (∃ (s : State) (m : Master) (v : Word), ∃ x, x = ofBits 40 (getBits v 7 0 * 2 ^ 32 + (s.reg pgRefs 0x068).toNat) ∧
      s.live = true ∧ granted s m = true ∧ s.is pgRefs F.refsStatStepPending = false ∧ x.natAbs ≤ stepLimit ∧
      (dpll s = 1 ∨ dpll s = 2)) ∧
  (∃ (s : State) (m : Master) (v : Word), ∃ x, x = ofBits 40 (getBits v 7 0 * 2 ^ 32 + (s.reg pgRefs 0x068).toNat) ∧
      s.live = true ∧ granted s m = true ∧ s.is pgRefs F.refsStatStepPending = false ∧ (stepLimit < x.natAbs ∨
      dpll s = 0 ∨ dpll s = 3)) ∧
  (∃ (s : State) (m : Master) (v : Word), ∃ x, x = ofBits 40 (getBits v 7 0 * 2 ^ 32 + (s.reg pgMcg 0x048).toNat) ∧
      s.live = true ∧ granted s m = true ∧ x.natAbs ≤ stepLimit) ∧
  (∃ (s : State) (m : Master) (v : Word), ∃ x, x = ofBits 40 (getBits v 7 0 * 2 ^ 32 + (s.reg pgMcg 0x048).toNat) ∧
      s.live = true ∧ granted s m = true ∧ stepLimit < x.natAbs) ∧
  (∃ (s : State) (m : Master), s.live = true ∧ granted s m = true ∧ s.running pgMcg = true) ∧
  (∃ (s : State) (m : Master), s.live = true ∧ granted s m = true ∧ s.running pgMcg = false) ∧
  (∃ (s : State) (m : Master), s.live = true ∧ granted s m = true ∧ s.running pgMcg = true ∧ s.dev.runReq = false ∧
      s.devState ≠ 3 ∧ refSel s = 0 ∧ dpll s = 2) ∧
  (∃ (s : State) (m : Master), s.live = true ∧ granted s m = true ∧ (refSel s ≠ 0 ∨ dpll s ≠ 2)) ∧
  (∃ (s : State) (m : Master), s.live = true ∧ granted s m = true) :=
  ⟨⟨refs 7 2 1 2, by decide +kernel⟩,
   ⟨(refs 7 3 2 7).setF pgRefs F.refsPherrErr 0x7FFFFFFF, by decide +kernel⟩,
   ⟨(refs 7 3 2 7).setF pgRefs F.refsPherrErr 0x7FFFFFFF, by decide +kernel⟩,
   ⟨(refs 2 3 2 2).setF pgRefs F.refsStatStepPending 1, Master.hif, 0x00000000#32, _, rfl, by decide +kernel⟩,
   ⟨(refs 7 3 2 7).setF pgRefs F.refsPherrErr 0x7FFFFFFF, Master.hif, 0x00000000#32, _, rfl, by decide +kernel⟩,
   ⟨(refs 7 3 2 7).setF pgRefs F.refsPherrErr 0x7FFFFFFF, Master.hif, 0x00000001#32, _, rfl, by decide +kernel⟩,
   ⟨(refs 7 3 2 7).setF pgRefs F.refsPherrErr 0x7FFFFFFF, Master.hif, 0x00000000#32, _, rfl, by decide +kernel⟩,
   ⟨(refs 7 3 2 7).setF pgRefs F.refsPherrErr 0x7FFFFFFF, Master.hif, 0x00000001#32, _, rfl, by decide +kernel⟩,
   ⟨(refs 7 3 2 7).setF pgRefs F.refsPherrErr 0x7FFFFFFF, Master.hif, by decide +kernel⟩,
   ⟨(base.setF pgMcg F.ctrlEn 0).setF pgMcg F.statRun 0, Master.hif, by decide +kernel⟩,
   ⟨(runs pgMcg (refs 0 3 2 0)).setF pgDev F.devStateState 2, Master.hif, by decide +kernel⟩,
   ⟨(refs 7 3 2 7).setF pgRefs F.refsPherrErr 0x7FFFFFFF, Master.hif, by decide +kernel⟩,
   ⟨(refs 7 3 2 7).setF pgRefs F.refsPherrErr 0x7FFFFFFF, Master.hif, by decide +kernel⟩⟩

/-- States and operands that meet the hypotheses of AuxenosHeaderReadsBackAsMade. -/
theorem witness_AuxenosHeaderReadsBackAsMade :
  ∃ (h : AuxHdr), h.version < 16 ∧ h.type < 16 ∧ h.node < 1024 ∧ h.stream < 4096 ∧ h.seq < 65536 ∧ h.tick < 2 ^ 48 ∧
      h.chanCount < 128 ∧ h.firstChan < 64 ∧ h.domain < 4 ∧ h.chans < 128 ∧ h.payLen < 2048 :=
  ⟨{ version := 1, type := 1, spec := false, muted := false, lastSeg := false, ashOk := false, node := 3, stream := 9, seq := 1, tick := 5, chanCount := 2, firstChan := 0, claim := 0x00000000#32, domain := 0, fmt32 := false, chans := 2, payLen := 12, hi := 0x00000000#32, lo := 0x00000000#32 }, by decide +kernel⟩

/-- States and operands that meet the hypotheses of ContextEntriesLoadKindAndEnable. -/
theorem witness_ContextEntriesLoadKindAndEnable :
  (∃ (s : State) (m : Master) (egress : Bool) (c : CtxIx) (v : Word), ∃ page ofs enOfs,
      page = (if egress then 0x35 else 0x31) + c.val / 128 ∧ ofs = c.val % 128 * 32 ∧
      enOfs = ofs + (if egress then 12 else 8) ∧ granted s m = true ∧ (s.reg page enOfs).getLsbD 31 = false ∧
      getBits v 29 28 < 2) ∧
  (∃ (s : State) (m : Master) (egress : Bool) (c : CtxIx) (v : Word), ∃ page ofs enOfs,
      page = (if egress then 0x35 else 0x31) + c.val / 128 ∧ ofs = c.val % 128 * 32 ∧
      enOfs = ofs + (if egress then 12 else 8) ∧ granted s m = true ∧ (s.reg page enOfs).getLsbD 31 = false ∧
      2 ≤ getBits v 29 28) ∧
  (∃ (s : State) (m : Master) (egress : Bool) (c : CtxIx), ∃ page ofs enOfs,
      page = (if egress then 0x35 else 0x31) + c.val / 128 ∧ ofs = c.val % 128 * 32 ∧
      enOfs = ofs + (if egress then 12 else 8) ∧ granted s m = true ∧ (s.reg page enOfs).getLsbD 31 = true) ∧
  (∃ (s : State) (m : Master) (egress : Bool) (c : CtxIx) (v : Word), ∃ page ofs enOfs,
      page = (if egress then 0x35 else 0x31) + c.val / 128 ∧ ofs = c.val % 128 * 32 ∧
      enOfs = ofs + (if egress then 12 else 8) ∧ granted s m = true ∧ v.getLsbD 31 = false) ∧
  (∃ (s : State) (m : Master) (egress : Bool) (c : CtxIx) (v : Word), ∃ page ofs enOfs,
      page = (if egress then 0x35 else 0x31) + c.val / 128 ∧ ofs = c.val % 128 * 32 ∧
      enOfs = ofs + (if egress then 12 else 8) ∧ granted s m = true ∧ v.getLsbD 31 = true ∧
      (s.reg page enOfs).getLsbD 31 = false ∧
      ((if egress then egrOk s c else ingOk s c v && (ingPortVeto s page enOfs v).isNone) = true)) ∧
  (∃ (s : State) (m : Master) (egress : Bool) (c : CtxIx) (v : Word), ∃ page ofs enOfs,
      page = (if egress then 0x35 else 0x31) + c.val / 128 ∧ ofs = c.val % 128 * 32 ∧
      enOfs = ofs + (if egress then 12 else 8) ∧ granted s m = true ∧ v.getLsbD 31 = true ∧
      (s.reg page enOfs).getLsbD 31 = false ∧ ((if egress then egrOk s c else ingOk s c v) = false)) :=
  ⟨⟨s0, Master.hif, false, 1, 0x00000000#32, _, _, _, rfl, rfl, rfl, by decide +kernel⟩,
   ⟨s0, Master.hif, false, 1, 0x20000000#32, _, _, _, rfl, rfl, rfl, by decide +kernel⟩,
   ⟨s0, Master.hif, false, 0, _, _, _, rfl, rfl, rfl, by decide +kernel⟩,
   ⟨s0, Master.hif, false, 0, 0x00000000#32, _, _, _, rfl, rfl, rfl, by decide +kernel⟩,
   ⟨sending { tick := 4, seg := 0 }, Master.hif, true, 0, 0x80000000#32, _, _, _, rfl, rfl, rfl, by decide +kernel⟩,
   ⟨s0, Master.hif, false, 1, 0x80000000#32, _, _, _, rfl, rfl, rfl, by decide +kernel⟩⟩

/-- States and operands that meet the hypotheses of StreamFramesAreHandedOnAsTheyCome. -/
theorem witness_StreamFramesAreHandedOnAsTheyCome :
  (∃ (s : State) (q : Port) (bytes : List Byte), ∃ c h, h = auxParse (auxOf bytes).raw ∧ s.live = true ∧
      streamCtx s q bytes = some c ∧ portUp s q = true ∧ draining s (pgLink q) = false ∧ (s.port q).rxOpen = none ∧
      (dueOf s c h < strgTick s ∨ (s.ing c).done = some (dueOf s c h))) ∧
  (∃ (s : State) (q : Port) (bytes : List Byte), ∃ c h, h = auxParse (auxOf bytes).raw ∧ s.live = true ∧
      streamCtx s q bytes = some c ∧ portUp s q = true ∧ draining s (pgLink q) = false ∧ (s.port q).rxOpen = none ∧
      strgTick s ≤ dueOf s c h ∧ (s.ing c).done ≠ some (dueOf s c h) ∧ badHeader s c h = true) ∧
  (∃ (s : State) (q : Port) (bytes : List Byte), ∃ c h, h = auxParse (auxOf bytes).raw ∧ s.live = true ∧
      streamCtx s q bytes = some c ∧ portUp s q = true ∧ draining s (pgLink q) = false ∧ (s.port q).rxOpen = none ∧
      strgTick s ≤ dueOf s c h ∧ (s.ing c).done ≠ some (dueOf s c h) ∧ badHeader s c h = false) ∧
  (∃ (s : State) (q : Port) (bytes : List Byte), ∃ o h, h = auxParse o.hdr ∧ s.live = true ∧ (s.port q).rxOpen = some o ∧
      portUp s q = true ∧ o.role = 1 ∧ o.done = 0 ∧ o.shut = false ∧ bytes.length ≤ s.act (pgLink q) F.macMaxlenMaxlen ∧
      h.type = tMedia ∧ 1 ≤ h.chanCount ∧ cutThrough s o.ctx = true ∧ ingBit s o.ctx F.ing0W3ClaimMode = false ∧
      dueOf s o.ctx h = strgTick s ∧ (s.ing o.ctx).done ≠ some (strgTick s) ∧
      1 ≤ (bytes.length - (l3Ofs bytes + 32)) / (samplesOf (ingGet s o.ctx F.ing0W1Domain) * smpBytes h.fmt32) ∧
      (blkAt s o.ctx (strgTick s) h.firstChan).st = .none ∧ (blkAt s o.ctx (strgTick s) h.firstChan).final = none ∧
      (blkAt s o.ctx (strgTick s) h.firstChan).refused = false ∧
      (∀ e ∈ s.strm.cones.get [] (ingStrip s o.ctx + h.firstChan), e.2 ≤ s.strm.ledger.get 0 e.1)) ∧
  (∃ (s : State) (c : CtxIx), ∃ d, s.live = true ∧ predictOf s c 0 = some d ∧ cutThrough s c = true ∧
      s.running pgStrg = true ∧ s.actIs pgSpx F.spxCfgPredEn = true ∧ (s.ing c).done ≠ some (strgTick s) ∧
      ((s.ing c).state = 2 ∨ (s.ing c).state = 3) ∧ 1 ≤ ingChans s c ∧ (blkAt s c (strgTick s) 0).st = .none ∧
      (blkAt s c (strgTick s) 0).refused = false ∧ (blkAt s c (strgTick s) 0).final = none ∧
      (∀ e ∈ s.strm.cones.get [] (ingStrip s c), e.2 ≤ s.strm.ledger.get 0 e.1)) :=
  ⟨⟨s0, 0, [0x02#8, 0x00#8, 0x00#8, 0x00#8, 0x00#8, 0x01#8, 0x02#8, 0x00#8, 0x00#8, 0x00#8, 0x00#8, 0x02#8, 0x88#8,
      0xb5#8, 0x11#8, 0x00#8, 0x00#8, 0x03#8, 0x00#8, 0x90#8, 0x00#8, 0x01#8, 0x00#8, 0x00#8, 0x00#8, 0x00#8, 0x00#8,
      0x03#8, 0x02#8, 0x00#8, 0x00#8, 0x00#8, 0x00#8, 0x00#8, 0x00#8, 0x02#8, 0x00#8, 0x0c#8, 0x00#8, 0x00#8, 0x00#8,
      0x00#8, 0x00#8, 0x00#8, 0x00#8, 0x00#8], 0, _, rfl, by decide +kernel⟩,
   ⟨s0, 0, [0x02#8, 0x00#8, 0x00#8, 0x00#8, 0x00#8, 0x01#8, 0x02#8, 0x00#8, 0x00#8, 0x00#8, 0x00#8, 0x02#8, 0x88#8,
      0xb5#8, 0x11#8, 0x00#8, 0x00#8, 0x03#8, 0x00#8, 0x90#8, 0x00#8, 0x01#8, 0x00#8, 0x00#8, 0x00#8, 0x00#8, 0x00#8,
      0x28#8, 0x02#8, 0x00#8, 0x00#8, 0x00#8, 0x00#8, 0x00#8, 0x00#8, 0x02#8, 0x00#8, 0x0c#8, 0x00#8, 0x00#8, 0x00#8,
      0x00#8, 0x00#8, 0x00#8, 0x00#8, 0x00#8], 0, _, rfl, by decide +kernel⟩,
   ⟨s0, 0, [0x02#8, 0x00#8, 0x00#8, 0x00#8, 0x00#8, 0x01#8, 0x02#8, 0x00#8, 0x00#8, 0x00#8, 0x00#8, 0x02#8, 0x88#8,
      0xb5#8, 0x11#8, 0x00#8, 0x00#8, 0x03#8, 0x00#8, 0x90#8, 0x00#8, 0x01#8, 0x00#8, 0x00#8, 0x00#8, 0x00#8, 0x00#8,
      0x05#8, 0x02#8, 0x00#8, 0x00#8, 0x00#8, 0x00#8, 0x00#8, 0x00#8, 0x02#8, 0x00#8, 0x0c#8, 0x00#8, 0x00#8, 0x00#8,
      0x00#8, 0x00#8, 0x00#8, 0x00#8, 0x00#8], 0, _, rfl, by decide +kernel⟩,
   ⟨s0.setPort 0 (fun x => { x with rxOpen := some { hdr := auxBytes (mediaHdr 4), ctx := 0, role := 1 } }), 0, [0x02#8,
      0x00#8, 0x00#8, 0x00#8, 0x00#8, 0x01#8, 0x02#8, 0x00#8, 0x00#8, 0x00#8, 0x00#8, 0x02#8, 0x88#8, 0xb5#8, 0x11#8,
      0x00#8, 0x00#8, 0x03#8, 0x00#8, 0x90#8, 0x00#8, 0x01#8, 0x00#8, 0x00#8, 0x00#8, 0x00#8, 0x00#8, 0x05#8, 0x02#8,
      0x00#8, 0x00#8, 0x00#8, 0x00#8, 0x00#8, 0x00#8, 0x02#8, 0x00#8, 0x0c#8, 0x00#8, 0x00#8, 0x00#8, 0x00#8, 0x00#8,
      0x00#8, 0x00#8, 0x00#8, 0x00#8, 0x01#8, 0x02#8, 0x03#8, 0x04#8, 0x05#8],
      { hdr := [0x11#8, 0x00#8, 0x00#8, 0x03#8, 0x00#8, 0x90#8, 0x00#8, 0x01#8, 0x00#8, 0x00#8, 0x00#8, 0x00#8, 0x00#8, 0x04#8, 0x02#8, 0x00#8, 0x00#8, 0x00#8, 0x00#8, 0x00#8, 0x00#8, 0x02#8, 0x00#8, 0x0c#8, 0x00#8, 0x00#8, 0x00#8, 0x00#8, 0x00#8, 0x00#8, 0x00#8, 0x00#8], ctx := 0, role := 1, done := 0, shut := false }, _, rfl, by decide +kernel⟩,
   ⟨s0, 0, [0, 0], by decide +kernel⟩⟩

/-- States and operands that meet the hypotheses of CommitDeadlineCommitsOrConceals. -/
theorem witness_CommitDeadlineCommitsOrConceals :
  (∃ (s : State) (c : CtxIx) (ds : Nat → List Int), s.live = true ∧ (s.ing c).accepted = true ∧ ingKind s c = 0 ∧
      lockstep s (ingGroup s c) = false ∧ (s.ing c).state = 2 ∧ (s.ing c).fade = false ∧
      (s.ing c).done ≠ some (strgTick s) ∧ (∀ ch, ch < ingChans s c → (blkAt s c (strgTick s) ch).final = some (ds ch) ∧
      (blkAt s c (strgTick s) ch).st = .none)) ∧
  (∃ (s : State) (c : CtxIx), s.live = true ∧ (s.ing c).accepted = true ∧ ingKind s c = 0 ∧
      lockstep s (ingGroup s c) = false ∧ (s.ing c).state = 2 ∧ (s.ing c).fade = false ∧
      (s.ing c).done ≠ some (strgTick s) ∧ ingBit s c F.ing0W3ClaimMode = false ∧ (s.ing c).force = false ∧
      (s.ing c).misses < 2 ∧ (∃ ch, ch < ingChans s c ∧ (blkAt s c (strgTick s) ch).final = none)) :=
  ⟨⟨ctx0 (fun x => { x with blocks := [{ due := 5, chan := 0, final := some [1, 2] }, { due := 5, chan := 1, final := some [1, 2] }] }) streaming, 0, fun _ => [1, 2], by decide +kernel⟩,
   ⟨s0, 0, by decide +kernel⟩⟩

/-- States and operands that meet the hypotheses of SegmentsAndPacketsLeaveInTheirForm. -/
theorem witness_SegmentsAndPacketsLeaveInTheirForm :
  (∃ (s : State) (c : CtxIx) (seg : Fin 4), ∃ e d, s.live = true ∧ s.running pgStrg = true ∧ (s.egr c).accepted = true ∧
      (s.egr c).segs.find? (fun e => e.seg == seg.val && !e.sent && (mutedTick s c e.tick || !sendsSpec s c)) = some e ∧
      egrKind s c = 0 ∧ e.tick < s.arch.began.get 0 pgLatg ∧
      egrData s c e.tick (segChans s c seg).1 (segChans s c seg).2 (mutedTick s c e.tick) = some (some d)) ∧
  (∃ (s : State) (c : CtxIx) (seg : Fin 4), ∃ e, s.live = true ∧ s.running pgStrg = true ∧ (s.egr c).accepted = true ∧
      (s.egr c).segs.find? (fun e => e.seg == seg.val && !e.sent && e.tick == s.arch.began.get 0 pgLatg) = some e ∧
      sendsSpec s c = true ∧ mutedTick s c e.tick = false ∧
      (rawOut s (egrGet s c F.egr0W0StripBase + (segChans s c seg).1) e.tick).isSome = true) ∧
  (∃ (s : State) (c : CtxIx) (seg : Fin 4), ∃ e d, s.live = true ∧ s.running pgStrg = true ∧ (s.egr c).accepted = true ∧
      (s.egr c).segs.find? (fun e => e.seg == seg.val && e.stomped != 0) = some e ∧ egrKind s c = 0 ∧
      e.tick < s.arch.began.get 0 pgLatg ∧
      egrData s c e.tick (segChans s c seg).1 (segChans s c seg).2 (mutedTick s c e.tick) = some (some d)) ∧
  (∃ (s : State) (c : CtxIx), ∃ e d, s.live = true ∧ s.running pgStrg = true ∧ (s.egr c).accepted = true ∧
      (s.egr c).segs.find? (fun e => e.ash) = some e ∧ egrKind s c = 0 ∧ muteHeld s c e.tick = false ∧
      egrData s c e.tick 0 (egrGet s c F.egr0W2Channels) false = some (some d)) ∧
  (∃ (s : State) (c : CtxIx), ∃ n len p, n = samplesOf (egr1Dom s c) ∧ len = egr1Len s c ∧ p = (s.egr c).packet ∧
      s.live = true ∧ s.running pgStrg = true ∧ (s.egr c).accepted = true ∧ egrKind s c = 1 ∧ draining s pgStrg = false ∧
      0 < n ∧ 0 < len ∧ (∀ ch tick,
      ch ≤ egrGet s c F.egr1W2Chanm1 → p * len / n ≤ tick → tick ≤ (p * len + len - 1) / n → tick < s.arch.began.get 0 pgLatg ∧ (mutedTick s c tick = true ∨ (chanOut s (egrGet s c F.egr1W2StripBase + ch) (egr1Dom s c) tick).isSome = true))) :=
  ⟨⟨sending { tick := 4, seg := 0 }, 0, 0,
      { tick := 4, seg := 0, seqNo := 0, spec := false, formed := false, ash := false, stomped := 0x0#4, stale := 0x0000000000000000#64, sent := false, ghost := 0x0#4 }, [[1, 2, 3, 4], [1, 2, 3, 4]], by decide +kernel⟩,
   ⟨(egrSet (egrSet (sending { tick := 5, seg := 0 }) 0 F.egr0W0SpecOut 1) 0 F.egr0W0PeerAsh 1), 0, 0,
      { tick := 5, seg := 0, seqNo := 0, spec := false, formed := false, ash := false, stomped := 0x0#4, stale := 0x0000000000000000#64, sent := false, ghost := 0x0#4 }, by decide +kernel⟩,
   ⟨sending { tick := 4, seg := 0, stomped := 1, sent := true }, 0, 0,
      { tick := 4, seg := 0, seqNo := 0, spec := false, formed := false, ash := false, stomped := 0x1#4, stale := 0x0000000000000000#64, sent := true, ghost := 0x0#4 }, [[1, 2, 3, 4], [1, 2, 3, 4]], by decide +kernel⟩,
   ⟨sending { tick := 4, seg := 0, ash := true, stale := 1, sent := true }, 0,
      { tick := 4, seg := 0, seqNo := 0, spec := false, formed := false, ash := true, stomped := 0x0#4, stale := 0x0000000000000001#64, sent := true, ghost := 0x0#4 }, [[1, 2, 3, 4], [1, 2, 3, 4]], by decide +kernel⟩,
   ⟨egr1, 0, _, _, _, rfl, rfl, rfl, by decide +kernel, by decide +kernel, by decide +kernel, by decide +kernel,
      by decide +kernel, by decide +kernel, by decide +kernel,
      fun _ tick _ _ h =>
        have k : tick < 50 := Nat.lt_of_le_of_lt h (by decide +kernel)
        ⟨k, .inl ((by decide +kernel : ∀ n < 50, mutedTick egr1 0 n = true) tick k)⟩⟩⟩

/-- States and operands that meet the hypotheses of RerunsHoldsAndConeTableEnd. -/
theorem witness_RerunsHoldsAndConeTableEnd :
  (∃ (s : State), ∃ dead r rest, s.live = true ∧ rerunSplit s = (dead, r :: rest) ∧ r.running = false ∧
      s.running pgLatg = true) ∧
  (∃ (s : State), ∃ dead r rest, s.live = true ∧ rerunSplit s = (dead, r :: rest) ∧ r.running = true ∧
      memStalled s = false) ∧
  (∃ (s : State) (c : CtxIx), s.live = true ∧ s.strm.holds.find c = some 0) ∧
  (∃ (s : State) (m : Master) (c : CtxIx), s.live = true ∧ granted s m = true ∧ (s.strm.holds.find c).isSome = true) ∧
  (∃ (s : State), s.live = true ∧ s.strm.coneBusy = true ∧ s.running pgSpx = true ∧ s.resetting pgSpx = false ∧
      memStalled s = false) :=
  ⟨⟨{ s0 with strm := { s0.strm with reruns := [{ tick := 5, resv := [(0, 5)] }, {}] } }, [],
      { tick := 5, strips := [], tasks := [], resv := [(0, 5)], running := false, forming := false, lost := false },
      [{ tick := 0, strips := [], tasks := [], resv := [], running := false, forming := false, lost := false }],
      by decide +kernel⟩,
   ⟨{ s0 with strm := { s0.strm with ledgerTick := some 5, reruns := [{ tick := 5, running := true, resv := [(0, 5)] }, {}] } }, [], { tick := 5, strips := [], tasks := [], resv := [(0, 5)], running := true, forming := false, lost := false }, [{ tick := 0, strips := [], tasks := [], resv := [], running := false, forming := false, lost := false }], by decide +kernel⟩,
   ⟨{ s0 with strm := { s0.strm with holds := [(0, 0), (3, 4)], coneBusy := true } }, 0, by decide +kernel⟩,
   ⟨{ s0 with strm := { s0.strm with holds := [(0, 0), (3, 4)], coneBusy := true } }, Master.hif, 0, by decide +kernel⟩,
   ⟨{ s0 with strm := { s0.strm with holds := [(0, 0), (3, 4)], coneBusy := true } }, by decide +kernel⟩⟩

/-- States and operands that meet the hypotheses of TasksStartFinishAndPost. -/
theorem witness_TasksStartFinishAndPost :
  (∃ (s : State) (tl : TileIx), ∃ i, s.live = true ∧ memStalled s = false ∧ tileRuns s tl = true ∧
      (s.tile tl).begun = true ∧ (s.tile tl).cur = none ∧
      (List.range (s.tile tl).tasks.length).find? (taskReady s tl) = some i ∧
      ((inputsOf s tl i).getD []).any (·.absent) = false) ∧
  (∃ (s : State) (tl : TileIx), ∃ i, s.live = true ∧ memStalled s = false ∧ tileRuns s tl = true ∧
      (s.tile tl).begun = true ∧ (s.tile tl).cur = none ∧
      (List.range (s.tile tl).tasks.length).find? (taskReady s tl) = some i ∧
      ((inputsOf s tl i).getD []).any (·.absent) = true) ∧
  (∃ (s : State) (tl : TileIx) (r : TaskRun), ∃ i, ∃ (b : Nat), b = (s.taskAt tl i).task.postBar ∧ s.live = true ∧
      memStalled s = false ∧ tileRuns s tl = true ∧ (s.tile tl).cur = some i ∧ i < (s.tile tl).tasks.length ∧ (∀ x,
      r.ecc = some x → x.uncorr = false)) ∧
  (∃ (s : State) (tl : TileIx) (r : TaskRun), ∃ i x, s.live = true ∧ memStalled s = false ∧ tileRuns s tl = true ∧
      (s.tile tl).cur = some i ∧ r.ecc = some x ∧ x.uncorr = true) ∧
  (∃ (s : State) (tl : TileIx), ∃ slot b rest, s.live = true ∧ (s.tile tl).ring = (slot, b) :: rest) :=
  ⟨⟨t0, 0, 0, by decide +kernel⟩,
   ⟨tiling { tick := 5, absent := true }, 0, 0, by decide +kernel⟩,
   ⟨busyT, 0, { cycles := 5, ecc := none }, 0, _, rfl, by decide +kernel⟩,
   ⟨busyT, 0, { cycles := 5, ecc := some { ofs := 0x00003#18, uncorr := true } }, 0,
      { ofs := 0x00003#18, uncorr := true }, by decide +kernel⟩,
   ⟨t0.setTile 0 (fun x => { x with ring := [(2, { tick := 5, data := [9] })] }), 0, 2,
      { tick := 5, absent := false, st := BlkState.none, data := [9], src := none }, [], by decide +kernel⟩⟩

/-- States and operands that meet the hypotheses of ImagesAreCheckedStagedAndPreloaded. -/
theorem witness_ImagesAreCheckedStagedAndPreloaded :
  (∃ (s : State) (m : Master), s.live = true ∧ granted s m = true ∧ (s.running pgLatg && draining s pgLatg) = false ∧
      s.is pgLatg F.latgCheckBusy = false) ∧
  (∃ (s : State) (m : Master), s.live = true ∧ granted s m = true ∧ s.is pgLatg F.latgCheckBusy = true) ∧
  (∃ (s : State) (m : Master) (v : Word), s.live = true ∧ granted s m = true ∧ s.is pgLatg F.cmtPending = false ∧
      getBits v 4 0 = 0) ∧
  (∃ (s : State) (m : Master) (v : Word), s.live = true ∧ granted s m = true ∧ s.is pgLatg F.cmtPending = false ∧
      getBits v 4 0 ≠ 0) ∧
  (∃ (s : State) (m : Master), s.live = true ∧ granted s m = true ∧ s.is pgLatg F.cmtPending = true) ∧
  (∃ (s : State) (m : Master) (mode : BitVec 2), s.live = true ∧ granted s m = true ∧ mode ≠ 3) ∧
  (∃ (s : State) (m : Master), s.live = true ∧ granted s m = true) ∧
  (∃ (s : State), ∃ r tile task, s.live = true ∧ s.is pgLatg F.latgCheckBusy = true ∧ s.lat.checkDue = false ∧
      s.resetting pgLatg = false ∧ s.lat.goMem = b1Cells s.mem ∧ checkImage s (stagedBase s) = (r, tile, task)) ∧
  (∃ (s : State), s.live = true ∧ s.lat.staging = true ∧ s.is pgLatg F.latgStagePreloadDone = false ∧
      memStalled s = false) ∧
  (∃ (s : State) (tl : TileIx), s.live = true ∧ s.is (pgTile tl) F.tileBistBusy = true ∧ redState s ≠ 2 ∧
      s.act (pgTile tl) F.tileBistMode ≠ 2) :=
  ⟨⟨t0, Master.hif, by decide +kernel⟩,
   ⟨t0.setF pgLatg F.latgCheckBusy 1, Master.hif, by decide +kernel⟩,
   ⟨t0, Master.hif, 0x00000000#32, by decide +kernel⟩,
   ⟨t0, Master.hif, 0x00000001#32, by decide +kernel⟩,
   ⟨t0.setF pgLatg F.cmtPending 1, Master.hif, by decide +kernel⟩,
   ⟨t0, Master.hif, 0x0#2, by decide +kernel⟩,
   ⟨t0, Master.hif, by decide +kernel⟩,
   ⟨t0.setF pgLatg F.latgCheckBusy 1, 1, 0, 0, by decide +kernel⟩,
   ⟨{ t0 with lat.staging := true }, by decide +kernel⟩,
   ⟨t0.setF (pgTile 0) F.tileBistBusy 1, 0, by decide +kernel⟩⟩

/-- States and operands that meet the hypotheses of TdmFramesEnterAndLeaveTheFifos. -/
theorem witness_TdmFramesEnterAndLeaveTheFifos :
  (∃ (s : State) (n : Fin 16) (p : Nat) (w : SerialFrame) (f : List Int), p = pgTdm n ∧
      f = (bitList 32 (s.act p F.tdmRxMaskSlots)).map (fun k => ofBits (slotWidth (s.act p F.tdmCfgWidth)) (at0 ((tdmSlots s p w.bits).map Int.ofNat) k).toNat * (2 ^ (32 - slotWidth (s.act p F.tdmCfgWidth)) : Nat)) ∧ s.live = true ∧ s.running p = true ∧ tdmWhole s p w = true ∧ rxOn s p = true ∧ s.actIs p F.ctrlDrain = false ∧ 1 ≤ rxState s p ∧ rxState s p ≤ 4 ∧ (s.aud p).rx.length < 32) ∧
  (∃ (s : State) (n : Fin 16) (p : Nat) (w : SerialFrame) (f : List Int), p = pgTdm n ∧
      f = (bitList 32 (s.act p F.tdmRxMaskSlots)).map (fun k => ofBits (slotWidth (s.act p F.tdmCfgWidth)) (at0 ((tdmSlots s p w.bits).map Int.ofNat) k).toNat * (2 ^ (32 - slotWidth (s.act p F.tdmCfgWidth)) : Nat)) ∧ s.live = true ∧ s.running p = true ∧ tdmWhole s p w = true ∧ rxOn s p = true ∧ s.actIs p F.ctrlDrain = false ∧ 1 ≤ rxState s p ∧ rxState s p ≤ 4 ∧ 32 ≤ (s.aud p).rx.length) ∧
  (∃ (s : State) (n : Fin 16) (p : Nat), p = pgTdm n ∧ s.live = true ∧ s.running p = true ∧
      s.actIs p F.tdmCfgMaster = false ∧ 1 ≤ rxState s p ∧ rxState s p ≤ 4) ∧
  (∃ (s : State) (n : Fin 16) (p : Nat), p = pgTdm n ∧ s.live = true ∧ s.running p = true ∧
      s.actIs p F.tdmCfgMaster = false ∧ rxOn s p = false ∧ rxState s p = 0 ∧ 1 ≤ txState s p ∧ txState s p ≤ 3 ∧
      (s.aud p).raisedTick ≠ s.time.tick) ∧
  (∃ (s : State) (n : Fin 16) (p : Nat), p = pgTdm n ∧ s.live = true ∧ s.running p = true ∧
      s.actIs p F.tdmCfgMaster = false ∧ (s.aud p).lost = false ∧ 1 ≤ rxState s p ∧ rxState s p ≤ 4) ∧
  (∃ (s : State) (n : Fin 16) (p : Nat) (cyc : BitVec 14), p = pgTdm n ∧ s.live = true ∧ s.running p = true ∧
      s.actIs p F.tdmCfgMaster = true ∧ outSince s (tdmPeriod s p) 0 cyc.toNat ≠ 0) ∧
  (∃ (s : State) (n : Fin 16) (p : Nat) (cyc : BitVec 14), ∃ f rest, ∃ (w : Nat), p = pgTdm n ∧
      w = slotWidth (s.act p F.tdmCfgWidth) ∧ s.live = true ∧ s.running p = true ∧
      (s.actIs p F.tdmCfgMaster = true → outSince s (tdmPeriod s p) 0 cyc.toNat = 0) ∧ txOn s p = true ∧ txState s p = 3 ∧
      (s.aud p).overDue = false ∧ s.flt.safeOut = false ∧ (s.aud p).outHeld = false ∧ (s.aud p).outRamp = 0 ∧
      (s.aud p).tx = f :: rest) ∧
  (∃ (s : State) (n : Fin 16) (p : Nat) (cyc : BitVec 14), p = pgTdm n ∧ s.live = true ∧ s.running p = true ∧
      (s.actIs p F.tdmCfgMaster = true → outSince s (tdmPeriod s p) 0 cyc.toNat = 0) ∧ txOn s p = true ∧ txState s p = 3 ∧
      (s.aud p).overDue = false ∧ s.flt.safeOut = false ∧ (s.aud p).outHeld = false ∧ (s.aud p).outRamp = 0 ∧
      (s.aud p).tx = []) :=
  ⟨⟨tdm 3 1 id, 0, _, wire 1024, _, rfl, rfl, by decide +kernel⟩,
   ⟨tdm 3 1 (fun x => { x with rx := full }), 0, _, wire 1024, _, rfl, rfl, by decide +kernel⟩,
   ⟨asrcing 1, 0, _, rfl, by decide +kernel⟩,
   ⟨(tdm 0 1 (fun x => { x with raisedTick := 9 })).setF (pgTdm 0) F.tdmRxRxEn 0, 0, _, rfl, by decide +kernel⟩,
   ⟨asrcing 1, 0, _, rfl, by decide +kernel⟩,
   ⟨(tdm 1 3 id).setF (pgTdm 0) F.tdmCfgMaster 1, 0, _, 0x0001#14, rfl, by decide +kernel⟩,
   ⟨tdm 2 3 (fun x => { x with tx := [[5, 6], [7, 8]], raisedTick := 9 }), 0, _, 0x0000#14, [5, 6], [[7, 8]], _, rfl, rfl,
      by decide +kernel⟩,
   ⟨(tdm 1 3 id).setF (pgTdm 0) F.tdmCfgMaster 1, 0, _, 0x0000#14, rfl, by decide +kernel⟩⟩

/-- States and operands that meet the hypotheses of Aes3SubframesLockAndTransmit. -/
theorem witness_Aes3SubframesLockAndTransmit :
  (∃ (s : State) (n : Fin 4), s.live = true ∧ s.running (pgAesi n) = true) ∧
  (∃ (s : State) (n : Fin 4), ∃ (pre : Preamble) (bits : BitVec 28) (biphase : Bool) (smp : Int), pre = .y ∧ smp = (if popCount 28 bits.toNat % 2 = 1 ∨
      biphase = true ∨ (bits.getLsbD 24 = true ∧
      s.actIs (pgAesi n) F.aesiCfgVBad = true) then (s.aud (pgAesi n)).prevB else ofBits 24 (bits.toNat % 2 ^ 24) * 256) ∧
      s.live = true ∧ s.running (pgAesi n) = true ∧ (s.aud (pgAesi n)).haveA = true ∧
      s.actIs (pgAesi n) F.ctrlDrain = false ∧ (biphase = false ∧ (s.aud (pgAesi n)).badA = false ∨
      (s.aud (pgAesi n)).badRun < 2) ∧ rxOn s (pgAesi n) = true ∧ s.is (pgAesi n) F.aesiStatLock = true ∧
      1 ≤ rxState s (pgAesi n) ∧ rxState s (pgAesi n) ≤ 4 ∧ (s.aud (pgAesi n)).rx.length < 32) ∧
  (∃ (s : State) (n : Fin 4) (hz : BitVec 18), s.live = true ∧ s.running (pgAesi n) = true ∧
      s.is (pgAesi n) F.aesiStatLock = false ∧ (s.aud (pgAesi n)).zGood = 1 ∧ 28000 ≤ hz.toNat ∧ hz.toNat ≤ 216000) ∧
  (∃ (s : State) (n : Fin 4), s.live = true ∧ s.running (pgAesi n) = true ∧ s.is (pgAesi n) F.aesiStatLock = true) ∧
  (∃ (s : State) (n : Fin 4) (cyc : BitVec 14) (k : Nat), k = (s.aud (pgAeso n)).frame ∧ s.live = true ∧
      s.running (pgAeso n) = true ∧
      (s.act (pgAeso n) F.aesoCfgRateSrc = 0 → cyc.toNat % (8192 / 2 ^ audDom s (pgAeso n)) = 0)) :=
  ⟨⟨aesi 1 true (fun x => { x with place := some 5, haveA := true, curA := 99, prevA := 77, prevB := 256 }), 0,
      by decide +kernel⟩,
   ⟨aesi 1 true (fun x => { x with place := some 5, haveA := true }), 0, _, 0, false, _, rfl, rfl, by decide +kernel⟩,
   ⟨aesi 0 false (fun x => { x with zGood := 1 }), 0, 0x0bb80#18, by decide +kernel⟩,
   ⟨aesi 1 true (fun x => { x with place := some 5, haveA := true, curA := 99, prevA := 77, prevB := 256 }), 0,
      by decide +kernel⟩,
   ⟨runs (pgAeso 0) base, 0, 0x0000#14, _, rfl, by decide +kernel⟩⟩

/-- States and operands that meet the hypotheses of AsrcChannelsEnableSettleAndFade. -/
theorem witness_AsrcChannelsEnableSettleAndFade :
  (∃ (s : State) (m : Master) (ch : Fin 64) (v : Word), granted s m = true ∧ s.is pgAsrc (F.asrcChEnEn.at 16 ch) = false ∧
      (v.getLsbD 31 = true → asrcOk s ch = true)) ∧
  (∃ (s : State) (m : Master) (ch : Fin 64) (v : Word), granted s m = true ∧ s.is pgAsrc (F.asrcChEnEn.at 16 ch) = false ∧
      v.getLsbD 31 = true ∧ asrcOk s ch = false) ∧
  (∃ (s : State) (m : Master) (ch : Fin 64), granted s m = true ∧ s.is pgAsrc (F.asrcChEnEn.at 16 ch) = true) ∧
  (∃ (s : State) (ch : Fin 64) (mates : List Nat) (ratio : BitVec 24),
      mates = asrcOf s (asrcF s ch F.asrcChCfgKind) (asrcF s ch F.asrcChCfgPort) ∧ s.live = true ∧
      s.running pgAsrc = true ∧ asrcSt s ch = 1 ∧ asrcSource s ch = true ∧ asrcRateOk s ch ratio.toNat = true ∧
      (∀ k ∈ mates, asrcSt s k ≠ 2 ∧ asrcSt s k ≠ 3)) ∧
  (∃ (s : State) (ch : Fin 64) (mates : List Nat),
      mates = asrcOf s (asrcF s ch F.asrcChCfgKind) (asrcF s ch F.asrcChCfgPort) ∧ s.live = true ∧
      s.running pgAsrc = true) :=
  ⟨⟨(tdm 0 1 (fun x => { x with raisedTick := 9 })).setF (pgTdm 0) F.tdmRxRxEn 0, Master.hif, 0, 0x00000000#32,
      by decide +kernel⟩,
   ⟨(tdm 0 1 (fun x => { x with raisedTick := 9 })).setF (pgTdm 0) F.tdmRxRxEn 0, Master.hif, 0, 0xffffffff#32,
      by decide +kernel⟩,
   ⟨asrcing 1, Master.hif, 0, by decide +kernel⟩,
   ⟨asrcing 1, 0, _, 0x080000#24, rfl, by decide +kernel⟩,
   ⟨asrcing 1, 0, _, rfl, by decide +kernel⟩⟩

/-- States and operands that meet the hypotheses of CarrierPeriodsKeepTheDeadTime. -/
theorem witness_CarrierPeriodsKeepTheDeadTime :
  (∃ (s : State) (ch : Fin 16) (k : Fin 24) (p code len : Nat), p = pgDrv ch ∧ code = s.act p F.drvCfgCarrier ∧
      len = carrierLen code k ∧ s.live = true ∧ s.running p = true ∧ (drvState s ch = 2 ∨ drvState s ch = 3) ∧
      k.val < carrierCount code) ∧
  (∃ (s : State) (ch : Fin 16) (k : Fin 24) (p code len : Nat), p = pgDrv ch ∧ code = s.act p F.drvCfgCarrier ∧
      len = carrierLen code k ∧ s.live = true ∧ (s.running p = false ∨ (drvState s ch ≠ 2 ∧ drvState s ch ≠ 3) ∨
      carrierCount code ≤ k.val)) ∧
  (∃ (s : State) (ch : Fin 16) (k : Fin 24) (p code len : Nat), ∃ i j, p = pgDrv ch ∧ code = s.act p F.drvCfgCarrier ∧
      len = carrierLen code k ∧ i ≤ j + s.act p F.drvCfgDt ∧ j ≤ i + s.act p F.drvCfgDt) :=
  ⟨⟨drive 2 id, 0, 0, _, _, _, rfl, rfl, rfl, by decide +kernel⟩,
   ⟨base, 0, 0, _, _, _, rfl, rfl, rfl, by decide +kernel⟩,
   ⟨base, 0, 0, _, _, _, 0, 0, rfl, rfl, rfl, by decide +kernel⟩⟩

/-- States and operands that meet the hypotheses of DriveChannelsTripRetryAndForce. -/
theorem witness_DriveChannelsTripRetryAndForce :
  (∃ (s : State) (ch : Fin 16) (p n : Nat), p = pgDrv ch ∧ n = s.rd p F.drvStatTrips + 1) ∧
  (∃ (s : State) (ch : Fin 16) (p n : Nat), p = pgDrv ch ∧ n = s.rd p F.drvStatTrips + 1 ∧ s.live = true ∧
      s.running p = true ∧ 1 ≤ drvState s ch ∧ drvState s ch ≤ 3) ∧
  (∃ (s : State) (ch : Fin 16) (p n : Nat), p = pgDrv ch ∧ n = s.rd p F.drvStatTrips + 1 ∧ s.live = true ∧
      s.running p = true ∧ (drvState s ch = 0 ∨ 4 ≤ drvState s ch)) ∧
  (∃ (s : State) (ch : Fin 16) (p n : Nat), p = pgDrv ch ∧ n = s.rd p F.drvStatTrips + 1 ∧ s.live = true ∧
      s.running p = true ∧ drvState s ch = 4) ∧
  (∃ (s : State) (ch : Fin 16) (p n : Nat), p = pgDrv ch ∧ n = s.rd p F.drvStatTrips + 1 ∧ s.live = true ∧
      s.running p = true ∧ drvState s ch = 1 ∧ (s.drv ch).pre = 0) ∧
  (∃ (s : State) (ch : Fin 16) (p n : Nat), p = pgDrv ch ∧ n = s.rd p F.drvStatTrips + 1 ∧ s.live = true ∧
      s.running p = true ∧ drvState s ch = 3) ∧
  (∃ (s : State) (ch : Fin 16) (p n : Nat), p = pgDrv ch ∧ n = s.rd p F.drvStatTrips + 1 ∧ s.live = true ∧
      s.running p = true ∧ (drvState s ch = 2 ∨ drvState s ch = 3) ∧ (s.drv ch).dcN = 9600) ∧
  (∃ (s : State) (m : Master) (ch : Fin 16) (p n : Nat), p = pgDrv ch ∧ n = s.rd p F.drvStatTrips + 1 ∧
      granted s m = true) ∧
  (∃ (s : State) (ch : Fin 16) (p n : Nat), p = pgDrv ch ∧ n = s.rd p F.drvStatTrips + 1 ∧ s.live = true ∧
      s.dev.safePin = false) :=
  ⟨⟨base, 0, _, _, rfl, rfl⟩,
   ⟨drive 1 id, 0, _, _, rfl, rfl, by decide +kernel⟩,
   ⟨drive 4 id, 0, _, _, rfl, rfl, by decide +kernel⟩,
   ⟨drive 4 id, 0, _, _, rfl, rfl, by decide +kernel⟩,
   ⟨drive 1 id, 0, _, _, rfl, rfl, by decide +kernel⟩,
   ⟨drive 3 (fun x => { x with cur := [2^31-1, -2^31, 5, 6], last := 2^31-1 }), 0, _, _, rfl, rfl, by decide +kernel⟩,
   ⟨drive 2 (fun x => { x with dcN := 9600, dcSum := 9600*3000 }), 0, _, _, rfl, rfl, by decide +kernel⟩,
   ⟨base, Master.hif, 0, _, _, rfl, rfl, by decide +kernel⟩,
   ⟨base, 0, _, _, rfl, rfl, by decide +kernel⟩⟩

/-- States and operands that meet the hypotheses of BoostControllersHoldRegulateAndTrip. -/
theorem witness_BoostControllersHoldRegulateAndTrip :
  (∃ (s : State) (g : Fin 4) (p : Nat), p = pgBst g ∧ s.live = true ∧ s.running p = true ∧ bstState s g = 2 ∧
      (s.bst g).hold = 0) ∧
  (∃ (s : State) (g : Fin 4) (p : Nat) (k : Fin 24), p = pgBst g ∧ s.live = true ∧ s.running p = true ∧
      k.val < carrierCount (bstFreq s g)) ∧
  (∃ (s : State) (g : Fin 4) (p : Nat), p = pgBst g ∧ s.live = true ∧ s.running p = true ∧ (s.bst g).on_ ≠ 0 ∧
      (s.bst g).ilim = false) ∧
  (∃ (s : State) (g : Fin 4) (p : Nat), p = pgBst g ∧ s.live = true ∧ s.running p = true ∧ ((s.bst g).on_ = 0 ∨
      (s.bst g).ilim = true)) ∧
  (∃ (s : State) (g : Fin 4) (p : Nat), p = pgBst g ∧ s.live = true ∧ s.running p = true ∧ (bstState s g = 1 ∨
      bstState s g = 2)) ∧
  (∃ (s : State) (g : Fin 4) (p : Nat), p = pgBst g ∧ s.live = true ∧ s.running p = true) ∧
  (∃ (s : State) (g : Fin 4) (p : Nat), p = pgBst g ∧ s.live = true ∧ s.running p = true ∧ (s.bst g).trip = true ∧
      (s.bst g).cool = true) ∧
  (∃ (s : State) (g : Fin 4) (p : Nat), p = pgBst g ∧ s.live = true ∧ s.running p = true ∧ ((s.bst g).trip = false ∨
      (s.bst g).cool = false)) :=
  ⟨⟨boost 2 id, 0, _, rfl, by decide +kernel⟩,
   ⟨boost 1 id, 0, _, 0, rfl, by decide +kernel⟩,
   ⟨boost 1 (fun x => { x with on_ := 5, d := 0x800000 }), 0, _, rfl, by decide +kernel⟩,
   ⟨boost 1 id, 0, _, rfl, by decide +kernel⟩,
   ⟨boost 1 id, 0, _, rfl, by decide +kernel⟩,
   ⟨boost 1 id, 0, _, rfl, by decide +kernel⟩,
   ⟨boost 1 (fun x => { x with trip := true, cool := true }), 0, _, rfl, by decide +kernel⟩,
   ⟨boost 1 id, 0, _, rfl, by decide +kernel⟩⟩

/-- States and operands that meet the hypotheses of SensePortsSynchroniseAndDeliver. -/
theorem witness_SensePortsSynchroniseAndDeliver :
  (∃ (s : State) (g : Fin 4) (p : Nat) (w : SerialFrame) (slots : List Word), p = pgSns g ∧ slots = snsSlots s g w ∧
      s.live = true ∧ s.running p = true ∧ snsWhole s g w = true ∧ (snsState s g = 2 ∨ (snsState s g = 1 ∧
      1 ≤ (s.sns g).good))) ∧
  (∃ (s : State) (g : Fin 4) (p : Nat) (w : SerialFrame) (slots : List Word), p = pgSns g ∧ slots = snsSlots s g w ∧
      s.live = true ∧ s.running p = true ∧ snsWhole s g w = true ∧ snsState s g = 1 ∧ (s.sns g).good = 0) ∧
  (∃ (s : State) (g : Fin 4) (p : Nat) (w : SerialFrame), p = pgSns g ∧ s.live = true ∧ s.running p = true ∧
      snsWhole s g w = false) ∧
  (∃ (s : State) (g : Fin 4) (p : Nat), p = pgSns g ∧ s.live = true ∧ s.running p = true ∧ snsState s g = 2) ∧
  (∃ (s : State) (g : Fin 4) (p : Nat), p = pgSns g ∧ s.live = true ∧ s.running p = true ∧ snsState s g ≠ 2) ∧
  (∃ (s : State) (g : Fin 4) (p : Nat), p = pgSns g ∧ s.live = true ∧ s.running p = true ∧ s.time.tick % 2400 = 0 ∧
      (s.sns g).win ≠ some s.time.tick) :=
  ⟨⟨sense 2 id, 0, _, wire 384, _, rfl, rfl, by decide +kernel⟩,
   ⟨sense 1 id, 0, _, wire 384, _, rfl, rfl, by decide +kernel⟩,
   ⟨sense 2 id, 0, _, wire 383, rfl, by decide +kernel⟩,
   ⟨sense 2 id, 0, _, rfl, by decide +kernel⟩,
   ⟨sense 1 id, 0, _, rfl, by decide +kernel⟩,
   ⟨sense 2 id, 0, _, rfl, by decide +kernel⟩⟩

/-- States and operands that meet the hypotheses of MetersCapturesAndSweepsRun. -/
theorem witness_MetersCapturesAndSweepsRun :
  (∃ (s : State) (e : Fin 8) (v sec ring : Nat), v = (s.exps e).sum / (24000 * expSamples s e) ∧
      sec = s.rd pgMea (expF F.meaExpSecS e) + 1 ∧ ring = 0x077E0000 + 0x4000 * e.val + 4 * (sec % 3600) ∧ s.live = true ∧
      s.running pgMea = true ∧ (s.exps e).on = true ∧ s.time.tick % 24000 = 0 ∧ (s.exps e).closed ≠ some s.time.tick ∧
      (s.exps e).first = true) ∧
  (∃ (s : State) (e : Fin 8) (v sec ring : Nat), v = (s.exps e).sum / (24000 * expSamples s e) ∧
      sec = s.rd pgMea (expF F.meaExpSecS e) + 1 ∧ ring = 0x077E0000 + 0x4000 * e.val + 4 * (sec % 3600) ∧ s.live = true ∧
      s.running pgMea = true ∧ (s.exps e).on = true ∧ s.time.tick % 24000 = 0 ∧ (s.exps e).closed ≠ some s.time.tick ∧
      (s.exps e).first = false ∧ Memory.wf s.mem) ∧
  (∃ (s : State) (m : Master) (v : Word) (r at_ : Nat), r = recBytes (capTaps s) ∧
      at_ = s.rd pgMea F.meaCapTickHiTick * 2 ^ 32 + s.rd pgMea F.meaCapTickLoTick ∧ granted s m = true ∧
      v.getLsbD 30 = false ∧ v.getLsbD 1 = false ∧ r ≠ 0 ∧ s.rd pgMea F.meaCapLenTicks * r ≤ 8257536 ∧
      (v.getLsbD 0 = true → s.rd pgMea F.meaCapPostTicks < s.rd pgMea F.meaCapLenTicks) ∧
      s.actIs pgMea F.ctrlDrain = false ∧ v.getLsbD 3 = true ∧ at_ < meaNext s) ∧
  (∃ (s : State) (m : Master) (v : Word) (r at_ : Nat), r = recBytes (capTaps s) ∧
      at_ = s.rd pgMea F.meaCapTickHiTick * 2 ^ 32 + s.rd pgMea F.meaCapTickLoTick ∧ granted s m = true ∧
      v.getLsbD 30 = false ∧ v.getLsbD 1 = false ∧ r ≠ 0 ∧ s.rd pgMea F.meaCapLenTicks * r ≤ 8257536 ∧
      (v.getLsbD 0 = true → s.rd pgMea F.meaCapPostTicks < s.rd pgMea F.meaCapLenTicks) ∧
      s.actIs pgMea F.ctrlDrain = false ∧ (v.getLsbD 3 = true → meaNext s ≤ at_)) ∧
  (∃ (s : State) (m : Master) (v : Word) (r at_ : Nat), r = recBytes (capTaps s) ∧
      at_ = s.rd pgMea F.meaCapTickHiTick * 2 ^ 32 + s.rd pgMea F.meaCapTickLoTick ∧ granted s m = true ∧
      v.getLsbD 30 = false ∧ (v.getLsbD 1 = true ∨ r = 0 ∨ 8257536 < s.rd pgMea F.meaCapLenTicks * r ∨
      (v.getLsbD 0 = true ∧ s.rd pgMea F.meaCapLenTicks ≤ s.rd pgMea F.meaCapPostTicks))) ∧
  (∃ (s : State) (m : Master), granted s m = true ∧ s.rd pgMea F.meaCapCtrlMode < 2 ∧ s.is pgMea F.meaCapStatBusy = true ∧
      s.rd pgMea F.meaCapCtrlMode = 0) ∧
  (∃ (s : State) (m : Master), granted s m = true ∧ s.rd pgMea F.meaCapCtrlMode < 2 ∧ s.is pgMea F.meaCapStatBusy = true ∧
      s.rd pgMea F.meaCapCtrlMode = 1 ∧ s.is pgMea F.meaCapStatTriggered = false ∧ 1 ≤ s.rd pgMea F.meaCapPostTicks) ∧
  (∃ (s : State) (m : Master), granted s m = true ∧ s.rd pgMea F.meaCapCtrlMode < 2 ∧ s.is pgMea F.meaCapStatBusy = false) ∧
  (∃ (s : State) (m : Master), granted s m = true ∧ sweeping s = true) ∧
  (∃ (s : State) (m : Master), granted s m = true ∧ sweeping s = false ∧
      (((if 0 < s.rd pgDiag F.diagTonesNt then s.rd pgDiag F.diagTonesLfIdx < s.rd pgDiag F.diagTonesNt ∧
      s.rd pgDiag F.diagTonesHfIdx < s.rd pgDiag F.diagTonesNt else s.is pgDiag F.diagTonesDcEn = true)))) ∧
  (∃ (s : State) (m : Master), granted s m = true ∧ sweeping s = false ∧
      (¬ ((if 0 < s.rd pgDiag F.diagTonesNt then s.rd pgDiag F.diagTonesLfIdx < s.rd pgDiag F.diagTonesNt ∧
      s.rd pgDiag F.diagTonesHfIdx < s.rd pgDiag F.diagTonesNt else s.is pgDiag F.diagTonesDcEn = true)))) ∧
  (∃ (s : State) (m : Master), granted s m = true ∧ engaged s pgDiag = true) ∧
  (∃ (s : State) (m : Master), granted s m = true ∧ engaged s pgDiag = false ∧ sweeping s = false) ∧
  (∃ (s : State) (m : Master), granted s m = true ∧ 24 ≤ s.rd pgDiag F.diagPilotWinTicks ∧ engaged s pgDiag = true) ∧
  (∃ (s : State), ∃ t, t = actsTake s pgDiag ∧ s.arch.acts = [(keyOf pgDiag 0x040, 0x80000000)] ∧
      s.running pgDiag = true ∧ s.actIs pgDiag F.ctrlDrain = false) ∧
  (∃ (s : State), ∃ t, t = actsTake s pgDiag ∧ s.arch.acts = [(keyOf pgDiag 0x040, 0x40000000)] ∧ sweeping s = true) ∧
  (∃ (s : State), ∃ t, ∃ (c : Fin 16), t = actsTake s pgDiag ∧ s.arch.acts = [(keyOf pgDiag 0x040, 0x40000000)] ∧
      sweeping s = true ∧ natBit s.diag.mask c = true) ∧
  (∃ (s : State), ∃ t, ∃ (c : Fin 16), t = actsTake s pgDiag ∧ s.arch.acts = [(keyOf pgDiag 0x040, 0x40000000)] ∧
      sweeping s = true ∧ natBit s.diag.mask c = true ∧ (s.diag.chans.get {} c).ended = false) ∧
  (∃ (s : State), ∃ t, t = actsTake s pgDiag ∧ s.arch.acts = [(keyOf pgDiag 0x07C, 0x80000000)]) ∧
  (∃ (s : State), s.diag.go = true ∧ sweeping s = false ∧ s.flt.safeOut = false) ∧
  (∃ (s : State), s.live = true ∧ s.running pgDiag = true ∧ sweeping s = true ∧ (∀ n ∈ s.diag.steps, n ≤ 8) ∧
      s.diag.pos < stepTicks s) ∧
  (∃ (s : State), s.live = true ∧ s.running pgDiag = true ∧ sweeping s = true ∧ (∀ n ∈ s.diag.steps, n ≤ 8) ∧
      stepTicks s ≤ s.diag.pos) ∧
  (∃ (s : State) (ch : Fin 16) (x : DiagChan), s.live = true ∧ s.running pgDiag = true ∧ s.diag.pilots.find ch = some x ∧
      pilotOn s ch = true ∧ s.act pgDiag F.diagPilotWinTicks ≤ x.ticks ∧ 4 * s.act pgDiag F.diagPilotWinTicks ≤ x.n) ∧
  (∃ (s : State) (ch : Fin 16) (x : DiagChan), s.live = true ∧ s.running pgDiag = true ∧ s.diag.pilots.find ch = some x ∧
      pilotOn s ch = true ∧ s.act pgDiag F.diagPilotWinTicks ≤ x.ticks ∧ x.n < 4 * s.act pgDiag F.diagPilotWinTicks) :=
  ⟨⟨meters 24000 {on := true}, 0, _, _, _, rfl, rfl, rfl, by decide +kernel⟩,
   ⟨meters 24000 {on := true, first := false, sum := 48000*3+5, es := [7, 8]}, 0, _, _, _, rfl, rfl, rfl,
      by decide +kernel⟩,
   ⟨capturing true 0 0, Master.hif, 0x00000008#32, _, _, rfl, rfl, by decide +kernel⟩,
   ⟨capturing true 0 0, Master.hif, 0x00000000#32, _, _, rfl, rfl, by decide +kernel⟩,
   ⟨base, Master.hif, 0x00000000#32, _, _, rfl, rfl, by decide +kernel⟩,
   ⟨capturing true 0 0, Master.hif, by decide +kernel⟩,
   ⟨capturing true 1 5, Master.hif, by decide +kernel⟩,
   ⟨base, Master.hif, by decide +kernel⟩,
   ⟨{ (runs pgDiag base).setB pgDiag F.diagStatBusy true with meas := { base.meas with diag := { mask := 3, chans := [(0, {ended := true})] } }, arch.acts := [(keyOf pgDiag 0x40, 0x40000000)] }, Master.hif, by decide +kernel⟩,
   ⟨base, Master.hif, by decide +kernel⟩,
   ⟨((runs pgDiag base).setF pgDiag F.diagTonesNt 1), Master.hif, by decide +kernel⟩,
   ⟨{ (runs pgDiag base).setB pgDiag F.diagStatBusy true with meas := { base.meas with diag := { mask := 3, chans := [(0, {ended := true})] } }, arch.acts := [(keyOf pgDiag 0x40, 0x40000000)] }, Master.hif, by decide +kernel⟩,
   ⟨base, Master.hif, by decide +kernel⟩,
   ⟨{ (runs pgDiag base).setB pgDiag F.diagStatBusy true with meas := { base.meas with diag := { mask := 3, chans := [(0, {ended := true})] } }, arch.acts := [(keyOf pgDiag 0x40, 0x40000000)] }, Master.hif, by decide +kernel⟩,
   ⟨{ (runs pgDiag base) with arch.acts := [(keyOf pgDiag 0x40, 0x80000000)] }, _, rfl, by decide +kernel⟩,
   ⟨{ (runs pgDiag base).setB pgDiag F.diagStatBusy true with meas := { base.meas with diag := { mask := 3, chans := [(0, {ended := true})] } }, arch.acts := [(keyOf pgDiag 0x40, 0x40000000)] }, _, rfl, by decide +kernel⟩,
   ⟨{ (runs pgDiag base).setB pgDiag F.diagStatBusy true with meas := { base.meas with diag := { mask := 3, chans := [(0, {ended := true})] } }, arch.acts := [(keyOf pgDiag 0x40, 0x40000000)] }, _, 0, rfl, by decide +kernel⟩,
   ⟨{ (runs pgDiag base).setB pgDiag F.diagStatBusy true with meas := { base.meas with diag := { mask := 3, chans := [(0, {ended := true})] } }, arch.acts := [(keyOf pgDiag 0x40, 0x40000000)] }, _, 1, rfl, by decide +kernel⟩,
   ⟨{ (runs pgDiag base).setF pgDiag F.diagPilotEnMask 5 with arch.acts := [(keyOf pgDiag 0x7C, 0x80000000)] }, _, rfl,
      by decide +kernel⟩,
   ⟨{ runs pgDiag base with meas.diag.go := true }, by decide +kernel⟩,
   ⟨{ (runs pgDiag base).setB pgDiag F.diagStatBusy true with meas := { base.meas with diag := { mask := 3, chans := [(0, {ended := true})] } }, arch.acts := [(keyOf pgDiag 0x40, 0x40000000)] }, by decide +kernel⟩,
   ⟨diagnosing [0] 7204 [], by decide +kernel⟩,
   ⟨scal (piloting (fullc 100000) [(0,1)] 1), 0,
      { n := 100000, sv := 1000000, si := 90000, vr := 1152921504606846976, vi := 3, ir := 72057594037927936, ii := 36028797018963968, ended := false, tones := [], dc := false, ticks := 524288 }, by decide +kernel⟩,
   ⟨piloting (fullc 3) [] 1, 0,
      { n := 3, sv := 1000000, si := 90000, vr := 1152921504606846976, vi := 3, ir := 72057594037927936, ii := 36028797018963968, ended := false, tones := [], dc := false, ticks := 524288 }, by decide +kernel⟩⟩

/-- States and operands that meet the hypotheses of QueueItemsAreBuiltLinkedAndRefused. -/
theorem witness_QueueItemsAreBuiltLinkedAndRefused :
  (∃ (s : State) (m : Master) (x : PortQ) (w : Word) (q : Nat) (l : List Nat) (a : Nat), x = s.qport (masterNo m) ∧
      q = x.pushQ ∧ l = (newCells (poolTake s 1) [] 1).1 ∧ a = cellAddr l 0 ∧ Memory.wf s.mem ∧ granted s m = true ∧
      x.discard = false ∧ s.resetting pgQmg = false ∧ x.open_ = none ∧ startCause s q w 1 false = 0 ∧
      (usedCells s).length < 65536) ∧
  (∃ (s : State) (m : Master) (x : PortQ) (w : Word) (q : Nat) (l : List Nat) (a : Nat), ∃ c, x = s.qport (masterNo m) ∧
      q = x.pushQ ∧ l = (newCells (poolTake s 1) [] 1).1 ∧ a = cellAddr l 0 ∧ c ∈ l ∧ Memory.wf s.mem ∧
      granted s m = true ∧ x.discard = false ∧ s.resetting pgQmg = false ∧ x.open_ = none ∧ startCause s q w 1 false = 0 ∧
      (usedCells s).length < 65536) ∧
  (∃ (s : State) (m : Master) (x : PortQ) (last : Bool) (w : Word) (q : Nat) (l : List Nat) (a : Nat),
      x = s.qport (masterNo m) ∧ last = false ∧ q = x.pushQ ∧ l = (newCells (poolTake s 1) [] 1).1 ∧ a = cellAddr l 0 ∧
      Memory.wf s.mem ∧ granted s m = true ∧ x.discard = false ∧ s.resetting pgQmg = false ∧ x.open_ = none ∧
      startCause s q w 1 false = 0 ∧ (∀ k ∈ s.qmg.stalls, (s.qport k).stall ≠ some q)) ∧
  (∃ (s : State) (m : Master) (x : PortQ) (last : Bool) (w : Word) (q : Nat) (l : List Nat) (a : Nat),
      x = s.qport (masterNo m) ∧ last = true ∧ q = x.pushQ ∧ l = (newCells (poolTake s 1) [] 1).1 ∧ a = cellAddr l 0 ∧
      Memory.wf s.mem ∧ granted s m = true ∧ x.discard = false ∧ s.resetting pgQmg = false ∧ x.open_ = none ∧
      startCause s q w 1 false = 0 ∧ qdRd s q F.qdescW0Bind = 0 ∧ (∀ k ∈ s.qmg.stalls, (s.qport k).stall ≠ some q)) ∧
  (∃ (s : State) (m : Master) (x : PortQ) (last : Bool) (w : Word) (q : Nat) (l : List Nat) (a : Nat), ∃ n,
      x = s.qport (masterNo m) ∧ last = true ∧ q = x.pushQ ∧ l = (newCells (poolTake s 1) [] 1).1 ∧ a = cellAddr l 0 ∧
      Memory.wf s.mem ∧ granted s m = true ∧ x.discard = false ∧ s.resetting pgQmg = false ∧ x.open_ = none ∧
      startCause s q w 1 false = 0 ∧ qdRd s q F.qdescW0Bind = 0 ∧ s.qmg.stalls = [n] ∧ (s.qport n).stall = some q ∧
      (s.qport n).drain = 0 ∧ (s.queue q).items = [] ∧ (s.queue q).popped = 0 ∧ (s.queue q).holder = none) ∧
  (∃ (s : State) (m : Master) (x : PortQ), ∃ o, ∃ (n : Nat) (l : List Nat) (a q : Nat), x = s.qport (masterNo m) ∧
      n = (if o.words % 16 = 0 then 1 else 0) ∧ l = (newCells (poolTake s n) o.cells n).1 ∧ a = cellAddr l o.words ∧
      q = o.queue ∧ Memory.wf s.mem ∧ granted s m = true ∧ x.discard = false ∧ s.resetting pgQmg = false ∧
      x.open_ = some o ∧ queueOn s q = true ∧ o.words < 4096 ∧ o.marked = false ∧ qdRd s q F.qdescW0Bind = 0 ∧
      (∀ k ∈ s.qmg.stalls, (s.qport k).stall ≠ some q) ∧ occOf s q + 1 ≤ qdAct s q F.qdescW1Limit ∧ poolAllows s 1 = true) ∧
  (∃ (s : State) (m : Master) (x : PortQ), ∃ o, ∃ (q : Nat), x = s.qport (masterNo m) ∧ q = o.queue ∧ Memory.wf s.mem ∧
      granted s m = true ∧ x.discard = false ∧ s.resetting pgQmg = false ∧ x.open_ = some o ∧ queueOn s q = true ∧
      qdRd s q F.qdescW0Bind = 2 ∧ (s.queue q).sets = [] ∧ (∀ k ∈ s.qmg.stalls, (s.qport k).stall ≠ some q)) ∧
  (∃ (s : State) (m : Master) (x : PortQ) (last : Bool) (w : Word) (q cause : Nat), x = s.qport (masterNo m) ∧
      q = x.pushQ ∧ cause = sizeFirst s q last w 1 (startCause s q w 1 false) ∧ Memory.wf s.mem ∧ granted s m = true ∧
      x.discard = false ∧ s.resetting pgQmg = false ∧ x.open_ = none ∧ cause ≠ 0 ∧ (∀ p,
      (s.queue q).boundTo = some p → 0x20 ≤ p ∧ p < 0x24)) ∧
  (∃ (s : State) (m : Master) (x : PortQ), x = s.qport (masterNo m) ∧ Memory.wf s.mem ∧ granted s m = true ∧
      x.discard = true) ∧
  (∃ (s : State) (m : Master) (x : PortQ), ∃ c o, x = s.qport (masterNo m) ∧ Memory.wf s.mem ∧ ((c = Instr.pushAbort m ∧
      granted s m = true) ∨ (c = Instr.itemTimeout m ∧ s.live = true ∧ s.running pgQmg = true)) ∧ x.open_ = some o ∧
      (∀ k ∈ s.qmg.stalls, (s.qport k).stall ≠ some o.queue) ∧ (s.queue o.queue).sets = []) ∧
  (∃ (s : State) (m : Master) (x : PortQ), ∃ c, x = s.qport (masterNo m) ∧ Memory.wf s.mem ∧ ((c = Instr.pushAbort m ∧
      granted s m = true) ∨ (c = Instr.itemTimeout m ∧ s.live = true ∧ s.running pgQmg = true)) ∧ x.open_ = none) ∧
  (∃ (s : State) (m : Master) (x : PortQ) (q : QueueIx) (v : Word) (lim mode : Nat), x = s.qport (masterNo m) ∧
      lim = qdRd s q F.qdescW1Limit ∧ mode = qdRd s q F.qdescW1EmptyMode ∧ Memory.wf s.mem ∧ granted s m = true ∧
      s.running pgQmg = true ∧ (v.getLsbD 31 = false ∨ qdRd s q F.qdescW0En = 1 ∨ ¬ (lim = 0 ∨ (mode = 0 ∧ 256 < lim) ∨
      (mode = 1 ∧ lim ≤ 256) ∨ qdRd s q F.qdescW2StallTmo = 0 ∨ (qdRd s q F.qdescW2ThrEn = 1 ∧
      (qdRd s q F.qdescW2Thresh = 0 ∨ lim < qdRd s q F.qdescW2Thresh))))) ∧
  (∃ (s : State) (m : Master) (x : PortQ) (q : QueueIx) (v : Word) (lim mode : Nat), x = s.qport (masterNo m) ∧
      lim = qdRd s q F.qdescW1Limit ∧ mode = qdRd s q F.qdescW1EmptyMode ∧ Memory.wf s.mem ∧ granted s m = true ∧
      s.running pgQmg = true ∧ v.getLsbD 31 = true ∧ qdRd s q F.qdescW0En = 0 ∧ qdAct s q F.qdescW0En = 0 ∧ ((lim = 0 ∨
      (mode = 0 ∧ 256 < lim) ∨ (mode = 1 ∧ lim ≤ 256) ∨ qdRd s q F.qdescW2StallTmo = 0 ∨ (qdRd s q F.qdescW2ThrEn = 1 ∧
      (qdRd s q F.qdescW2Thresh = 0 ∨ lim < qdRd s q F.qdescW2Thresh))))) ∧
  (∃ (s : State) (m : Master) (x : PortQ) (q : QueueIx) (lim mode : Nat), x = s.qport (masterNo m) ∧
      lim = qdRd s q F.qdescW1Limit ∧ mode = qdRd s q F.qdescW1EmptyMode ∧ Memory.wf s.mem ∧ granted s m = true ∧
      s.running pgQmg = true) ∧
  (∃ (s : State) (m : Master) (x : PortQ), x = s.qport (masterNo m) ∧ Memory.wf s.mem ∧ s.live = true ∧
      s.running pgQmg = true) ∧
  (∃ (s : State) (m : Master) (x : PortQ), x = s.qport (masterNo m) ∧ Memory.wf s.mem ∧ s.live = true ∧
      s.running pgQmg = true) ∧
  (∃ (s : State) (m : Master) (x : PortQ), x = s.qport (masterNo m) ∧ Memory.wf s.mem ∧ s.live = true ∧
      s.running pgQmg = true) :=
  ⟨⟨served [] 5 0 id, Master.hif, _, 0x00000000#32, _, _, _, rfl, rfl, rfl, rfl, by decide +kernel⟩,
   ⟨served [] 5 0 id, .hif, _, 0, _, _, _, _, rfl, rfl, rfl, rfl, .head _, by decide +kernel⟩,
   ⟨served [] 5 0 id, Master.hif, _, _, 0x00000000#32, _, _, _, rfl, rfl, rfl, rfl, rfl, by decide +kernel⟩,
   ⟨served [] 5 0 id, Master.hif, _, _, 0x00000000#32, _, _, _, rfl, rfl, rfl, rfl, rfl, by decide +kernel⟩,
   ⟨{ (served [] 300 1 id).setQport 1 (fun x => {x with stall := some 0 }) with qmg.stalls := [1] }, Master.hif, _, _,
      0x00000000#32, _, _, _, 1, rfl, rfl, rfl, rfl, rfl, by decide +kernel⟩,
   ⟨(served [] 300 1 id).setQport 0 (fun x => { x with open_ := some { queue := 0, words := 16, cells := [40] } }), .hif,
      _, { queue := 0, words := 16, cells := [40] }, _, _, _, _, rfl, rfl, rfl, rfl, rfl, by decide +kernel⟩,
   ⟨(qdSet (served [[5]] 300 1 id) 0 F.qdescW0Bind 2).setQport 0 (fun x => {x with open_ := some { queue := 0, words := 2, cells := [40] } }), Master.hif, _, { queue := 0, words := 2, cells := [40], marked := false }, _, rfl, rfl, by decide +kernel⟩,
   ⟨base, Master.hif, _, false, 0x00000000#32, _, _, rfl, rfl, rfl, by decide +kernel⟩,
   ⟨(served [] 300 1 id).setQport 0 (fun x => {x with discard := true }), Master.hif, _, rfl, by decide +kernel⟩,
   ⟨(served [] 300 1 id).setQport 0 (fun x => { x with open_ := some { queue := 0, words := 1, cells := [40] } }), .hif,
      _, .pushAbort .hif, { queue := 0, words := 1, cells := [40] }, rfl, by decide +kernel⟩,
   ⟨served [] 300 1 id, .hif, _, .itemTimeout .hif, rfl, by decide +kernel⟩,
   ⟨runs pgQmg base, Master.hif, _, 0, 0x00000000#32, _, _, rfl, rfl, rfl, by decide +kernel⟩,
   ⟨cfgd 0 0 3 (runs pgQmg base), Master.hif, _, 0, 0x80000000#32, _, _, rfl, rfl, rfl, by decide +kernel⟩,
   ⟨runs pgQmg base, Master.hif, _, 0, _, _, rfl, rfl, rfl, by decide +kernel⟩,
   ⟨runs pgQmg base, Master.hif, _, rfl, by decide +kernel⟩,
   ⟨runs pgQmg base, Master.hif, _, rfl, by decide +kernel⟩,
   ⟨runs pgQmg base, Master.hif, _, rfl, by decide +kernel⟩⟩

/-- States and operands that meet the hypotheses of QueueItemsArePoppedHeldAndStalled. -/
theorem witness_QueueItemsArePoppedHeldAndStalled :
  (∃ (s : State) (m : Master) (x : PortQ) (q : Nat), x = s.qport (masterNo m) ∧ q = x.popQ ∧ granted s m = true ∧
      x.stallRes = none ∧ (queueOn s q = false ∨ qdRd s q F.qdescW0Bind = 1)) ∧
  (∃ (s : State) (m : Master) (x : PortQ) (q : Nat), ∃ it rest, ∃ (i left : Nat), x = s.qport (masterNo m) ∧ q = x.popQ ∧
      i = (s.queue q).popped ∧ left = it.words - (i + 1) ∧ granted s m = true ∧ x.stallRes = none ∧ queueOn s q = true ∧
      qdRd s q F.qdescW0Bind ≠ 1 ∧ headFree s (masterNo m) q = true ∧ (s.queue q).items = it :: rest ∧
      (∀ k ∈ s.qmg.stalls, (s.qport k).stall ≠ some q)) ∧
  (∃ (s : State) (m : Master) (x : PortQ) (q : Nat), x = s.qport (masterNo m) ∧ q = x.popQ ∧ granted s m = true ∧
      x.stallRes = none ∧ queueOn s q = true ∧ qdRd s q F.qdescW0Bind ≠ 1 ∧ headFree s (masterNo m) q = false ∧
      qdAct s q F.qdescW1EmptyMode = 0) ∧
  (∃ (s : State) (m : Master) (x : PortQ) (q : Nat), x = s.qport (masterNo m) ∧ q = x.popQ ∧ granted s m = true ∧
      x.stallRes = none ∧ queueOn s q = true ∧ qdRd s q F.qdescW0Bind ≠ 1 ∧ headFree s (masterNo m) q = false ∧
      qdAct s q F.qdescW1EmptyMode ≠ 0) ∧
  (∃ (s : State) (m : Master) (x : PortQ) (q : Nat), ∃ n, x = s.qport (masterNo m) ∧ q = x.popQ ∧ s.live = true ∧
      x.stall = some n) ∧
  (∃ (s : State) (m : Master) (x : PortQ) (q : Nat), x = s.qport (masterNo m) ∧ q = x.popQ ∧ x.stall = none) ∧
  (∃ (s : State) (m : Master) (x : PortQ) (q : Nat) (k : QueueIx), ∃ h it rest, x = s.qport (masterNo m) ∧ q = x.popQ ∧
      s.live = true ∧ s.running pgQmg = true ∧ (s.queue k).holder = some h ∧ (s.queue k).items = it :: rest ∧
      (∀ j ∈ s.qmg.stalls, (s.qport j).stall ≠ some k.val)) ∧
  (∃ (s : State) (m : Master) (x : PortQ) (q : Nat) (k : QueueIx), x = s.qport (masterNo m) ∧ q = x.popQ ∧
      (s.queue k).holder = none) :=
  ⟨⟨base, Master.hif, _, _, rfl, rfl, by decide +kernel⟩,
   ⟨served [[1,2,3],[4]] 300 1 id, Master.hif, _, _, { words := 3, cells := [0] }, [{ words := 1, cells := [1] }], _, _,
      rfl, rfl, rfl, rfl, by decide +kernel⟩,
   ⟨served [] 5 0 id, Master.hif, _, _, rfl, rfl, by decide +kernel⟩,
   ⟨(served [] 300 1 id).setQport 0 (fun x => {x with open_ := some { queue := 0, words := 2, cells := [40] } }),
      Master.hif, _, _, rfl, rfl, by decide +kernel⟩,
   ⟨{ (served [] 300 1 id).setQport 0 (fun x => {x with stall := some 0 }) with qmg.stalls := [0] }, Master.hif, _, _, 0,
      rfl, rfl, by decide +kernel⟩,
   ⟨base, Master.hif, _, _, rfl, rfl, by decide +kernel⟩,
   ⟨(served [[1,2,3],[4]] 300 1 id).setQueue 0 (fun x => { x with popped := 2, holder := some 0 }), Master.hif, _, _, 0,
      0, { words := 3, cells := [0] }, [{ words := 1, cells := [1] }], rfl, rfl, by decide +kernel⟩,
   ⟨base, Master.hif, _, _, 0, rfl, rfl, by decide +kernel⟩⟩

/-- States and operands that meet the hypotheses of BankTransactionsReadWriteAndFail. -/
theorem witness_BankTransactionsReadWriteAndFail :
  (∃ (s : State) (x : Txn) (a b : Nat), ∃ next, a = x.addr.toNat / 4 * 4 ∧
      b = targetOf s (masterNo x.m) x.addr.toNat x.be x.wr.isSome ∧ s.live = true ∧ b < 8 ∧
      mustWait s (masterNo x.m) b = false ∧ s.mx.wiping = none ∧ s.mx.slicing = [] ∧ s.mx.locks.find b = none ∧
      s.mx.broken.find (masterNo x.m * 16 + b) = some next ∧ x.wr = none) ∧
  (∃ (s : State) (x : Txn) (a b : Nat), a = x.addr.toNat / 4 * 4 ∧
      b = targetOf s (masterNo x.m) x.addr.toNat x.be x.wr.isSome ∧ s.live = true ∧ b < 8 ∧
      mustWait s (masterNo x.m) b = false ∧ s.mx.wiping = none ∧ s.mx.slicing = [] ∧ s.mx.locks.find b = none ∧
      s.mx.broken.find (masterNo x.m * 16 + b) = none ∧ x.wr = none ∧ x.collide = none ∧ x.badBits = 0 ∧
      s.mx.dead.contains a = false ∧ s.mx.wback.contains a = false) ∧
  (∃ (s : State) (x : Txn) (a b : Nat), a = x.addr.toNat / 4 * 4 ∧
      b = targetOf s (masterNo x.m) x.addr.toNat x.be x.wr.isSome ∧ s.live = true ∧ b < 8 ∧
      mustWait s (masterNo x.m) b = false ∧ s.mx.wiping = none ∧ s.mx.slicing = [] ∧ s.mx.locks.find b = none ∧
      s.mx.broken.find (masterNo x.m * 16 + b) = none ∧ x.wr = none ∧ x.conflict = false ∧ x.collide = none ∧
      s.mx.dead.contains a = false ∧ x.badBits = 1) ∧
  (∃ (s : State) (x : Txn) (a b : Nat), a = x.addr.toNat / 4 * 4 ∧
      b = targetOf s (masterNo x.m) x.addr.toNat x.be x.wr.isSome ∧ s.live = true ∧ b < 8 ∧
      mustWait s (masterNo x.m) b = false ∧ s.mx.wiping = none ∧ s.mx.slicing = [] ∧ s.mx.locks.find b = none ∧
      s.mx.broken.find (masterNo x.m * 16 + b) = none ∧ x.wr = none ∧ x.conflict = false ∧ x.collide = none ∧
      s.mx.dead.contains a = false ∧ x.badBits = 2 ∧ Memory.wf s.mem) ∧
  (∃ (s : State) (x : Txn) (a b : Nat), ∃ v, a = x.addr.toNat / 4 * 4 ∧
      b = targetOf s (masterNo x.m) x.addr.toNat x.be x.wr.isSome ∧ s.live = true ∧ b < 8 ∧
      mustWait s (masterNo x.m) b = false ∧ s.mx.wiping = none ∧ s.mx.slicing = [] ∧ s.mx.locks.find b = none ∧
      s.mx.broken.find (masterNo x.m * 16 + b) = none ∧ x.wr = some v ∧ Memory.wf s.mem ∧ x.be = 0xF) ∧
  (∃ (s : State) (x : Txn) (a b : Nat), ∃ v, a = x.addr.toNat / 4 * 4 ∧
      b = targetOf s (masterNo x.m) x.addr.toNat x.be x.wr.isSome ∧ s.live = true ∧ b < 8 ∧
      mustWait s (masterNo x.m) b = false ∧ s.mx.wiping = none ∧ s.mx.slicing = [] ∧ s.mx.locks.find b = none ∧
      s.mx.broken.find (masterNo x.m * 16 + b) = none ∧ x.wr = some v ∧ Memory.wf s.mem ∧ x.be ≠ 0xF ∧ x.be ≠ 0 ∧
      x.collide = none ∧ s.mx.dead.contains a = false ∧ x.badBits.toNat ≤ 1) ∧
  (∃ (s : State) (x : Txn) (a b : Nat), ∃ v, a = x.addr.toNat / 4 * 4 ∧
      b = targetOf s (masterNo x.m) x.addr.toNat x.be x.wr.isSome ∧ s.live = true ∧ b < 8 ∧
      mustWait s (masterNo x.m) b = false ∧ s.mx.wiping = none ∧ s.mx.slicing = [] ∧ s.mx.locks.find b = none ∧
      s.mx.broken.find (masterNo x.m * 16 + b) = none ∧ x.wr = some v ∧ Memory.wf s.mem ∧ x.be ≠ 0xF ∧ x.be ≠ 0 ∧
      x.collide = none ∧ s.mx.dead.contains a = true) ∧
  (∃ (s : State) (x : Txn) (a b : Nat), ∃ w, a = x.addr.toNat / 4 * 4 ∧
      b = targetOf s (masterNo x.m) x.addr.toNat x.be x.wr.isSome ∧ s.live = true ∧ b < 8 ∧
      mustWait s (masterNo x.m) b = false ∧ s.mx.wiping = none ∧ s.mx.slicing = [] ∧ s.mx.locks.find b = none ∧
      s.mx.broken.find (masterNo x.m * 16 + b) = none ∧ x.collide = some w ∧ x.wr = none ∧ x.badBits = 0 ∧
      Memory.wf s.mem) ∧
  (∃ (s : State) (x : Txn) (a b : Nat), a = x.addr.toNat / 4 * 4 ∧
      b = targetOf s (masterNo x.m) x.addr.toNat x.be x.wr.isSome ∧ s.live = true ∧ b < 8 ∧
      mustWait s (masterNo x.m) b = true ∧ (s.qport (masterNo x.m)).stall = none) ∧
  (∃ (s : State) (x : Txn) (a b : Nat) (m : Master), ∃ ad, a = x.addr.toNat / 4 * 4 ∧
      b = targetOf s (masterNo x.m) x.addr.toNat x.be x.wr.isSome ∧ s.live = true ∧ (s.qport (masterNo m)).stall = none ∧
      s.mx.waits.find (masterNo m) = some ad) ∧
  (∃ (s : State) (x : Txn) (a b : Nat) (m : Master), ∃ c, a = x.addr.toNat / 4 * 4 ∧
      b = targetOf s (masterNo x.m) x.addr.toNat x.be x.wr.isSome ∧ s.live = true ∧ (s.qport (masterNo m)).stall = none ∧
      s.mx.waits.find (masterNo m) = none ∧ (m = .hif) ∧ (s.hif.deferred = some c) ∧ (s.hif.done.length < c.n)) ∧
  (∃ (s : State) (x : Txn) (a b : Nat) (m : Master), ∃ r rest, a = x.addr.toNat / 4 * 4 ∧
      b = targetOf s (masterNo x.m) x.addr.toNat x.be x.wr.isSome ∧ s.live = true ∧ (s.qport (masterNo m)).stall = none ∧
      s.mx.waits.find (masterNo m) = none ∧ (m = .hif) ∧ (s.hif.deferred = none) ∧ (s.hif.net = r :: rest) ∧
      r.waits = true) ∧
  (∃ (s : State) (x : Txn) (a b : Nat) (m : Master), a = x.addr.toNat / 4 * 4 ∧
      b = targetOf s (masterNo x.m) x.addr.toNat x.be x.wr.isSome ∧ s.live = true ∧ (s.qport (masterNo m)).stall = none ∧
      s.mx.waits.find (masterNo m) = none ∧ m = .dbg ∧ s.dev.dbgRuns.isSome = true) ∧
  (∃ (s : State) (x : Txn) (a b : Nat) (m : Master) (c : Fin 8), ∃ y, a = x.addr.toNat / 4 * 4 ∧
      b = targetOf s (masterNo x.m) x.addr.toNat x.be x.wr.isSome ∧ s.live = true ∧ (s.qport (masterNo m)).stall = none ∧
      s.mx.waits.find (masterNo m) = none ∧ m = .seq ∧ (s.ctx c).txn = some y ∧ y.reply = none ∧ y.again = false ∧
      (∀ d < c.val, (s.ctx d).txn = none)) ∧
  (∃ (s : State) (x : Txn) (a b : Nat) (m : Master), a = x.addr.toNat / 4 * 4 ∧
      b = targetOf s (masterNo x.m) x.addr.toNat x.be x.wr.isSome ∧ s.live = true ∧ (s.qport (masterNo m)).stall = none ∧
      s.mx.waits.find (masterNo m) = none ∧ (m ∉ [.hif, .seq, .dbg])) ∧
  (∃ (s : State) (x : Txn) (a b : Nat) (m : Master), a = x.addr.toNat / 4 * 4 ∧
      b = targetOf s (masterNo x.m) x.addr.toNat x.be x.wr.isSome ∧ s.live = true ∧
      (s.qport (masterNo m)).stall.isSome = true) ∧
  (∃ (s : State) (x : Txn) (a b : Nat) (m : Master) (tgt : Fin 16), ∃ l, a = x.addr.toNat / 4 * 4 ∧
      b = targetOf s (masterNo x.m) x.addr.toNat x.be x.wr.isSome ∧ s.live = true ∧ s.mx.locks.find tgt = some l ∧
      l.master = masterNo m) :=
  ⟨⟨mxs (fun x => { x with broken := [(1, true)] }) base1,
      { m := Master.hif, addr := 0x04000000#32, wr := none, be := 0x0#4, locked := false, conflict := false, collide := none, badBits := 0 }, _, _, true, rfl, rfl, by decide +kernel⟩,
   ⟨{ base1 with hif.net := [{ waits := true }] },
      { m := Master.hif, addr := 0x04000000#32, wr := none, be := 0x0#4, locked := false, conflict := false, collide := none, badBits := 0 }, _, _, rfl, rfl, by decide +kernel⟩,
   ⟨{ base1 with hif.net := [{ waits := true }] },
      { m := Master.hif, addr := 0x04000000#32, wr := none, be := 0x0#4, locked := false, conflict := false, collide := none, badBits := 1 }, _, _, rfl, rfl, by decide +kernel⟩,
   ⟨{ base1 with hif.net := [{ waits := true }] },
      { m := Master.hif, addr := 0x04000000#32, wr := none, be := 0x0#4, locked := false, conflict := false, collide := none, badBits := 2 }, _, _, rfl, rfl, by decide +kernel⟩,
   ⟨{ base1 with hif.net := [{ waits := true }] },
      { m := Master.hif, addr := 0x04000000#32, wr := some 0xdeadbeef#32, be := 0xf#4, locked := false, conflict := false, collide := none, badBits := 0 }, _, _, 0xdeadbeef#32, rfl, rfl, by decide +kernel⟩,
   ⟨{ base1 with hif.net := [{ waits := true }] },
      { m := Master.hif, addr := 0x04000000#32, wr := some 0xdeadbeef#32, be := 0x3#4, locked := false, conflict := false, collide := none, badBits := 0 }, _, _, 0xdeadbeef#32, rfl, rfl, by decide +kernel⟩,
   ⟨mxs (fun x => { x with dead := some1 }) base1,
      { m := Master.hif, addr := 0x04000000#32, wr := some 0xdeadbeef#32, be := 0x3#4, locked := false, conflict := false, collide := none, badBits := 0 }, _, _, 0xdeadbeef#32, rfl, rfl, by decide +kernel⟩,
   ⟨{ base1 with hif.net := [{ waits := true }] },
      { m := Master.hif, addr := 0x04000000#32, wr := none, be := 0x0#4, locked := false, conflict := false, collide := some 0x00000001#32, badBits := 0 }, _, _, 0x00000001#32, rfl, rfl, by decide +kernel⟩,
   ⟨base, { m := Master.hif, addr := 0x04000000#32, wr := none, be := 0x0#4, locked := false, conflict := false, collide := none, badBits := 0 }, _, _, rfl, rfl, by decide +kernel⟩,
   ⟨{ base1 with mx.waits := [(0, 0x05000004)] },
      { m := Master.hif, addr := 0x04000000#32, wr := none, be := 0x0#4, locked := false, conflict := false, collide := none, badBits := 0 }, _, _, Master.hif, 0x05000004#32, rfl, rfl, by decide +kernel⟩,
   ⟨{ base1 with hif.deferred := some { addr := 0x40000000, n := 3 }, hif.done := [(0, 5)] },
      { m := Master.hif, addr := 0x04000000#32, wr := none, be := 0x0#4, locked := false, conflict := false, collide := none, badBits := 0 }, _, _, Master.hif, { cmd := 0, addr := 0x40000000#32, n := 3, len := 0, data := [], crc := 0 }, rfl, rfl, by decide +kernel⟩,
   ⟨{ base1 with hif.net := [{ waits := true }] },
      { m := Master.hif, addr := 0x04000000#32, wr := none, be := 0x0#4, locked := false, conflict := false, collide := none, badBits := 0 }, _, _, Master.hif, { port := 0, src := 0, header := [], cmd := { cmd := 0, addr := 0x00000000#32, n := 0, len := 0, data := [], crc := 0 }, done := [], waits := true }, [], rfl, rfl, by decide +kernel⟩,
   ⟨{ base1 with dev.dbgRuns := some none },
      { m := Master.hif, addr := 0x04000000#32, wr := none, be := 0x0#4, locked := false, conflict := false, collide := none, badBits := 0 }, _, _, Master.dbg, rfl, rfl, by decide +kernel⟩,
   ⟨{ base1 with seq.ctxs := [(1, { txn := some {} })] },
      { m := Master.hif, addr := 0x04000000#32, wr := none, be := 0x0#4, locked := false, conflict := false, collide := none, badBits := 0 }, _, _, Master.seq, 1, { op := 0, f0 := false, f1 := false, a := 0, b := 0x00000000#32, b2 := 0x00000000#32, tries := 0, again := false, reply := none, data := 0x00000000#32, tick := 0, order := 0, writes := 0 }, rfl, rfl, by decide +kernel⟩,
   ⟨{ base1 with hif.net := [{ waits := true }] },
      { m := Master.hif, addr := 0x04000000#32, wr := none, be := 0x0#4, locked := false, conflict := false, collide := none, badBits := 0 }, _, _, Master.lat, rfl, rfl, by decide +kernel⟩,
   ⟨{ base1 with qmg.ports := [(0, { stall := some 3 })] },
      { m := Master.hif, addr := 0x04000000#32, wr := none, be := 0x0#4, locked := false, conflict := false, collide := none, badBits := 0 }, _, _, Master.hif, rfl, rfl, by decide +kernel⟩,
   ⟨mxs (fun x => { x with locks := [(1, {master := 0})] }) base1,
      { m := Master.hif, addr := 0x04000000#32, wr := none, be := 0x0#4, locked := false, conflict := false, collide := none, badBits := 0 }, _, _, Master.hif, 1, { master := 0, txns := 0, ending := false }, rfl, rfl, by decide +kernel⟩⟩

/-- States and operands that meet the hypotheses of BanksScrubTestSealAndWipe. -/
theorem witness_BanksScrubTestSealAndWipe :
  (∃ (s : State) (b : Bank) (p : Nat), ∃ a, p = pgMem b ∧ s.live = true ∧
      s.mx.wback.find? (fun a => bankOf a == some b.val) = some a) ∧
  (∃ (s : State) (b : Bank) (p n a : Nat), p = pgMem b ∧ n = s.mx.scrub.get 0 b ∧ a = bankBase b + 4 * n ∧ s.live = true ∧
      scrubOn s b = true ∧ bankReady s b = true ∧ Memory.wf s.mem) ∧
  (∃ (s : State) (b : Bank) (p win : Nat), p = pgMem b ∧ win = s.rd p F.memBistWinOfs ∧ s.live = true ∧
      s.rd p F.memStatBistPhase = 1) ∧
  (∃ (s : State) (b : Bank) (p win : Nat), p = pgMem b ∧ win = s.rd p F.memBistWinOfs ∧ s.live = true ∧
      s.rd p F.memStatBistPhase = 2) ∧
  (∃ (s : State) (b : Bank) (p win : Nat), p = pgMem b ∧ win = s.rd p F.memBistWinOfs ∧ s.live = true ∧
      s.rd p F.memStatBistPhase = 3 ∧ (s.mx.bist.get {} b).ending = false ∧ win + 1024 < bankSize b) ∧
  (∃ (s : State) (b : Bank) (p win : Nat), p = pgMem b ∧ win = s.rd p F.memBistWinOfs ∧ s.live = true ∧
      s.rd p F.memStatBistPhase = 3 ∧ (s.mx.bist.get {} b).ending = false ∧ bankSize b ≤ win + 1024) ∧
  (∃ (s : State) (b : Bank) (p : Nat), p = pgMem b ∧ s.live = true ∧ bankReady s b = false) ∧
  (∃ (s : State) (b : Bank) (p : Nat), p = pgMem b ∧ s.live = true ∧ bankReady s b = true) ∧
  (∃ (s : State) (b : Bank) (p : Nat), p = pgMem b ∧ s.live = true ∧ s.mx.sealing = true ∧ Memory.wf s.mem) ∧
  (∃ (s : State) (b : Bank) (p : Nat), p = pgMem b ∧ s.live = true ∧ s.mx.sealing = false) ∧
  (∃ (s : State) (b : Bank) (p : Nat), p = pgMem b ∧ s.live = true ∧ s.arch.acts = [(keyOf pgSec 0x044, 2)]) ∧
  (∃ (s : State) (m : Master) (b : Bank) (p : Nat), p = pgMem b ∧ granted s m = true ∧
      (s.is pgSec F.secStatSealBusy = true ∨ s.is pgSec F.secStatWiping = true)) ∧
  (∃ (s : State) (m : Master) (b : Bank) (p : Nat), p = pgMem b ∧ granted s m = true ∧
      s.is pgSec F.secStatSealBusy = false ∧ s.is pgSec F.secStatWiping = false ∧ engaged s pgSec = true) ∧
  (∃ (s : State) (m : Master) (b : Bank) (p : Nat), p = pgMem b ∧ granted s m = true ∧
      s.is pgSec F.secStatSealBusy = false ∧ s.is pgSec F.secStatWiping = false ∧ engaged s pgSec = false) ∧
  (∃ (s : State) (m : Master) (b : Bank) (p : Nat), p = pgMem b ∧ granted s m = true) ∧
  (∃ (s : State) (b : Bank) (p : Nat), p = pgMem b ∧ s.mx.wiping.isSome = true) ∧
  (∃ (s : State) (b : Bank) (p : Nat), p = pgMem b ∧ s.mx.wiping = none) :=
  ⟨⟨mxs (fun x => { x with wback := some1 }) base1, 1, _, 67108864, rfl, by decide +kernel⟩,
   ⟨{ base1 with hif.net := [{ waits := true }] }, 0, _, _, _, rfl, rfl, rfl, by decide +kernel⟩,
   ⟨testing 1 1 0, 1, _, _, rfl, rfl, by decide +kernel⟩,
   ⟨testing 1 2 1024, 1, _, _, rfl, rfl, by decide +kernel⟩,
   ⟨testing 1 3 0, 1, _, _, rfl, rfl, by decide +kernel⟩,
   ⟨testing 1 3 (bankSize 1 - 1024), 1, _, _, rfl, rfl, by decide +kernel⟩,
   ⟨base, 0, _, rfl, by decide +kernel⟩,
   ⟨{ base1 with hif.net := [{ waits := true }] }, 0, _, rfl, by decide +kernel⟩,
   ⟨mxs (fun x => { x with sealing := true, checked := true }) (base.setMemWord (bankBase 7) 5), 0, _, rfl,
      by decide +kernel⟩,
   ⟨{ base1 with hif.net := [{ waits := true }] }, 0, _, rfl, by decide +kernel⟩,
   ⟨{ base1 with arch.acts := [(keyOf pgSec 0x44, 2)] }, 0, _, rfl, by decide +kernel⟩,
   ⟨base1.setF pgSec F.secStatSealBusy 1, Master.hif, 0, _, rfl, by decide +kernel⟩,
   ⟨{ base1 with hif.net := [{ waits := true }] }, Master.hif, 0, _, rfl, by decide +kernel⟩,
   ⟨(base1.setF pgSec F.ctrlEn 0).setF pgSec F.statRun 0, Master.hif, 0, _, rfl, by decide +kernel⟩,
   ⟨{ base1 with hif.net := [{ waits := true }] }, Master.hif, 0, _, rfl, by decide +kernel⟩,
   ⟨mxs (fun x => { x with wiping := some 3}) base1, 0, _, rfl, by decide +kernel⟩,
   ⟨{ base1 with hif.net := [{ waits := true }] }, 0, _, rfl, by decide +kernel⟩⟩

/-- States and operands that meet the hypotheses of SequencerActionsDoWhatTheTableGives. -/
theorem witness_SequencerActionsDoWhatTheTableGives :
  (∃ (s : State) (c : SeqCtx) (pc n : Nat) (x : Action), ∃ e, pc = seqPc s c ∧ n = seqTick s ∧ x = actionAt s pc ∧ (∀ a,
      inWords (actionAddr pc) 4 a = true → a ∉ s.mx.dead ∧ a ∉ s.mx.wback) ∧ s.live = true ∧ s.running pgSeq = true ∧
      s.mx.slicing = [] ∧ (e ∈ [(Instr.nop c, 0x00), (Instr.wr c, 0x01), (Instr.rmw c, 0x02), (Instr.waitTick c, 0x08),
      (Instr.waitAt c, 0x09), (Instr.waitEvt c, 0x0A), (Instr.ifEq c, 0x10), (Instr.jmp c, 0x11), (Instr.call c, 0x12),
      (Instr.ret c, 0x13), (Instr.signal c, 0x18), (Instr.commit c, 0x19), (Instr.endList c, 0x3F)]) ∧
      (seqNext s ≠ some c.val ∨ memStalled s = true)) ∧
  (∃ (s : State) (c : SeqCtx) (pc n : Nat) (x : Action), ∃ e, pc = seqPc s c ∧ n = seqTick s ∧ x = actionAt s pc ∧ (∀ a,
      inWords (actionAddr pc) 4 a = true → a ∉ s.mx.dead ∧ a ∉ s.mx.wback) ∧ s.live = true ∧ s.running pgSeq = true ∧
      s.mx.slicing = [] ∧ (e ∈ [(Instr.nop c, 0x00), (Instr.wr c, 0x01), (Instr.rmw c, 0x02), (Instr.waitTick c, 0x08),
      (Instr.waitAt c, 0x09), (Instr.waitEvt c, 0x0A), (Instr.ifEq c, 0x10), (Instr.jmp c, 0x11), (Instr.call c, 0x12),
      (Instr.ret c, 0x13), (Instr.signal c, 0x18), (Instr.commit c, 0x19), (Instr.endList c, 0x3F)]) ∧
      memStalled s = false ∧ seqNext s = some c.val ∧ (opRow x.op = none ∨ ∃ r, opRow x.op = some r ∧ x.op = e.2 ∧
      pc ≠ 262143 ∧ actionOk s pc x r = false)) ∧
  (∃ (s : State) (c : SeqCtx) (pc n : Nat) (x : Action), ∃ r, pc = seqPc s c ∧ n = seqTick s ∧ x = actionAt s pc ∧ (∀ a,
      inWords (actionAddr pc) 4 a = true → a ∉ s.mx.dead ∧ a ∉ s.mx.wback) ∧ s.live = true ∧ s.running pgSeq = true ∧
      s.mx.slicing = [] ∧ memStalled s = false ∧ seqNext s = some c.val ∧ opRow x.op = some r ∧ actionOk s pc x r = true ∧
      pc + 2 ≤ 262143 ∧ x.op = 0x00) ∧
  (∃ (s : State) (c : SeqCtx) (pc n : Nat) (x : Action), ∃ r, pc = seqPc s c ∧ n = seqTick s ∧ x = actionAt s pc ∧ (∀ a,
      inWords (actionAddr pc) 4 a = true → a ∉ s.mx.dead ∧ a ∉ s.mx.wback) ∧ s.live = true ∧ s.running pgSeq = true ∧
      s.mx.slicing = [] ∧ memStalled s = false ∧ seqNext s = some c.val ∧ opRow x.op = some r ∧ actionOk s pc x r = true ∧
      pc + 2 ≤ 262143 ∧ x.op = 0x08) ∧
  (∃ (s : State) (c : SeqCtx) (pc n : Nat) (x : Action), ∃ r, ∃ (at_ ph : Nat), pc = seqPc s c ∧ n = seqTick s ∧
      x = actionAt s pc ∧ at_ = x.a * 2 ^ 32 + x.b.toNat ∧ ph = (actionAt s (pc + 1)).b.toNat % 256 ∧ (∀ a,
      inWords (actionAddr pc) 4 a = true → a ∉ s.mx.dead ∧ a ∉ s.mx.wback) ∧ s.live = true ∧ s.running pgSeq = true ∧
      s.mx.slicing = [] ∧ memStalled s = false ∧ seqNext s = some c.val ∧ opRow x.op = some r ∧ actionOk s pc x r = true ∧
      pc + 2 ≤ 262143 ∧ x.op = 0x09 ∧ momentPassed s at_ ph = false) ∧
  (∃ (s : State) (c : SeqCtx) (pc n : Nat) (x : Action), ∃ r, ∃ (at_ ph : Nat), pc = seqPc s c ∧ n = seqTick s ∧
      x = actionAt s pc ∧ at_ = x.a * 2 ^ 32 + x.b.toNat ∧ ph = (actionAt s (pc + 1)).b.toNat % 256 ∧ (∀ a,
      inWords (actionAddr pc) 4 a = true → a ∉ s.mx.dead ∧ a ∉ s.mx.wback) ∧ s.live = true ∧ s.running pgSeq = true ∧
      s.mx.slicing = [] ∧ memStalled s = false ∧ seqNext s = some c.val ∧ opRow x.op = some r ∧ actionOk s pc x r = true ∧
      pc + 2 ≤ 262143 ∧ x.op = 0x09 ∧ momentPassed s at_ ph = true ∧ x.f0 = false) ∧
  (∃ (s : State) (c : SeqCtx) (pc n : Nat) (x : Action), ∃ r, pc = seqPc s c ∧ n = seqTick s ∧ x = actionAt s pc ∧ (∀ a,
      inWords (actionAddr pc) 4 a = true → a ∉ s.mx.dead ∧ a ∉ s.mx.wback) ∧ s.live = true ∧ s.running pgSeq = true ∧
      s.mx.slicing = [] ∧ memStalled s = false ∧ seqNext s = some c.val ∧ opRow x.op = some r ∧ actionOk s pc x r = true ∧
      pc + 2 ≤ 262143 ∧ x.op = 0x0A) ∧
  (∃ (s : State) (c : SeqCtx) (pc n : Nat) (x : Action), ∃ r, pc = seqPc s c ∧ n = seqTick s ∧ x = actionAt s pc ∧ (∀ a,
      inWords (actionAddr pc) 4 a = true → a ∉ s.mx.dead ∧ a ∉ s.mx.wback) ∧ s.live = true ∧ s.running pgSeq = true ∧
      s.mx.slicing = [] ∧ memStalled s = false ∧ seqNext s = some c.val ∧ opRow x.op = some r ∧ actionOk s pc x r = true ∧
      pc + 2 ≤ 262143 ∧ x.op = 0x11) ∧
  (∃ (s : State) (c : SeqCtx) (pc n : Nat) (x : Action), ∃ r, pc = seqPc s c ∧ n = seqTick s ∧ x = actionAt s pc ∧ (∀ a,
      inWords (actionAddr pc) 4 a = true → a ∉ s.mx.dead ∧ a ∉ s.mx.wback) ∧ s.live = true ∧ s.running pgSeq = true ∧
      s.mx.slicing = [] ∧ memStalled s = false ∧ seqNext s = some c.val ∧ opRow x.op = some r ∧ actionOk s pc x r = true ∧
      pc + 2 ≤ 262143 ∧ x.op = 0x12 ∧ (s.ctx c).stack.length < 4) ∧
  (∃ (s : State) (c : SeqCtx) (pc n : Nat) (x : Action), ∃ r, pc = seqPc s c ∧ n = seqTick s ∧ x = actionAt s pc ∧ (∀ a,
      inWords (actionAddr pc) 4 a = true → a ∉ s.mx.dead ∧ a ∉ s.mx.wback) ∧ s.live = true ∧ s.running pgSeq = true ∧
      s.mx.slicing = [] ∧ memStalled s = false ∧ seqNext s = some c.val ∧ opRow x.op = some r ∧ actionOk s pc x r = true ∧
      pc + 2 ≤ 262143 ∧ x.op = 0x12 ∧ 4 ≤ (s.ctx c).stack.length) ∧
  (∃ (s : State) (c : SeqCtx) (pc n : Nat) (x : Action), ∃ r k l, pc = seqPc s c ∧ n = seqTick s ∧ x = actionAt s pc ∧
      (∀ a, inWords (actionAddr pc) 4 a = true → a ∉ s.mx.dead ∧ a ∉ s.mx.wback) ∧ s.live = true ∧
      s.running pgSeq = true ∧ s.mx.slicing = [] ∧ memStalled s = false ∧ seqNext s = some c.val ∧ opRow x.op = some r ∧
      actionOk s pc x r = true ∧ pc + 2 ≤ 262143 ∧ x.op = 0x13 ∧ (s.ctx c).stack = k :: l ∧ k ≤ 262143 ∧ l.length < 4) ∧
  (∃ (s : State) (c : SeqCtx) (pc n : Nat) (x : Action), ∃ r, pc = seqPc s c ∧ n = seqTick s ∧ x = actionAt s pc ∧ (∀ a,
      inWords (actionAddr pc) 4 a = true → a ∉ s.mx.dead ∧ a ∉ s.mx.wback) ∧ s.live = true ∧ s.running pgSeq = true ∧
      s.mx.slicing = [] ∧ memStalled s = false ∧ seqNext s = some c.val ∧ opRow x.op = some r ∧ actionOk s pc x r = true ∧
      pc + 2 ≤ 262143 ∧ x.op = 0x13 ∧ (s.ctx c).stack = []) ∧
  (∃ (s : State) (c : SeqCtx) (pc n : Nat) (x : Action), ∃ r, pc = seqPc s c ∧ n = seqTick s ∧ x = actionAt s pc ∧ (∀ a,
      inWords (actionAddr pc) 4 a = true → a ∉ s.mx.dead ∧ a ∉ s.mx.wback) ∧ s.live = true ∧ s.running pgSeq = true ∧
      s.mx.slicing = [] ∧ memStalled s = false ∧ seqNext s = some c.val ∧ opRow x.op = some r ∧ actionOk s pc x r = true ∧
      pc + 2 ≤ 262143 ∧ x.op = 0x18 ∧ x.f0 = true) ∧
  (∃ (s : State) (c : SeqCtx) (pc n : Nat) (x : Action), ∃ r, ∃ (q : Nat) (w : Word) (l : List Nat), pc = seqPc s c ∧
      n = seqTick s ∧ x = actionAt s pc ∧ q = x.a % 1024 ∧ w = w32 (c.val * 2 ^ 29 + n % 65536) ∧
      l = (newCells (poolTake s 1) [] 1).1 ∧ (∀ a, inWords (actionAddr pc) 4 a = true → a ∉ s.mx.dead ∧ a ∉ s.mx.wback) ∧
      s.live = true ∧ s.running pgSeq = true ∧ s.mx.slicing = [] ∧ memStalled s = false ∧ seqNext s = some c.val ∧
      opRow x.op = some r ∧ actionOk s pc x r = true ∧ pc + 2 ≤ 262143 ∧ x.op = 0x18 ∧ x.f0 = false ∧
      startCause s q w 1 false = 0 ∧ qdRd s q F.qdescW0Bind ≠ 1 ∧ s.resetting pgQmg = false ∧ (∀ k ∈ s.qmg.stalls,
      (s.qport k).stall ≠ some q) ∧ Memory.wf s.mem) ∧
  (∃ (s : State) (c : SeqCtx) (pc n : Nat) (x : Action), ∃ r, ∃ (q : Nat) (w : Word), pc = seqPc s c ∧ n = seqTick s ∧
      x = actionAt s pc ∧ q = x.a % 1024 ∧ w = w32 (c.val * 2 ^ 29 + n % 65536) ∧ (∀ a,
      inWords (actionAddr pc) 4 a = true → a ∉ s.mx.dead ∧ a ∉ s.mx.wback) ∧ s.live = true ∧ s.running pgSeq = true ∧
      s.mx.slicing = [] ∧ memStalled s = false ∧ seqNext s = some c.val ∧ opRow x.op = some r ∧ actionOk s pc x r = true ∧
      pc + 2 ≤ 262143 ∧ x.op = 0x18 ∧ x.f0 = false ∧ startCause s q w 1 false ≠ 0 ∧ s.resetting pgQmg = false) ∧
  (∃ (s : State) (c : SeqCtx) (pc n : Nat) (x : Action), ∃ r, pc = seqPc s c ∧ n = seqTick s ∧ x = actionAt s pc ∧ (∀ a,
      inWords (actionAddr pc) 4 a = true → a ∉ s.mx.dead ∧ a ∉ s.mx.wback) ∧ s.live = true ∧ s.running pgSeq = true ∧
      s.mx.slicing = [] ∧ memStalled s = false ∧ seqNext s = some c.val ∧ opRow x.op = some r ∧ actionOk s pc x r = true ∧
      pc + 2 ≤ 262143 ∧ x.op = 0x3F ∧ (s.inForce pgSeq F.evtEn.ofs).getLsbD (8 + c.val) = false) ∧
  (∃ (s : State) (c : SeqCtx) (pc n : Nat) (x : Action), ∃ r a, ∃ (b : Nat), pc = seqPc s c ∧ n = seqTick s ∧
      x = actionAt s pc ∧ b = targetOf s 1 a 0xF false ∧ (∀ a, inWords (actionAddr pc) 4 a = true → a ∉ s.mx.dead ∧
      a ∉ s.mx.wback) ∧ (∀ d, (s.ctx d).locked = []) ∧ s.live = true ∧ s.running pgSeq = true ∧ s.mx.slicing = [] ∧
      memStalled s = false ∧ seqNext s = some c.val ∧ opRow x.op = some r ∧ actionOk s pc x r = true ∧ pc + 2 ≤ 262143 ∧
      actionTarget x.a = some a ∧ b < 8 ∧ mustWait s 1 b = false ∧ s.mx.locks.find b = none ∧
      s.mx.broken.find (16 + b) = none ∧ x.op = 0x01 ∧ x.f0 = false ∧ targetOf s 1 a 0xF true = b ∧ Memory.wf s.mem) ∧
  (∃ (s : State) (c : SeqCtx) (pc n : Nat) (x : Action), ∃ r a, ∃ (b : Nat), pc = seqPc s c ∧ n = seqTick s ∧
      x = actionAt s pc ∧ b = targetOf s 1 a 0xF false ∧ (∀ a, inWords (actionAddr pc) 4 a = true → a ∉ s.mx.dead ∧
      a ∉ s.mx.wback) ∧ (∀ d, (s.ctx d).locked = []) ∧ s.live = true ∧ s.running pgSeq = true ∧ s.mx.slicing = [] ∧
      memStalled s = false ∧ seqNext s = some c.val ∧ opRow x.op = some r ∧ actionOk s pc x r = true ∧ pc + 2 ≤ 262143 ∧
      actionTarget x.a = some a ∧ b < 8 ∧ mustWait s 1 b = false ∧ s.mx.locks.find b = none ∧
      s.mx.broken.find (16 + b) = none ∧ x.op = 0x02 ∧ x.f0 = false ∧ targetOf s 1 a 0xF true = b ∧ Memory.wf s.mem ∧
      s.mx.dead.contains a = false ∧ 2 ≤ s.act pgXbr F.xbrLockMaxTxn) ∧
  (∃ (s : State) (c : SeqCtx) (pc n : Nat) (x : Action), ∃ r a, ∃ (b : Nat), pc = seqPc s c ∧ n = seqTick s ∧
      x = actionAt s pc ∧ b = targetOf s 1 a 0xF false ∧ (∀ a, inWords (actionAddr pc) 4 a = true → a ∉ s.mx.dead ∧
      a ∉ s.mx.wback) ∧ (∀ d, (s.ctx d).locked = []) ∧ s.live = true ∧ s.running pgSeq = true ∧ s.mx.slicing = [] ∧
      memStalled s = false ∧ seqNext s = some c.val ∧ opRow x.op = some r ∧ actionOk s pc x r = true ∧ pc + 2 ≤ 262143 ∧
      actionTarget x.a = some a ∧ b < 8 ∧ mustWait s 1 b = false ∧ s.mx.locks.find b = none ∧
      s.mx.broken.find (16 + b) = none ∧ x.op = 0x10 ∧ s.mx.dead.contains a = false ∧ s.mx.wiping = none) ∧
  (∃ (s : State) (c : SeqCtx) (pc n : Nat) (x : Action), ∃ r, ∃ (p : Page), pc = seqPc s c ∧ n = seqTick s ∧
      x = actionAt s pc ∧ (∀ a, inWords (actionAddr pc) 4 a = true → a ∉ s.mx.dead ∧ a ∉ s.mx.wback) ∧ (∀ d,
      (s.ctx d).locked = []) ∧ s.live = true ∧ s.running pgSeq = true ∧ s.mx.slicing = [] ∧ memStalled s = false ∧
      seqNext s = some c.val ∧ opRow x.op = some r ∧ actionOk s pc x r = true ∧ pc + 2 ≤ 262143 ∧ x.op = 0x19 ∧
      x.f0 = false ∧ x.a % 1024 = p.val ∧ isRegPage p = true ∧ granted s .seq = true ∧ engaged s p = true ∧
      s.is p F.cmtPending = false) :=
  ⟨⟨{ acting 1 0 0 0 0 0 id with arch.restarts := [(4*16, 1)] }, 1, _, _, _, (Instr.nop 1, 0), rfl, rfl, rfl,
      fun _ _ => ⟨List.not_mem_nil, List.not_mem_nil⟩, by decide +kernel⟩,
   ⟨acting 1 0 0 1 0 0 id, 0, _, _, _, (Instr.nop 0, 0), rfl, rfl, rfl, fun _ _ => ⟨List.not_mem_nil, List.not_mem_nil⟩,
      by decide +kernel⟩,
   ⟨{ acting 1 0 0 0 0 0 id with arch.restarts := [(4*16, 1)] }, 0, _, _, _,
      { op := 0, words := 1, f0 := false, f1 := false, aBits := 0, bMask := 0x00000000#32, b2Mask := 0x00000000#32 }, rfl,
      rfl, rfl, fun _ _ => ⟨List.not_mem_nil, List.not_mem_nil⟩, by decide +kernel⟩,
   ⟨acting 1 8 0 0 3 0 id, 0, _, _, _,
      { op := 8, words := 1, f0 := true, f1 := false, aBits := 18, bMask := 0xffffffff#32, b2Mask := 0x00000000#32 }, rfl,
      rfl, rfl, fun _ _ => ⟨List.not_mem_nil, List.not_mem_nil⟩, by decide +kernel⟩,
   ⟨acting 1 9 0 0 3 7 id, 0, _, _, _,
      { op := 9, words := 2, f0 := true, f1 := false, aBits := 16, bMask := 0xffffffff#32, b2Mask := 0x000000ff#32 }, _,
      _, rfl, rfl, rfl, rfl, rfl, fun _ _ => ⟨List.not_mem_nil, List.not_mem_nil⟩, by decide +kernel⟩,
   ⟨(acting 1 9 0 0 0 0 id), 0, _, _, _,
      { op := 9, words := 2, f0 := true, f1 := false, aBits := 16, bMask := 0xffffffff#32, b2Mask := 0x000000ff#32 }, _,
      _, rfl, rfl, rfl, rfl, rfl, fun _ _ => ⟨List.not_mem_nil, List.not_mem_nil⟩, by decide +kernel⟩,
   ⟨acting 1 0xA 0 0x413 0 0 id, 0, _, _, _,
      { op := 10, words := 1, f0 := false, f1 := false, aBits := 15, bMask := 0xffffffff#32, b2Mask := 0x00000000#32 },
      rfl, rfl, rfl, fun _ _ => ⟨List.not_mem_nil, List.not_mem_nil⟩, by decide +kernel⟩,
   ⟨acting 1 0x11 0 77 0 0 id, 0, _, _, _,
      { op := 17, words := 1, f0 := false, f1 := false, aBits := 18, bMask := 0x00000000#32, b2Mask := 0x00000000#32 },
      rfl, rfl, rfl, fun _ _ => ⟨List.not_mem_nil, List.not_mem_nil⟩, by decide +kernel⟩,
   ⟨acting 1 0x12 0 77 0 0 id, 0, _, _, _,
      { op := 18, words := 1, f0 := false, f1 := false, aBits := 18, bMask := 0x00000000#32, b2Mask := 0x00000000#32 },
      rfl, rfl, rfl, fun _ _ => ⟨List.not_mem_nil, List.not_mem_nil⟩, by decide +kernel⟩,
   ⟨acting 1 0x12 0 77 0 0 (fun x => { x with stack := [1,2,3,4] }), 0, _, _, _,
      { op := 18, words := 1, f0 := false, f1 := false, aBits := 18, bMask := 0x00000000#32, b2Mask := 0x00000000#32 },
      rfl, rfl, rfl, fun _ _ => ⟨List.not_mem_nil, List.not_mem_nil⟩, by decide +kernel⟩,
   ⟨acting 1 0x13 0 0 0 0 (fun x => { x with stack := [9,2,3,4] }), 0, _, _, _,
      { op := 19, words := 1, f0 := false, f1 := false, aBits := 0, bMask := 0x00000000#32, b2Mask := 0x00000000#32 }, 9,
      [2, 3, 4], rfl, rfl, rfl, fun _ _ => ⟨List.not_mem_nil, List.not_mem_nil⟩, by decide +kernel⟩,
   ⟨acting 1 0x13 0 0 0 0 id, 0, _, _, _,
      { op := 19, words := 1, f0 := false, f1 := false, aBits := 0, bMask := 0x00000000#32, b2Mask := 0x00000000#32 },
      rfl, rfl, rfl, fun _ _ => ⟨List.not_mem_nil, List.not_mem_nil⟩, by decide +kernel⟩,
   ⟨acting 1 0x18 1 0 9 0 id, 0, _, _, _,
      { op := 24, words := 1, f0 := true, f1 := false, aBits := 10, bMask := 0xffffffff#32, b2Mask := 0x00000000#32 },
      rfl, rfl, rfl, fun _ _ => ⟨List.not_mem_nil, List.not_mem_nil⟩, by decide +kernel⟩,
   ⟨qdSet (queued 0 [] (acting 1 0x18 0 0 9 0 id)) 0 F.qdescW1Limit 5, 0, _, _, _,
      { op := 24, words := 1, f0 := true, f1 := false, aBits := 10, bMask := 0xffffffff#32, b2Mask := 0x00000000#32 }, _,
      _, _, rfl, rfl, rfl, rfl, rfl, rfl, fun _ _ => ⟨List.not_mem_nil, List.not_mem_nil⟩, by decide +kernel⟩,
   ⟨acting 1 0x18 0 0 9 0 id, 0, _, _, _,
      { op := 24, words := 1, f0 := true, f1 := false, aBits := 10, bMask := 0xffffffff#32, b2Mask := 0x00000000#32 }, _,
      _, rfl, rfl, rfl, rfl, rfl, fun _ _ => ⟨List.not_mem_nil, List.not_mem_nil⟩, by decide +kernel⟩,
   ⟨acting 1 0x3F 0 0 0 0 id, 0, _, _, _,
      { op := 63, words := 1, f0 := false, f1 := false, aBits := 0, bMask := 0x00000000#32, b2Mask := 0x00000000#32 },
      rfl, rfl, rfl, fun _ _ => ⟨List.not_mem_nil, List.not_mem_nil⟩, by decide +kernel⟩,
   ⟨acting 1 1 2 0x400100 99 0 id, 0, _, _, _,
      { op := 1, words := 1, f0 := true, f1 := true, aBits := 24, bMask := 0xffffffff#32, b2Mask := 0x00000000#32 },
      83887104, _, rfl, rfl, rfl, rfl, fun _ _ => ⟨List.not_mem_nil, List.not_mem_nil⟩, acting_unlocked _ _ _ _ _ _,
      by decide +kernel⟩,
   ⟨acting 1 2 0 0x400100 99 5 id, 0, _, _, _,
      { op := 2, words := 2, f0 := true, f1 := true, aBits := 24, bMask := 0xffffffff#32, b2Mask := 0xffffffff#32 },
      83887104, _, rfl, rfl, rfl, rfl, fun _ _ => ⟨List.not_mem_nil, List.not_mem_nil⟩, acting_unlocked _ _ _ _ _ _,
      by decide +kernel⟩,
   ⟨acting 1 0x10 1 0x400100 99 5 id, 0, _, _, _,
      { op := 16, words := 1, f0 := true, f1 := true, aBits := 24, bMask := 0xffffffff#32, b2Mask := 0x00000000#32 },
      83887104, _, rfl, rfl, rfl, rfl, fun _ _ => ⟨List.not_mem_nil, List.not_mem_nil⟩, acting_unlocked _ _ _ _ _ _,
      by decide +kernel⟩,
   ⟨runs 0x20 (acting 1 0x19 0 0x20 0 0 id), 0, _, _, _,
      { op := 25, words := 1, f0 := true, f1 := true, aBits := 10, bMask := 0xffffffff#32, b2Mask := 0x00000000#32 }, 32,
      rfl, rfl, rfl, fun _ _ => ⟨List.not_mem_nil, List.not_mem_nil⟩, acting_unlocked _ _ _ _ _ _, by decide +kernel⟩⟩

/-- States and operands that meet the hypotheses of SequencerRepliesWaitsAndContexts. -/
theorem witness_SequencerRepliesWaitsAndContexts :
  (∃ (s : State) (c : SeqCtx) (pc : Nat), ∃ z r, pc = seqPc s c ∧ s.live = true ∧ s.running pgSeq = true ∧
      (s.ctx c).txn = some z ∧ z.again = false ∧ z.reply = some r ∧ (s.ctx c).stopping = false ∧
      (s.ctx c).expired = false ∧ pc + 3 ≤ 262143 ∧ r < 16 ∧ r = 0 ∧ (z.op = 0x01 ∨ z.op = 0x02)) ∧
  (∃ (s : State) (c : SeqCtx) (pc : Nat), ∃ z r, ∃ (half : Nat), pc = seqPc s c ∧
      half = (if z.f0 then getBits z.data 31 16 else getBits z.data 15 0) ∧ s.live = true ∧ s.running pgSeq = true ∧
      (s.ctx c).txn = some z ∧ z.again = false ∧ z.reply = some r ∧ (s.ctx c).stopping = false ∧
      (s.ctx c).expired = false ∧ pc + 3 ≤ 262143 ∧ r < 16 ∧ r = 0 ∧ z.op = 0x10) ∧
  (∃ (s : State) (c : SeqCtx) (pc : Nat), ∃ z r, pc = seqPc s c ∧ s.live = true ∧ s.running pgSeq = true ∧
      (s.ctx c).txn = some z ∧ z.again = false ∧ z.reply = some r ∧ (s.ctx c).stopping = false ∧
      (s.ctx c).expired = false ∧ pc + 3 ≤ 262143 ∧ r < 16 ∧ r = 8 ∧ z.tries < 4) ∧
  (∃ (s : State) (c : SeqCtx) (pc : Nat), ∃ z r, pc = seqPc s c ∧ s.live = true ∧ s.running pgSeq = true ∧
      (s.ctx c).txn = some z ∧ z.again = false ∧ z.reply = some r ∧ (s.ctx c).stopping = false ∧
      (s.ctx c).expired = false ∧ pc + 3 ≤ 262143 ∧ r < 16 ∧ r ≠ 0 ∧ (r ≠ 8 ∨ 4 ≤ z.tries) ∧ (z.f1 = false ∨ z.op = 0x19)) ∧
  (∃ (s : State) (c : SeqCtx) (pc : Nat), ∃ z r, pc = seqPc s c ∧ s.live = true ∧ s.running pgSeq = true ∧
      (s.ctx c).txn = some z ∧ z.again = false ∧ z.reply = some r ∧ (s.ctx c).stopping = false ∧
      (s.ctx c).expired = false ∧ pc + 3 ≤ 262143 ∧ r < 16 ∧ r ≠ 0 ∧ (r ≠ 8 ∨ 4 ≤ z.tries) ∧ z.f1 = true ∧ (z.op = 0x01 ∨
      z.op = 0x02)) ∧
  (∃ (s : State) (c : SeqCtx) (pc : Nat), ∃ z r, pc = seqPc s c ∧ s.live = true ∧ s.running pgSeq = true ∧
      (s.ctx c).txn = some z ∧ z.again = false ∧ z.reply = some r ∧ (s.ctx c).stopping = true) ∧
  (∃ (s : State) (c : SeqCtx) (pc : Nat), ∃ z r, pc = seqPc s c ∧ s.live = true ∧ s.running pgSeq = true ∧
      (s.ctx c).txn = some z ∧ z.again = false ∧ z.reply = some r ∧ (s.ctx c).stopping = false ∧ (s.ctx c).expired = true) ∧
  (∃ (s : State) (c : SeqCtx) (pc : Nat), ∃ k, pc = seqPc s c ∧ s.live = true ∧ s.running pgSeq = true ∧
      (s.ctx c).wait = .tick k ∧ k ≤ seqTick s) ∧
  (∃ (s : State) (c : SeqCtx) (pc : Nat), ∃ k, pc = seqPc s c ∧ s.live = true ∧ s.running pgSeq = true ∧
      (s.ctx c).wait = .tick k ∧ seqTick s < k) ∧
  (∃ (s : State) (c : SeqCtx) (pc : Nat), ∃ k ph, pc = seqPc s c ∧ s.live = true ∧ s.running pgSeq = true ∧
      (s.ctx c).wait = .at_ k ph ∧ (k < seqTick s ∨ k = seqTick s ∧ (seqTick s < s.time.tick ∨
      100000 * ph ≤ (s.time.frc.toNat - s.time.tickC) * 768))) ∧
  (∃ (s : State) (c : SeqCtx) (pc : Nat), ∃ k ph, pc = seqPc s c ∧ s.live = true ∧ s.running pgSeq = true ∧
      (s.ctx c).wait = .at_ k ph ∧ (seqTick s < k ∨ k = seqTick s ∧ s.time.tick ≤ seqTick s ∧
      (s.time.frc.toNat - s.time.tickC) * 768 < 100000 * ph)) ∧
  (∃ (s : State) (c : SeqCtx) (pc : Nat), ∃ p b timed, pc = seqPc s c ∧ s.live = true ∧ s.running pgSeq = true ∧
      (s.ctx c).wait = .evt p b timed ∧ timed = true ∧ seqState s c = 3) ∧
  (∃ (s : State) (c : SeqCtx) (pc : Nat), ∃ p b timed, pc = seqPc s c ∧ s.live = true ∧ s.running pgSeq = true ∧
      (s.ctx c).wait = .evt p b timed ∧ timed = false) ∧
  (∃ (s : State) (c : SeqCtx) (pc : Nat), pc = seqPc s c ∧ s.live = true ∧ s.running pgSeq = true ∧ (seqState s c = 1 ∨
      seqState s c = 3) ∧ s.act pgSeq (seqF F.seqCtxWdogTicks c) ≤ (s.ctx c).wdog ∧ seqOut s c = false) ∧
  (∃ (s : State) (c : SeqCtx) (pc : Nat), pc = seqPc s c ∧ s.live = true ∧ s.running pgSeq = true ∧ (seqState s c = 1 ∨
      seqState s c = 3) ∧ s.act pgSeq (seqF F.seqCtxWdogTicks c) ≤ (s.ctx c).wdog ∧ seqOut s c = true) ∧
  (∃ (s : State) (c : SeqCtx) (pc : Nat), pc = seqPc s c ∧ s.live = true ∧ s.running pgSeq = true ∧
      (s.ctx c).wdog < s.act pgSeq (seqF F.seqCtxWdogTicks c)) ∧
  (∃ (s : State) (m : Master) (c : SeqCtx) (pc : Nat), ∃ e, pc = seqPc s c ∧ granted s m = true ∧
      e ∈ [(Instr.contextStart m c, true), (Instr.contextStop m c, false)]) ∧
  (∃ (s : State) (c : SeqCtx) (pc : Nat), ∃ t, pc = seqPc s c ∧ t = seqTakeCtl s c true ∧ s.running pgSeq = true ∧
      s.actIs pgSeq F.ctrlDrain = false ∧ s.actIs pgSeq (seqF F.seqCtxCtrlEn c) = true ∧ (seqState s c = 0 ∨
      seqState s c = 4)) ∧
  (∃ (s : State) (c : SeqCtx) (pc : Nat), ∃ t, pc = seqPc s c ∧ t = seqTakeCtl s c true ∧ s.running pgSeq = true ∧
      s.actIs pgSeq F.ctrlDrain = false ∧ s.actIs pgSeq (seqF F.seqCtxCtrlEn c) = true ∧ 1 ≤ seqState s c ∧
      seqState s c ≤ 3) ∧
  (∃ (s : State) (c : SeqCtx) (pc : Nat), ∃ t, pc = seqPc s c ∧ t = seqTakeCtl s c true ∧ (s.running pgSeq = false ∨
      s.actIs pgSeq F.ctrlDrain = true ∨ s.actIs pgSeq (seqF F.seqCtxCtrlEn c) = false)) ∧
  (∃ (s : State) (c : SeqCtx) (pc : Nat), ∃ t, pc = seqPc s c ∧ t = seqTakeCtl s c false ∧ seqOut s c = false) ∧
  (∃ (s : State) (c : SeqCtx) (pc : Nat), ∃ t, pc = seqPc s c ∧ t = seqTakeCtl s c false ∧ seqOut s c = true) ∧
  (∃ (s : State) (c : SeqCtx) (pc : Nat), ∃ t, pc = seqPc s c ∧ t = seqTakeCtl s c false) :=
  ⟨⟨acting 1 0 0 0 0 0 (tx {op := 1, reply := some 0}), 0, _,
      { op := 1, f0 := false, f1 := false, a := 0, b := 0x00000000#32, b2 := 0x00000000#32, tries := 0, again := false, reply := some 0, data := 0x00000000#32, tick := 0, order := 0, writes := 0 }, 0, rfl, by decide +kernel⟩,
   ⟨acting 1 0 0 0 0 0 (tx {op := 0x10, reply := some 0}), 0, _,
      { op := 16, f0 := false, f1 := false, a := 0, b := 0x00000000#32, b2 := 0x00000000#32, tries := 0, again := false, reply := some 0, data := 0x00000000#32, tick := 0, order := 0, writes := 0 }, 0, _, rfl, rfl, by decide +kernel⟩,
   ⟨acting 1 0 0 0 0 0 (tx {op := 1, reply := some 8}), 0, _,
      { op := 1, f0 := false, f1 := false, a := 0, b := 0x00000000#32, b2 := 0x00000000#32, tries := 0, again := false, reply := some 8, data := 0x00000000#32, tick := 0, order := 0, writes := 0 }, 8, rfl, by decide +kernel⟩,
   ⟨acting 1 0 0 0 0 0 (tx {op := 1, reply := some 8, tries := 4}), 0, _,
      { op := 1, f0 := false, f1 := false, a := 0, b := 0x00000000#32, b2 := 0x00000000#32, tries := 4, again := false, reply := some 8, data := 0x00000000#32, tick := 0, order := 0, writes := 0 }, 8, rfl, by decide +kernel⟩,
   ⟨acting 1 0 0 0 0 0 (tx {op := 2, reply := some 3, f1 := true}), 0, _,
      { op := 2, f0 := false, f1 := true, a := 0, b := 0x00000000#32, b2 := 0x00000000#32, tries := 0, again := false, reply := some 3, data := 0x00000000#32, tick := 0, order := 0, writes := 0 }, 3, rfl, by decide +kernel⟩,
   ⟨acting 1 0 0 0 0 0 (fun x => {tx {op := 1, reply := some 0} x with stopping := true}), 0, _,
      { op := 1, f0 := false, f1 := false, a := 0, b := 0x00000000#32, b2 := 0x00000000#32, tries := 0, again := false, reply := some 0, data := 0x00000000#32, tick := 0, order := 0, writes := 0 }, 0, rfl, by decide +kernel⟩,
   ⟨acting 1 0 0 0 0 0 (fun x => {tx {op := 1, reply := some 0} x with expired := true}), 0, _,
      { op := 1, f0 := false, f1 := false, a := 0, b := 0x00000000#32, b2 := 0x00000000#32, tries := 0, again := false, reply := some 0, data := 0x00000000#32, tick := 0, order := 0, writes := 0 }, 0, rfl, by decide +kernel⟩,
   ⟨acting 2 0 0 0 0 0 (wt (.tick 0)), 0, _, 0, rfl, by decide +kernel⟩,
   ⟨acting 2 0 0 0 0 0 (wt (.tick 1)), 0, _, 1, rfl, by decide +kernel⟩,
   ⟨acting 2 0 0 0 0 0 (wt (.at_ 0 0)), 0, _, 0, 0, rfl, by decide +kernel⟩,
   ⟨acting 2 0 0 0 0 0 (wt (.at_ 1 0)), 0, _, 1, 0, rfl, by decide +kernel⟩,
   ⟨acting 3 0 0 0 0 0 (wt (.evt 5 5 true)), 0, _, 5, 5, true, rfl, by decide +kernel⟩,
   ⟨acting 3 0 0 0 0 0 (wt (.evt 5 5 false)), 0, _, 5, 5, false, rfl, by decide +kernel⟩,
   ⟨acting 3 0 0 0 0 0 (fun x => { x with wdog := 0xFFFF}), 0, _, rfl, by decide +kernel⟩,
   ⟨acting 3 0 0 0 0 0 (fun x => { tx {} x with wdog := 0xFFFF}), 0, _, rfl, by decide +kernel⟩,
   ⟨{ acting 1 0 0 0 0 0 id with arch.restarts := [(4*16, 1)] }, 0, _, rfl, by decide +kernel⟩,
   ⟨{ acting 1 0 0 0 0 0 id with arch.restarts := [(4*16, 1)] }, Master.hif, 0, _, (Instr.contextStart (Master.hif) 0,
      true), rfl, by decide +kernel⟩,
   ⟨acting 0 0 0 0 0 0 id, 0, _, _, rfl, rfl, by decide +kernel⟩,
   ⟨{ acting 1 0 0 0 0 0 id with arch.restarts := [(4*16, 1)] }, 0, _, _, rfl, rfl, by decide +kernel⟩,
   ⟨{ acting 1 0 0 0 0 0 id with arch.restarts := [(4*16, 1)] }, 1, _, _, rfl, rfl, by decide +kernel⟩,
   ⟨{ acting 1 0 0 0 0 0 id with arch.restarts := [(4*16, 1)] }, 0, _, _, rfl, rfl, by decide +kernel⟩,
   ⟨acting 1 0 0 0 0 0 (tx {op := 1, reply := some 0}), 0, _, _, rfl, rfl, by decide +kernel⟩,
   ⟨{ acting 1 0 0 0 0 0 id with arch.restarts := [(4*16, 1)] }, 0, _, _, rfl, rfl⟩⟩

/-- States and operands that meet the hypotheses of HostFramesAreCheckedExecutedAndDeferred. -/
theorem witness_HostFramesAreCheckedExecutedAndDeferred :
  (∃ (s : State) (f : HostFrame) (b : Byte), ∃ e, e ∈ [(Instr.read, 0x0B), (Instr.write, 0x02), (Instr.statusPoll, 0x05),
      (Instr.burstRead, 0x3B), (Instr.burstWrite, 0x32), (Instr.unknownCommand b, b.toNat)] ∧ s.live = true ∧
      (s.resetting pgHif = false) ∧ (s.hif.quadNext = none) ∧ hostIn s e.2 f = none) ∧
  (∃ (s : State) (f : HostFrame) (b : Byte), ∃ e k g, e ∈ [(Instr.read, 0x0B), (Instr.write, 0x02), (Instr.statusPoll,
      0x05), (Instr.burstRead, 0x3B), (Instr.burstWrite, 0x32), (Instr.unknownCommand b, b.toNat)] ∧ s.live = true ∧
      (s.resetting pgHif = false) ∧ (s.hif.quadNext = none) ∧ hostIn s e.2 f = some (k, g) ∧
      crc16 (frameBytes k g) ≠ g.crc) ∧
  (∃ (s : State) (f : HostFrame) (b : Byte), ∃ e, e ∈ [(Instr.read, 0x0B), (Instr.write, 0x02), (Instr.statusPoll, 0x05),
      (Instr.burstRead, 0x3B), (Instr.burstWrite, 0x32), (Instr.unknownCommand b, b.toNat)] ∧ s.live = true ∧
      (s.resetting pgHif = false) ∧ (s.hif.quadNext = none) ∧ (f.quad = s.is pgHif F.hifStatQuad) ∧
      f.data.length < wordsDue e.2 f) ∧
  (∃ (s : State) (f : HostFrame) (b : Byte), ∃ e, e ∈ [(Instr.read, 0x0B), (Instr.write, 0x02), (Instr.statusPoll, 0x05),
      (Instr.burstRead, 0x3B), (Instr.burstWrite, 0x32), (Instr.unknownCommand b, b.toNat)] ∧ s.live = true ∧
      (s.resetting pgHif = false) ∧ (s.hif.quadNext = none) ∧ (f.quad = s.is pgHif F.hifStatQuad) ∧
      f.data.length = wordsDue e.2 f) ∧
  (∃ (s : State) (f : HostFrame) (b : Byte), ∃ e w rest, e ∈ [(Instr.read, 0x0B), (Instr.write, 0x02), (Instr.statusPoll,
      0x05), (Instr.burstRead, 0x3B), (Instr.burstWrite, 0x32), (Instr.unknownCommand b, b.toNat)] ∧ s.live = true ∧
      (s.resetting pgHif = false) ∧ (s.hif.quadNext = none) ∧ (f.quad = s.is pgHif F.hifStatQuad) ∧
      f.data.drop (wordsDue e.2 f) = w :: rest) ∧
  (∃ (s : State) (f : HostFrame) (cmd : Byte), s.live = true ∧ (s.resetting pgHif = false) ∧ (s.hif.quadNext = none) ∧
      (f.quad = s.is pgHif F.hifStatQuad) ∧ cmd.toNat ∉ [0x0B, 0x02, 0x05, 0x3B, 0x32] ∧ f.data = [] ∧
      crc16 (frameBytes cmd.toNat f) = f.crc) ∧
  (∃ (s : State) (f : HostFrame), s.live = true ∧ (s.resetting pgHif = false) ∧ (s.hif.quadNext = none) ∧
      (f.quad = s.is pgHif F.hifStatQuad) ∧ f.data = [] ∧ crc16 (frameBytes 0x05 f) = f.crc ∧ f.len ≠ 0) ∧
  (∃ (s : State) (f : HostFrame), s.live = true ∧ (s.resetting pgHif = false) ∧ (s.hif.quadNext = none) ∧
      (f.quad = s.is pgHif F.hifStatQuad) ∧ f.data = [] ∧ crc16 (frameBytes 0x05 f) = f.crc ∧ f.len = 0) ∧
  (∃ (s : State) (f : HostFrame), ∃ e c, c = cmdOf e.2 f ∧ s.live = true ∧ (s.resetting pgHif = false) ∧
      (s.hif.quadNext = none) ∧ (f.quad = s.is pgHif F.hifStatQuad) ∧ e ∈ [(Instr.read f, 0x0B), (Instr.burstRead f,
      0x3B)] ∧ f.data = [] ∧ crc16 (frameBytes e.2 f) = f.crc ∧ (e.2 = 0x3B → c.inTarget = true) ∧
      (s.hif.deferred = none) ∧ hostBanks s c ∧ f.late = false) ∧
  (∃ (s : State) (f : HostFrame), ∃ e c, c = cmdOf e.2 f ∧ s.live = true ∧ (s.resetting pgHif = false) ∧
      (s.hif.quadNext = none) ∧ (f.quad = s.is pgHif F.hifStatQuad) ∧ e ∈ [(Instr.read f, 0x0B), (Instr.burstRead f,
      0x3B)] ∧ f.data = [] ∧ crc16 (frameBytes e.2 f) = f.crc ∧ (e.2 = 0x3B → c.inTarget = true) ∧
      (s.hif.deferred = none) ∧ hostBanks s c ∧ f.late = true) ∧
  (∃ (s : State) (f : HostFrame), ∃ e c, c = cmdOf e.2 f ∧ s.live = true ∧ (s.resetting pgHif = false) ∧
      (s.hif.quadNext = none) ∧ (f.quad = s.is pgHif F.hifStatQuad) ∧ e ∈ [(Instr.write f, 0x02), (Instr.burstWrite f,
      0x32)] ∧ f.data.length = c.n ∧ crc16 (frameBytes e.2 f) = f.crc ∧ (e.2 = 0x32 → c.inTarget = true) ∧
      (s.hif.deferred = none) ∧ hostBanks s c ∧ Memory.wf s.mem ∧ f.late = false) ∧
  (∃ (s : State) (f : HostFrame), ∃ e c, c = cmdOf e.2 f ∧ s.live = true ∧ (s.resetting pgHif = false) ∧
      (s.hif.quadNext = none) ∧ (f.quad = s.is pgHif F.hifStatQuad) ∧ e ∈ [(Instr.write f, 0x02), (Instr.burstWrite f,
      0x32)] ∧ f.data.length = c.n ∧ crc16 (frameBytes e.2 f) = f.crc ∧ (e.2 = 0x32 → c.inTarget = true) ∧
      (s.hif.deferred = none) ∧ hostBanks s c ∧ f.late = true) ∧
  (∃ (s : State) (f : HostFrame), ∃ e, ∃ (c : HostCmd), ∃ d, c = cmdOf e.2 f ∧ s.live = true ∧
      (s.resetting pgHif = false) ∧ (s.hif.quadNext = none) ∧ (f.quad = s.is pgHif F.hifStatQuad) ∧ e ∈ [(Instr.read f,
      0x0B), (Instr.write f, 0x02), (Instr.burstRead f, 0x3B), (Instr.burstWrite f, 0x32)] ∧ (s.hif.deferred = some d) ∧
      f.data.length = wordsDue e.2 f ∧ crc16 (frameBytes e.2 f) = f.crc ∧ (isBurstCmd e.2 = true → c.inTarget = true) ∧
      (d ≠ c ∨ s.hif.complete = false) ∧ (d.cmd = c.cmd → d.addr = c.addr → d.len = c.len → d.crc = c.crc → d = c)) ∧
  (∃ (s : State) (f : HostFrame), ∃ e, ∃ (c : HostCmd), ∃ d, c = cmdOf e.2 f ∧ s.live = true ∧
      (s.resetting pgHif = false) ∧ (s.hif.quadNext = none) ∧ (f.quad = s.is pgHif F.hifStatQuad) ∧ e ∈ [(Instr.read f,
      0x0B), (Instr.write f, 0x02), (Instr.burstRead f, 0x3B), (Instr.burstWrite f, 0x32)] ∧ (s.hif.deferred = some d) ∧
      f.data.length = wordsDue e.2 f ∧ crc16 (frameBytes e.2 f) = f.crc ∧ (isBurstCmd e.2 = true → c.inTarget = true) ∧
      d = c ∧ (s.hif.complete = true) ∧ (combined s.hif.done ≠ 8)) ∧
  (∃ (s : State), ∃ c, s.live = true ∧ (s.resetting pgHif = false) ∧ (s.hif.quadNext = none) ∧ c ∈ [Instr.frameAbort,
      Instr.frameTimeout]) ∧
  (∃ (s : State), ∃ c, s.live = true ∧ (s.resetting pgHif = false) ∧ (s.hif.quadNext = none) ∧ (s.hif.deferred = some c) ∧
      (s.hif.complete = false) ∧ (s.hif.done = []) ∧ isWriteCmd c.cmd = false ∧ hostBanks s c) ∧
  (∃ (s : State), s.live = true ∧ (s.resetting pgHif = false) ∧ (s.hif.quadNext = none) ∧ (s.hif.deferred.isSome = true) ∧
      (s.hif.complete = true)) ∧
  (∃ (s : State), s.live = true ∧ (s.resetting pgHif = false) ∧ (s.hif.quadNext = none) ∧ (s.hif.deferred = none ∨
      s.hif.complete = false)) :=
  ⟨⟨base, { hframe 0x0B 0x05000000 0 [] false with quad := true }, 0, (Instr.read, 0x0B), by simp, by decide +kernel⟩,
   ⟨base, { hframe 0x0B 0x05000000 0 [] false with crc := 1 }, 0, (Instr.read, 0x0B), 0x0B,
      { hframe 0x0B 0x05000000 0 [] false with crc := 1 }, by simp, by decide +kernel⟩,
   ⟨base, hframe 2 0x05000000 0 [] false, 0, (Instr.write, 0x02), by simp, by decide +kernel⟩,
   ⟨base, hframe 0x0B 0x05000000 0 [] false, 0, (Instr.read, 0x0B), by simp, by decide +kernel⟩,
   ⟨base, hframe 0x0B 0x05000000 0 [5] false, 0, (Instr.read, 0x0B), 5, [], by simp, by decide +kernel⟩,
   ⟨fb, { addr := 0x05000000#32, len := 0x01#8, data := [], crc := 0x78c6#16, late := false, quad := false }, 0x01#8,
      by decide +kernel⟩,
   ⟨fb, { addr := 0x05000000#32, len := 0x01#8, data := [], crc := 0x7e67#16, late := false, quad := false },
      by decide +kernel⟩,
   ⟨fb, { addr := 0x05000000#32, len := 0x00#8, data := [], crc := 0x6e46#16, late := false, quad := false },
      by decide +kernel⟩,
   ⟨fb, { addr := 0x05000000#32, len := 0x01#8, data := [], crc := 0xfec4#16, late := false, quad := false },
      (Instr.read { addr := 0x05000000#32, len := 0x01#8, data := [], crc := 0xfec4#16, late := false, quad := false },
      11), _, rfl, by decide +kernel⟩,
   ⟨fb, { addr := 0x05000000#32, len := 0x01#8, data := [], crc := 0xfec4#16, late := true, quad := false },
      (Instr.read { addr := 0x05000000#32, len := 0x01#8, data := [], crc := 0xfec4#16, late := true, quad := false },
      11), _, rfl, by decide +kernel⟩,
   ⟨fb, { addr := 0x05000000#32, len := 0x01#8, data := [0x00000003#32, 0x00000004#32], crc := 0x5a13#16, late := false, quad := false }, (Instr.write { addr := 0x05000000#32, len := 0x01#8, data := [0x00000003#32, 0x00000004#32], crc := 0x5a13#16, late := false, quad := false }, 2), _, rfl, by decide +kernel⟩,
   ⟨fb, { addr := 0x05000000#32, len := 0x01#8, data := [0x00000003#32, 0x00000004#32], crc := 0x5a13#16, late := true, quad := false }, (Instr.write { addr := 0x05000000#32, len := 0x01#8, data := [0x00000003#32, 0x00000004#32], crc := 0x5a13#16, late := true, quad := false }, 2), _, rfl, by decide +kernel⟩,
   ⟨{ fb with hif.deferred := some rd2 },
      { addr := 0x05000000#32, len := 0x01#8, data := [], crc := 0xfec4#16, late := false, quad := false },
      (Instr.read { addr := 0x05000000#32, len := 0x01#8, data := [], crc := 0xfec4#16, late := false, quad := false },
      11), _, { cmd := 11, addr := 0x05000000#32, n := 2, len := 1, data := [], crc := 65220 }, rfl, by decide +kernel⟩,
   ⟨{ fb with hif.deferred := some rd2, hif.complete := true, hif.done := [(0,1),(3,2)] },
      { addr := 0x05000000#32, len := 0x01#8, data := [], crc := 0xfec4#16, late := false, quad := false },
      (Instr.read { addr := 0x05000000#32, len := 0x01#8, data := [], crc := 0xfec4#16, late := false, quad := false },
      11), _, { cmd := 11, addr := 0x05000000#32, n := 2, len := 1, data := [], crc := 65220 }, rfl, by decide +kernel⟩,
   ⟨fb, Instr.frameAbort, by decide +kernel⟩,
   ⟨{ fb with hif.deferred := some rd2 },
      { cmd := 11, addr := 0x05000000#32, n := 2, len := 1, data := [], crc := 65220 }, by decide +kernel⟩,
   ⟨{ fb with hif.deferred := some rd2, hif.complete := true, hif.done := [(0,1),(3,2)] }, by decide +kernel⟩,
   ⟨fb, by decide +kernel⟩⟩

/-- States and operands that meet the hypotheses of AttentionClearsAndNetworkRequests. -/
theorem witness_AttentionClearsAndNetworkRequests :
  (∃ (s : State) (m : Master), granted s m = true) ∧
  (∃ (s : State) (header pay : List Byte) (h : AuxHdr) (ctr : Nat) (c : HostCmd), h = auxParse header ∧
      ctr = h.hi.toNat * 2 ^ 32 + h.lo.toNat ∧ c = netCmd pay ∧ s.live = true ∧ (s.resetting pgHif = false) ∧
      (s.actIs pgHif F.hifNetNetEn = false)) ∧
  (∃ (s : State) (header pay tail : List Byte) (h : AuxHdr) (ctr : Nat) (c : HostCmd), h = auxParse header ∧
      ctr = h.hi.toNat * 2 ^ 32 + h.lo.toNat ∧ c = netCmd pay ∧ s.live = true ∧ (s.resetting pgHif = false) ∧
      (s.actIs pgHif F.hifNetNetEn = true) ∧ (s.is pgSec F.secStatKeysUsable = false ∨ netTail s (header ++ pay) ≠ tail)) ∧
  (∃ (s : State) (header pay tail : List Byte) (h : AuxHdr) (ctr : Nat) (c : HostCmd), h = auxParse header ∧
      ctr = h.hi.toNat * 2 ^ 32 + h.lo.toNat ∧ c = netCmd pay ∧ s.live = true ∧ (s.resetting pgHif = false) ∧
      (s.actIs pgHif F.hifNetNetEn = true) ∧ s.is pgSec F.secStatKeysUsable = true ∧ netTail s (header ++ pay) = tail ∧
      ctr ≤ netL s) ∧
  (∃ (s : State) (header pay tail : List Byte) (h : AuxHdr) (ctr : Nat) (c : HostCmd), h = auxParse header ∧
      ctr = h.hi.toNat * 2 ^ 32 + h.lo.toNat ∧ c = netCmd pay ∧ s.live = true ∧ (s.resetting pgHif = false) ∧
      (s.actIs pgHif F.hifNetNetEn = true) ∧ s.is pgSec F.secStatKeysUsable = true ∧ netTail s (header ++ pay) = tail ∧
      netL s < ctr ∧ netLength h pay c = true ∧ cmdRefusal c = none ∧ (s.hif.net.length < 4)) ∧
  (∃ (s : State) (header pay tail : List Byte) (h : AuxHdr) (ctr : Nat) (c : HostCmd), h = auxParse header ∧
      ctr = h.hi.toNat * 2 ^ 32 + h.lo.toNat ∧ c = netCmd pay ∧ s.live = true ∧ (s.resetting pgHif = false) ∧
      (s.actIs pgHif F.hifNetNetEn = true) ∧ s.is pgSec F.secStatKeysUsable = true ∧ netTail s (header ++ pay) = tail ∧
      netL s < ctr ∧ netLength h pay c = true ∧ cmdRefusal c = none ∧ (4 ≤ s.hif.net.length)) ∧
  (∃ (s : State), ∃ x rest, s.live = true ∧ (s.resetting pgHif = false) ∧ (s.hif.net = x :: rest) ∧ x.cmd.cmd = 0x05) ∧
  (∃ (s : State), ∃ x rest, s.live = true ∧ (s.resetting pgHif = false) ∧ (s.hif.net = x :: rest) ∧ (x.cmd.cmd = 0x0B ∨
      x.cmd.cmd = 0x3B) ∧ x.done = [] ∧ hostBanks s x.cmd ∧ (x.cmd.cmd = 0x3B → x.cmd.inTarget = true)) ∧
  (∃ (s : State), ∃ x rest, s.live = true ∧ (s.resetting pgHif = false) ∧ (s.hif.net = x :: rest) ∧ x.cmd.cmd = 0x0B ∧
      x.done = [] ∧ 1 ≤ x.cmd.n ∧ (s.qport 0).stallRes = none ∧ (s.qport 0).stall = none ∧
      mustWait s 0 (targetOf s 0 (x.cmd.at_ 0) 0xF false) = true) ∧
  (∃ (s : State), s.live = true ∧ (s.resetting pgHif = false) ∧ (s.hif.net = [])) :=
  ⟨⟨fb, Master.hif, by decide +kernel⟩,
   ⟨fb, [0x13#8, 0x00#8, 0x00#8, 0x03#8, 0x00#8, 0x40#8, 0x00#8, 0x00#8, 0x00#8, 0x00#8, 0x00#8, 0x00#8, 0x00#8, 0x05#8,
      0x00#8, 0x00#8, 0x00#8, 0x00#8, 0x00#8, 0x00#8, 0x00#8, 0x00#8, 0x00#8, 0x06#8, 0x00#8, 0x00#8, 0x00#8, 0x00#8,
      0x00#8, 0x00#8, 0x00#8, 0x05#8], [0x13#8, 0x00#8, 0x00#8, 0x03#8, 0x00#8, 0x40#8, 0x00#8, 0x00#8, 0x00#8, 0x00#8,
      0x00#8, 0x00#8, 0x00#8, 0x05#8, 0x00#8, 0x00#8, 0x00#8, 0x00#8, 0x00#8, 0x00#8, 0x00#8, 0x00#8, 0x00#8, 0x06#8,
      0x00#8, 0x00#8, 0x00#8, 0x00#8, 0x00#8, 0x00#8, 0x00#8, 0x05#8], _, _, _, rfl, rfl, rfl, by decide +kernel⟩,
   ⟨usable fb, [0x13#8, 0x00#8, 0x00#8, 0x03#8, 0x00#8, 0x40#8, 0x00#8, 0x00#8, 0x00#8, 0x00#8, 0x00#8, 0x00#8, 0x00#8,
      0x05#8, 0x00#8, 0x00#8, 0x00#8, 0x00#8, 0x00#8, 0x00#8, 0x00#8, 0x00#8, 0x00#8, 0x06#8, 0x00#8, 0x00#8, 0x00#8,
      0x00#8, 0x00#8, 0x00#8, 0x00#8, 0x05#8], [0x13#8, 0x00#8, 0x00#8, 0x03#8, 0x00#8, 0x40#8, 0x00#8, 0x00#8, 0x00#8,
      0x00#8, 0x00#8, 0x00#8, 0x00#8, 0x05#8, 0x00#8, 0x00#8, 0x00#8, 0x00#8, 0x00#8, 0x00#8, 0x00#8, 0x00#8, 0x00#8,
      0x06#8, 0x00#8, 0x00#8, 0x00#8, 0x00#8, 0x00#8, 0x00#8, 0x00#8, 0x05#8], [0x13#8, 0x00#8, 0x00#8, 0x03#8, 0x00#8,
      0x40#8, 0x00#8, 0x00#8, 0x00#8, 0x00#8, 0x00#8, 0x00#8, 0x00#8, 0x05#8, 0x00#8, 0x00#8, 0x00#8, 0x00#8, 0x00#8,
      0x00#8, 0x00#8, 0x00#8, 0x00#8, 0x06#8, 0x00#8, 0x00#8, 0x00#8, 0x00#8, 0x00#8, 0x00#8, 0x00#8, 0x05#8], _, _, _,
      rfl, rfl, rfl, by decide +kernel⟩,
   ⟨(usable fb).setF pgHif F.hifNetCtrLoL 5, [0x13#8, 0x00#8, 0x00#8, 0x03#8, 0x00#8, 0x40#8, 0x00#8, 0x00#8, 0x00#8,
      0x00#8, 0x00#8, 0x00#8, 0x00#8, 0x05#8, 0x00#8, 0x00#8, 0x00#8, 0x00#8, 0x00#8, 0x00#8, 0x00#8, 0x00#8, 0x00#8,
      0x06#8, 0x00#8, 0x00#8, 0x00#8, 0x00#8, 0x00#8, 0x00#8, 0x00#8, 0x05#8], [0x0b#8, 0x05#8, 0x00#8, 0x00#8, 0x00#8,
      0x00#8], [0xd3#8, 0x69#8, 0x67#8, 0x2c#8, 0xe7#8, 0x0a#8, 0x64#8, 0x40#8, 0xd8#8, 0xf5#8, 0x7b#8, 0x52#8, 0x37#8,
      0xa1#8, 0x89#8, 0xc9#8], _, _, _, rfl, rfl, rfl, by decide +kernel⟩,
   ⟨usable fb, [0x13#8, 0x00#8, 0x00#8, 0x03#8, 0x00#8, 0x40#8, 0x00#8, 0x00#8, 0x00#8, 0x00#8, 0x00#8, 0x00#8, 0x00#8,
      0x05#8, 0x00#8, 0x00#8, 0x00#8, 0x00#8, 0x00#8, 0x00#8, 0x00#8, 0x00#8, 0x00#8, 0x06#8, 0x00#8, 0x00#8, 0x00#8,
      0x00#8, 0x00#8, 0x00#8, 0x00#8, 0x05#8], [0x0b#8, 0x05#8, 0x00#8, 0x00#8, 0x00#8, 0x00#8], [0xd3#8, 0x69#8, 0x67#8,
      0x2c#8, 0xe7#8, 0x0a#8, 0x64#8, 0x40#8, 0xd8#8, 0xf5#8, 0x7b#8, 0x52#8, 0x37#8, 0xa1#8, 0x89#8, 0xc9#8], _, _, _,
      rfl, rfl, rfl, by decide +kernel⟩,
   ⟨net (List.replicate 4 {}), [0x13#8, 0x00#8, 0x00#8, 0x03#8, 0x00#8, 0x40#8, 0x00#8, 0x00#8, 0x00#8, 0x00#8, 0x00#8,
      0x00#8, 0x00#8, 0x05#8, 0x00#8, 0x00#8, 0x00#8, 0x00#8, 0x00#8, 0x00#8, 0x00#8, 0x00#8, 0x00#8, 0x06#8, 0x00#8,
      0x00#8, 0x00#8, 0x00#8, 0x00#8, 0x00#8, 0x00#8, 0x05#8], [0x0b#8, 0x05#8, 0x00#8, 0x00#8, 0x00#8, 0x00#8], [0xd3#8,
      0x69#8, 0x67#8, 0x2c#8, 0xe7#8, 0x0a#8, 0x64#8, 0x40#8, 0xd8#8, 0xf5#8, 0x7b#8, 0x52#8, 0x37#8, 0xa1#8, 0x89#8,
      0xc9#8], _, _, _, rfl, rfl, rfl, by decide +kernel⟩,
   ⟨net [{ cmd := { cmd := 5 } }],
      { port := 0, src := 0, header := [], cmd := { cmd := 5, addr := 0x00000000#32, n := 0, len := 0, data := [], crc := 0 }, done := [], waits := false }, [], by decide +kernel⟩,
   ⟨net [{ cmd := rd2 }],
      { port := 0, src := 0, header := [], cmd := { cmd := 11, addr := 0x05000000#32, n := 2, len := 1, data := [], crc := 65220 }, done := [], waits := false }, [], by decide +kernel⟩,
   ⟨{ net [{ cmd := rd2 }] with mx.locks := [(1, {master := 1}), (2, {master := 1})] },
      { port := 0, src := 0, header := [], cmd := { cmd := 11, addr := 0x05000000#32, n := 2, len := 1, data := [], crc := 65220 }, done := [], waits := false }, [], by decide +kernel⟩,
   ⟨fb, by decide +kernel⟩⟩

/-- States and operands that meet the hypotheses of FaultCollectorRecordsReactsAndReleases. -/
theorem witness_FaultCollectorRecordsReactsAndReleases :
  (∃ (s : State), ∃ x, ∃ (sev : Nat), sev = (if s.shadowed x.src && !shadowExempt x.src x.kind then 2 else 0) ∧
      s.live = true ∧ s.running pgFlt = true ∧ nextMsg s = some x ∧ x.cease = false ∧ x.crim = false ∧
      promotion s x = none ∧ s.flt.recs.length < 256 ∧ (s.actIs pgFlt F.fltCfgCoalesce = false ∨ ∀ r ∈ s.flt.recs,
      r.src ≠ x.src ∨ r.kind ≠ x.kind ∨ r.ctx ≠ x.ctx ∨ r.sev ≠ sev)) ∧
  (∃ (s : State), ∃ x, ∃ (sev : Nat), sev = (if s.shadowed x.src && !shadowExempt x.src x.kind then 2 else 0) ∧
      s.live = true ∧ s.running pgFlt = true ∧ nextMsg s = some x ∧ x.cease = false ∧ x.crim = false ∧
      promotion s x = none ∧ s.actIs pgFlt F.fltCfgCoalesce = true ∧ x.kind ≠ 0x7F ∧ (∃ r ∈ s.flt.recs, r.src = x.src ∧
      r.kind = x.kind ∧ r.ctx = x.ctx ∧ r.sev = sev)) ∧
  (∃ (s : State), ∃ x, ∃ (sev : Nat), sev = (if s.shadowed x.src && !shadowExempt x.src x.kind then 2 else 0) ∧
      s.live = true ∧ s.running pgFlt = true ∧ nextMsg s = some x ∧ x.cease = false ∧ x.crim = false ∧
      promotion s x = none ∧ 256 ≤ s.flt.recs.length ∧ s.actIs pgFlt F.fltCfgCoalesce = false ∧ (∀ r,
      s.flt.recs.getLast? = some r → r.kind ≠ 0x7F)) ∧
  (∃ (s : State), ∃ x, s.live = true ∧ s.running pgFlt = true ∧ nextMsg s = some x ∧ x.cease = false ∧ x.crim = true ∧
      s.flt.recs.length < 256 ∧ x.react = 2 ∧ s.shadowed x.src = false) ∧
  (∃ (s : State), ∃ x, s.live = true ∧ s.running pgFlt = true ∧ nextMsg s = some x ∧ x.cease = false ∧ x.crim = true ∧
      s.flt.recs.length < 256 ∧ x.react = 1) ∧
  (∃ (s : State), ∃ x, s.live = true ∧ s.running pgFlt = true ∧ nextMsg s = some x ∧ x.cease = true) ∧
  (∃ (s : State), ∃ x, s.live = true ∧ s.running pgFlt = true ∧ nextMsg s = some x ∧ x.cease = false) ∧
  (∃ (s : State), s.live = true ∧ s.running pgFlt = true ∧ nextMsg s = none) ∧
  (∃ (s : State), ∃ h, s.live = true ∧ s.running pgFlt = true ∧
      s.flt.shadows.find? (fun h => decide (h.until_ ≤ s.arch.began.get 0 pgFlt)) = some h ∧ (∀ r ∈ s.flt.recs,
      r.sev ≠ 2 ∨ r.level = false ∨ r.transient = true)) ∧
  (∃ (s : State), ∃ h r, s.live = true ∧ s.running pgFlt = true ∧
      s.flt.shadows.find? (fun h => decide (h.until_ ≤ s.arch.began.get 0 pgFlt)) = some h ∧ s.flt.shadows = [h] ∧
      s.flt.recs = [r] ∧ r.sev = 2 ∧ r.level = true ∧ r.transient = false ∧ h.pages.contains r.src = true ∧
      r.msg.crim = false ∧ promotion s r.msg = none) ∧
  (∃ (s : State), s.live = true ∧ s.running pgFlt = true ∧ (∀ h ∈ s.flt.shadows, s.arch.began.get 0 pgFlt < h.until_)) ∧
  (∃ (s : State) (m : Master), ∃ r rest, granted s m = true ∧ s.flt.recs = r :: rest) ∧
  (∃ (s : State) (m : Master), granted s m = true) ∧
  (∃ (s : State) (m : Master), granted s m = true ∧ engaged s pgFlt = true) ∧
  (∃ (s : State) (m : Master), granted s m = true ∧ engaged s pgFlt = false) ∧
  (∃ (s : State) (m : Master), granted s m = true) ∧
  (∃ (s : State), s.arch.acts = [(keyOf pgFlt 0x054, 4)]) ∧
  (∃ (s : State), ∃ cause, s.arch.resetSeq = some cause ∧ s.dev.phase ≠ .vauxOff) ∧
  (∃ (s : State), s.arch.resetSeq = none) :=
  ⟨⟨faulted [am] [] [],
      { src := 160, bit := 0, kind := 5, ctx := 0x00000003#32, crim := false, react := 0, rpt := 0, cease := false, level := true, held := false, abs := false }, _, rfl, by decide +kernel⟩,
   ⟨faulted [am] [{ rec1 with sev := 2 }] [{ pages := [0xA0], until_ := 5 }],
      { src := 160, bit := 0, kind := 5, ctx := 0x00000003#32, crim := false, react := 0, rpt := 0, cease := false, level := true, held := false, abs := false }, _, rfl, by decide +kernel⟩,
   ⟨(faulted [am] (List.replicate 256 rec1) []).setF pgFlt F.fltCfgCoalesce 0,
      { src := 160, bit := 0, kind := 5, ctx := 0x00000003#32, crim := false, react := 0, rpt := 0, cease := false, level := true, held := false, abs := false }, _, rfl, by decide +kernel⟩,
   ⟨faulted [cr 0x30 2] [] [],
      { src := 160, bit := 0, kind := 48, ctx := 0x00000003#32, crim := true, react := 2, rpt := 0, cease := false, level := false, held := false, abs := false }, by decide +kernel⟩,
   ⟨faulted [cr 0x41 1] [] [],
      { src := 160, bit := 0, kind := 65, ctx := 0x00000003#32, crim := true, react := 1, rpt := 0, cease := false, level := false, held := false, abs := false }, by decide +kernel⟩,
   ⟨faulted [{ am with cease := true }] [rec1, {rec1 with ctx := 9}] [],
      { src := 160, bit := 0, kind := 5, ctx := 0x00000003#32, crim := false, react := 0, rpt := 0, cease := true, level := true, held := false, abs := false }, by decide +kernel⟩,
   ⟨faulted [{ cr 0x30 3 with held := true }] [] [],
      { src := 160, bit := 0, kind := 48, ctx := 0x00000003#32, crim := true, react := 3, rpt := 0, cease := false, level := false, held := true, abs := false }, by decide +kernel⟩,
   ⟨base, by decide +kernel⟩,
   ⟨faulted [] [] [{ pages := [0xA0], until_ := 0 }], { pages := [160], until_ := 0 }, by decide +kernel⟩,
   ⟨faulted [] [{ rec1 with sev := 2 }] [{ pages := [0xA0], until_ := 0 }], { pages := [0xA0], until_ := 0 },
      { rec1 with sev := 2 }, by decide +kernel⟩,
   ⟨base, by decide +kernel⟩,
   ⟨faulted [] [{ rec1 with sev := 2, again := true }] [{ pages := [0xA0], until_ := 0 }], Master.hif,
      { src := 160, kind := 5, sev := 2, react := 0, transient := false, reraised := false, promoted := false, absorbed := false, count := 0, ctx := 0x00000003#32, timeNs := 0, timeSec := 0x00000000#32, level := true, msg := { src := 160, bit := 0, kind := 5, ctx := 0x00000003#32, crim := false, react := 0, rpt := 0, cease := false, level := true, held := false, abs := false }, again := true }, [], by decide +kernel⟩,
   ⟨base, Master.hif, by decide +kernel⟩,
   ⟨base, Master.hif, by decide +kernel⟩,
   ⟨(({ base with flt.first := some rec1 }).setF pgFlt F.ctrlEn 0).setF pgFlt F.statRun 0, Master.hif, by decide +kernel⟩,
   ⟨base, Master.hif, by decide +kernel⟩,
   ⟨{ base with flt.first := some rec1, arch.acts := [(keyOf pgFlt 0x54, 4)] }, by decide +kernel⟩,
   ⟨{ base with arch.resetSeq := some 3 }, 3, by decide +kernel⟩,
   ⟨base, by decide +kernel⟩⟩

/-- States and operands that meet the hypotheses of UnitsExchangeHeartbeatsAndChangeRoles. -/
theorem witness_UnitsExchangeHeartbeatsAndChangeRoles :
  (∃ (s : State) (n st : Nat), n = redTick s ∧ st = redState s ∧ s.live = true ∧ s.running pgRed = true ∧ st ≠ 0 ∧
      n % 3 = 0 ∧ s.red.hbTick ≠ some n) ∧
  (∃ (s : State) (n st : Nat), n = redTick s ∧ st = redState s ∧ s.live = true ∧ s.running pgRed = true ∧ (st = 0 ∨
      n % 3 ≠ 0 ∨ s.red.hbTick = some n)) ∧
  (∃ (s : State) (n st : Nat), n = redTick s ∧ st = redState s ∧ s.live = true ∧ s.running pgRed = true ∧
      s.red.missDue = true) ∧
  (∃ (s : State) (n st : Nat), n = redTick s ∧ st = redState s ∧ s.live = true ∧ s.running pgRed = true ∧
      s.red.missDue = false) ∧
  (∃ (s : State) (n st : Nat), n = redTick s ∧ st = redState s ∧ s.live = true ∧ s.running pgRed = true ∧
      s.actIs pgRed F.redHealthEn = true ∧ n % 2400 = 0 ∧ s.red.healthTick ≠ some n) ∧
  (∃ (s : State) (n st : Nat), n = redTick s ∧ st = redState s ∧ s.live = true ∧ s.running pgRed = true ∧
      (s.actIs pgRed F.redHealthEn = false ∨ n % 2400 ≠ 0 ∨ s.red.healthTick = some n)) ∧
  (∃ (s : State) (n st : Nat), n = redTick s ∧ st = redState s ∧ s.live = true ∧ s.running pgRed = true ∧ st = 3 ∧
      s.red.peerReq = true ∧ s.red.reqAt < n ∧ n % 24 = 0) ∧
  (∃ (s : State) (n st : Nat), n = redTick s ∧ st = redState s ∧ s.live = true ∧ s.running pgRed = true ∧ (st ≠ 3 ∨
      s.red.peerReq = false ∨ n ≤ s.red.reqAt ∨ n % 24 ≠ 0)) ∧
  (∃ (s : State) (n st : Nat), ∃ peer, n = redTick s ∧ st = redState s ∧ peer = s.reg pgRed F.redPeerClaimClaim.ofs ∧
      s.live = true ∧ s.running pgRed = true ∧ st = 1 ∧ s.red.listened = false ∧
      s.act pgRed F.redTimerListen ≤ s.red.listen ∧ s.red.hbEver = true ∧ s.red.lost = false ∧
      s.rd pgRed F.redStatPeerState = 1) ∧
  (∃ (s : State) (n st : Nat), n = redTick s ∧ st = redState s ∧ s.live = true ∧ s.running pgRed = true ∧ st = 1 ∧
      s.red.listened = false ∧ s.act pgRed F.redTimerListen ≤ s.red.listen ∧ s.red.hbEver = false ∧ equalPeer s = true) ∧
  (∃ (s : State) (n st : Nat), n = redTick s ∧ st = redState s ∧ s.live = true ∧ s.running pgRed = true ∧ st = 1 ∧
      s.red.listened = false ∧ s.act pgRed F.redTimerListen ≤ s.red.listen ∧ s.red.hbEver = false ∧ equalPeer s = false ∧
      s.is pgRed F.redStatWitness = true) ∧
  (∃ (s : State) (n st : Nat), n = redTick s ∧ st = redState s ∧ s.live = true ∧ s.running pgRed = true ∧ st = 1 ∧
      s.red.listened = false ∧ s.act pgRed F.redTimerListen ≤ s.red.listen ∧ s.red.hbEver = false ∧ equalPeer s = false ∧
      s.is pgRed F.redStatWitness = false ∧ (∀ x ∈ s.flt.levels, x.src ≠ pgRed ∨ x.bit ≠ F.redFltPeerLink.lo)) ∧
  (∃ (s : State) (n st : Nat), n = redTick s ∧ st = redState s ∧ s.live = true ∧ s.running pgRed = true ∧ (st ≠ 1 ∨
      s.red.listen < s.act pgRed F.redTimerListen)) ∧
  (∃ (s : State) (n st : Nat), n = redTick s ∧ st = redState s ∧ s.live = true ∧ s.running pgRed = true ∧ st = 4 ∧
      s.red.relLeft = 0) ∧
  (∃ (s : State) (n st : Nat), n = redTick s ∧ st = redState s ∧ s.live = true ∧ s.running pgRed = true ∧ (st ≠ 4 ∨
      s.red.relLeft ≠ 0)) ∧
  (∃ (s : State) (n st : Nat), n = redTick s ∧ st = redState s ∧ s.live = true ∧ s.running pgRed = true ∧
      verdictOf s = 1 ∧ s.red.checkLeft = []) ∧
  (∃ (s : State) (n st : Nat), n = redTick s ∧ st = redState s ∧ s.live = true ∧ s.running pgRed = true ∧
      (verdictOf s ≠ 1 ∨ s.red.checkLeft ≠ [])) ∧
  (∃ (s : State) (n st : Nat), n = redTick s ∧ st = redState s ∧ s.live = true ∧ s.running pgRed = true ∧
      s.red.waiting = true) ∧
  (∃ (s : State) (n st : Nat), n = redTick s ∧ st = redState s ∧ s.live = true ∧ s.running pgRed = true ∧
      s.red.waiting = false) ∧
  (∃ (s : State) (n st : Nat) (bytes : List Byte) (f : AuxFrame) (u : State), n = redTick s ∧ st = redState s ∧
      f = auxOf bytes ∧ u = remoteEnds (s.signal pgPlk) 4 ∧ s.live = true ∧ s.running pgPlk = true ∧
      (s.actIs pgPlk F.macTestPrbsEn = true ∨ s.act pgPlk F.macTestLoopback = 1 ∨ draining s pgPlk = true ∨
      linkState s 4 = 0)) ∧
  (∃ (s : State) (n st : Nat) (bytes : List Byte) (f : AuxFrame) (u : State), n = redTick s ∧ st = redState s ∧
      f = auxOf bytes ∧ u = remoteEnds (s.signal pgPlk) 4 ∧ s.live = true ∧ s.running pgPlk = true ∧
      s.actIs pgPlk F.macTestPrbsEn = false ∧ s.act pgPlk F.macTestLoopback ≠ 1 ∧ draining s pgPlk = false ∧
      linkState s 4 ≠ 0 ∧ linkState s 4 ≠ 2) ∧
  (∃ (s : State) (n st : Nat) (bytes : List Byte) (f : AuxFrame) (u : State), n = redTick s ∧ st = redState s ∧
      f = auxOf bytes ∧ u = remoteEnds (s.signal pgPlk) 4 ∧ s.live = true ∧ s.running pgPlk = true ∧
      s.actIs pgPlk F.macTestPrbsEn = false ∧ s.act pgPlk F.macTestLoopback ≠ 1 ∧ draining s pgPlk = false ∧
      linkState s 4 = 2 ∧ etypeOf bytes ≠ s.act pgStrg F.strgCfgEtype) ∧
  (∃ (s : State) (n st : Nat) (bytes : List Byte) (f : AuxFrame) (u : State), n = redTick s ∧ st = redState s ∧
      f = auxOf bytes ∧ u = remoteEnds (s.signal pgPlk) 4 ∧ s.live = true ∧ s.running pgPlk = true ∧
      s.actIs pgPlk F.macTestPrbsEn = false ∧ s.act pgPlk F.macTestLoopback ≠ 1 ∧ draining s pgPlk = false ∧
      linkState s 4 = 2 ∧ etypeOf bytes = s.act pgStrg F.strgCfgEtype ∧ (f.hdr.version ≠ 1 ∨ f.hdr.type ≠ tHeartbeat ∨
      f.sound = false ∨ f.hdr.node ≠ s.act pgStrg F.strgNodeNodeId)) ∧
  (∃ (s : State) (n st : Nat) (bytes : List Byte) (f : AuxFrame) (u : State), n = redTick s ∧ st = redState s ∧
      f = auxOf bytes ∧ u = remoteEnds (s.signal pgPlk) 4 ∧ s.live = true ∧ s.running pgPlk = true ∧
      s.actIs pgPlk F.macTestPrbsEn = false ∧ s.act pgPlk F.macTestLoopback ≠ 1 ∧ draining s pgPlk = false ∧
      linkState s 4 = 2 ∧ etypeOf bytes = s.act pgStrg F.strgCfgEtype ∧ f.hdr.version = 1 ∧ f.hdr.type = tHeartbeat ∧
      f.sound = true ∧ f.hdr.node = s.act pgStrg F.strgNodeNodeId ∧ st = 0) ∧
  (∃ (s : State) (n st : Nat) (bytes : List Byte) (f : AuxFrame) (u : State), n = redTick s ∧ st = redState s ∧
      f = auxOf bytes ∧ u = remoteEnds (s.signal pgPlk) 4 ∧ s.live = true ∧ s.running pgPlk = true ∧
      s.actIs pgPlk F.macTestPrbsEn = false ∧ s.act pgPlk F.macTestLoopback ≠ 1 ∧ draining s pgPlk = false ∧
      linkState s 4 = 2 ∧ etypeOf bytes = s.act pgStrg F.strgCfgEtype ∧ f.hdr.version = 1 ∧ f.hdr.type = tHeartbeat ∧
      f.sound = true ∧ f.hdr.node = s.act pgStrg F.strgNodeNodeId ∧ st ≠ 0 ∧ getBits f.hdr.claim 7 0 = ownTag s) ∧
  (∃ (s : State) (n st : Nat) (bytes : List Byte) (f : AuxFrame) (u : State), n = redTick s ∧ st = redState s ∧
      f = auxOf bytes ∧ u = remoteEnds (s.signal pgPlk) 4 ∧ s.live = true ∧ s.running pgPlk = true ∧
      s.actIs pgPlk F.macTestPrbsEn = false ∧ s.act pgPlk F.macTestLoopback ≠ 1 ∧ draining s pgPlk = false ∧
      linkState s 4 = 2 ∧ etypeOf bytes = s.act pgStrg F.strgCfgEtype ∧ f.hdr.version = 1 ∧ f.hdr.type = tHeartbeat ∧
      f.sound = true ∧ f.hdr.node = s.act pgStrg F.strgNodeNodeId ∧ st ≠ 0 ∧ getBits f.hdr.claim 7 0 ≠ ownTag s) ∧
  (∃ (s : State) (n st : Nat) (bytes : List Byte) (f : AuxFrame) (u : State), n = redTick s ∧ st = redState s ∧
      f = auxOf bytes ∧ u = remoteEnds (s.signal pgPlk) 4 ∧ s.live = true ∧ s.running pgPlk = true ∧
      s.actIs pgPlk F.macTestPrbsEn = false ∧ s.act pgPlk F.macTestLoopback ≠ 1 ∧ draining s pgPlk = false ∧
      linkState s 4 = 2 ∧ etypeOf bytes = s.act pgStrg F.strgCfgEtype ∧ (f.hdr.version ≠ 1 ∨ f.hdr.type ≠ tHealth ∨
      f.sound = false)) ∧
  (∃ (s : State) (n st : Nat) (bytes : List Byte) (f : AuxFrame) (u : State), n = redTick s ∧ st = redState s ∧
      f = auxOf bytes ∧ u = remoteEnds (s.signal pgPlk) 4 ∧ s.live = true ∧ s.running pgPlk = true ∧
      s.actIs pgPlk F.macTestPrbsEn = false ∧ s.act pgPlk F.macTestLoopback ≠ 1 ∧ draining s pgPlk = false ∧
      linkState s 4 = 2 ∧ etypeOf bytes = s.act pgStrg F.strgCfgEtype ∧ f.hdr.version = 1 ∧ f.hdr.type = tHealth ∧
      f.sound = true ∧ st = 0) ∧
  (∃ (s : State) (n st : Nat) (bytes : List Byte) (f : AuxFrame) (u : State), n = redTick s ∧ st = redState s ∧
      f = auxOf bytes ∧ u = remoteEnds (s.signal pgPlk) 4 ∧ s.live = true ∧ s.running pgPlk = true ∧
      s.actIs pgPlk F.macTestPrbsEn = false ∧ s.act pgPlk F.macTestLoopback ≠ 1 ∧ draining s pgPlk = false ∧
      linkState s 4 = 2 ∧ etypeOf bytes = s.act pgStrg F.strgCfgEtype ∧ f.hdr.version = 1 ∧ f.hdr.type = tHealth ∧
      f.sound = true ∧ st ≠ 0 ∧ f.hdr.node ≠ s.act pgStrg F.strgNodeNodeId) ∧
  (∃ (s : State) (n st : Nat) (bytes : List Byte) (f : AuxFrame) (u : State), n = redTick s ∧ st = redState s ∧
      f = auxOf bytes ∧ u = remoteEnds (s.signal pgPlk) 4 ∧ s.live = true ∧ s.running pgPlk = true ∧
      s.actIs pgPlk F.macTestPrbsEn = false ∧ s.act pgPlk F.macTestLoopback ≠ 1 ∧ draining s pgPlk = false ∧
      linkState s 4 = 2 ∧ etypeOf bytes = s.act pgStrg F.strgCfgEtype ∧ f.hdr.version = 1 ∧ f.hdr.type = tHealth ∧
      f.sound = true ∧ st ≠ 0 ∧ f.hdr.node = s.act pgStrg F.strgNodeNodeId ∧ getBits f.hdr.claim 7 0 = ownTag s ∧
      f.hdr.claim ≠ ownClaim s) ∧
  (∃ (s : State) (n st : Nat) (bytes : List Byte) (f : AuxFrame) (u : State), n = redTick s ∧ st = redState s ∧
      f = auxOf bytes ∧ u = remoteEnds (s.signal pgPlk) 4 ∧ s.live = true ∧ s.running pgPlk = true ∧
      s.actIs pgPlk F.macTestPrbsEn = false ∧ s.act pgPlk F.macTestLoopback ≠ 1 ∧ draining s pgPlk = false ∧
      linkState s 4 = 2 ∧ etypeOf bytes = s.act pgStrg F.strgCfgEtype ∧ f.hdr.version = 1 ∧ f.hdr.type = tHealth ∧
      f.sound = true ∧ st ≠ 0 ∧ f.hdr.node = s.act pgStrg F.strgNodeNodeId ∧ getBits f.hdr.claim 7 0 = ownTag s ∧
      f.hdr.claim = ownClaim s) ∧
  (∃ (s : State) (n st : Nat) (bytes : List Byte) (f : AuxFrame) (u : State), n = redTick s ∧ st = redState s ∧
      f = auxOf bytes ∧ u = remoteEnds (s.signal pgPlk) 4 ∧ s.live = true ∧ s.running pgPlk = true ∧
      s.actIs pgPlk F.macTestPrbsEn = false ∧ s.act pgPlk F.macTestLoopback ≠ 1 ∧ draining s pgPlk = false ∧
      linkState s 4 = 2 ∧ etypeOf bytes = s.act pgStrg F.strgCfgEtype ∧ f.hdr.version = 1 ∧ f.hdr.type = tHealth ∧
      f.sound = true ∧ st ≠ 0 ∧ f.hdr.node = s.act pgStrg F.strgNodeNodeId ∧ getBits f.hdr.claim 7 0 ≠ ownTag s ∧
      getBits f.hdr.hi 23 20 = 0) ∧
  (∃ (s : State) (n st : Nat) (bytes : List Byte) (f : AuxFrame) (u : State), n = redTick s ∧ st = redState s ∧
      f = auxOf bytes ∧ u = remoteEnds (s.signal pgPlk) 4 ∧ s.live = true ∧ s.running pgPlk = true ∧
      s.actIs pgPlk F.macTestPrbsEn = false ∧ s.act pgPlk F.macTestLoopback ≠ 1 ∧ draining s pgPlk = false ∧
      linkState s 4 = 2 ∧ etypeOf bytes = s.act pgStrg F.strgCfgEtype ∧ f.hdr.version = 1 ∧ f.hdr.type = tHealth ∧
      f.sound = true ∧ st ≠ 0 ∧ f.hdr.node = s.act pgStrg F.strgNodeNodeId ∧ getBits f.hdr.claim 7 0 ≠ ownTag s ∧
      getBits f.hdr.hi 23 20 = 1 ∧ st = 2) ∧
  (∃ (s : State) (m : Master) (n st : Nat), n = redTick s ∧ st = redState s ∧ granted s m = true) ∧
  (∃ (s : State) (m : Master) (n st : Nat), n = redTick s ∧ st = redState s ∧ granted s m = true ∧ st = 3 ∧
      s.rd pgRed F.redStatPeerState = 2) ∧
  (∃ (s : State) (m : Master) (n st : Nat), n = redTick s ∧ st = redState s ∧ granted s m = true ∧ (st ≠ 3 ∨
      s.rd pgRed F.redStatPeerState ≠ 2)) :=
  ⟨⟨(paired 2 3 id).setF pgPlk F.macLinkState 1, _, _, rfl, rfl, by decide +kernel⟩,
   ⟨paired 0 3 id, _, _, rfl, rfl, by decide +kernel⟩,
   ⟨paired 2 3 (fun x => { x with missDue := true }), _, _, rfl, rfl, by decide +kernel⟩,
   ⟨(paired 2 3 id).setF pgPlk F.macLinkState 1, _, _, rfl, rfl, by decide +kernel⟩,
   ⟨((paired 3 2400 id).setF pgRed F.redHealthEn 1).setF pgRed F.redHealthPorts 5, _, _, rfl, rfl, by decide +kernel⟩,
   ⟨(paired 2 3 id).setF pgPlk F.macLinkState 1, _, _, rfl, rfl, by decide +kernel⟩,
   ⟨paired 3 24 (fun x => { x with peerReq := true }), _, _, rfl, rfl, by decide +kernel⟩,
   ⟨(paired 2 3 id).setF pgPlk F.macLinkState 1, _, _, rfl, rfl, by decide +kernel⟩,
   ⟨(paired 1 3 (fun x => { x with listen := 99999, hbEver := true })).setF pgRed F.redStatPeerState 1, _, _, _, rfl, rfl,
      rfl, by decide +kernel⟩,
   ⟨paired 1 3 (fun x => { x with listen := 99999, equalAt := some 0 }), _, _, rfl, rfl, by decide +kernel⟩,
   ⟨(paired 1 3 (fun x => { x with listen := 99999 })).setB pgRed F.redStatWitness true, _, _, rfl, rfl, by decide +kernel⟩,
   ⟨paired 1 3 (fun x => { x with listen := 99999 }), _, _, rfl, rfl, by decide +kernel⟩,
   ⟨(paired 2 3 id).setF pgPlk F.macLinkState 1, _, _, rfl, rfl, by decide +kernel⟩,
   ⟨paired 4 2400 id, _, _, rfl, rfl, by decide +kernel⟩,
   ⟨(paired 2 3 id).setF pgPlk F.macLinkState 1, _, _, rfl, rfl, by decide +kernel⟩,
   ⟨(paired 2 3 id).setF pgRed F.redStatVerdict 1, _, _, rfl, rfl, by decide +kernel⟩,
   ⟨(paired 2 3 id).setF pgPlk F.macLinkState 1, _, _, rfl, rfl, by decide +kernel⟩,
   ⟨(paired 2 3 (fun x => { x with waiting := true })).setF pgRed F.redStatVerdict 3, _, _, rfl, rfl, by decide +kernel⟩,
   ⟨(paired 2 3 id).setF pgPlk F.macLinkState 1, _, _, rfl, rfl, by decide +kernel⟩,
   ⟨(paired 2 3 id).setF pgPlk F.macLinkState 0, _, _, [], _, _, rfl, rfl, rfl, rfl, by decide +kernel⟩,
   ⟨(paired 2 3 id).setF pgPlk F.macLinkState 1, _, _, [], _, _, rfl, rfl, rfl, rfl, by decide +kernel⟩,
   ⟨(paired 2 3 id).setF pgStrg F.strgCfgEtype 5, _, _, [], _, _, rfl, rfl, rfl, rfl, by decide +kernel⟩,
   ⟨paired 1 3 (fun x => { x with listen := 99999, equalAt := some 0 }), _, _, [0x02#8, 0x00#8, 0x00#8, 0x00#8, 0x00#8,
      0x01#8, 0x02#8, 0x00#8, 0x00#8, 0x00#8, 0x00#8, 0x02#8, 0x88#8, 0xb5#8, 0x15#8, 0x00#8, 0x00#8, 0x00#8, 0x00#8,
      0x00#8, 0x00#8, 0x01#8, 0x00#8, 0x00#8, 0x00#8, 0x00#8, 0x00#8, 0x03#8, 0x00#8, 0x00#8, 0x00#8, 0x05#8, 0x40#8,
      0x99#8, 0x00#8, 0x00#8, 0x00#8, 0x20#8, 0x00#8, 0x10#8, 0x00#8, 0x00#8, 0x00#8, 0x00#8, 0x00#8, 0x00#8, 0x00#8,
      0x01#8, 0x02#8, 0x03#8, 0x04#8, 0x05#8, 0x06#8, 0x07#8, 0x08#8, 0x09#8, 0x0a#8, 0x0b#8, 0x0c#8, 0x0d#8, 0x0e#8,
      0x0f#8, 0x10#8, 0x11#8, 0x12#8, 0x13#8, 0x14#8, 0x15#8, 0x16#8, 0x17#8, 0x18#8, 0x19#8, 0x1a#8, 0x1b#8, 0x1c#8,
      0x1d#8, 0x1e#8, 0x1f#8, 0x01#8, 0x00#8, 0x00#8, 0x00#8, 0x00#8, 0x00#8, 0x00#8, 0x00#8, 0x00#8, 0x00#8, 0x00#8,
      0x00#8, 0x5a#8, 0xe2#8, 0x16#8, 0xfd#8], _, _, rfl, rfl, rfl, rfl, by decide +kernel⟩,
   ⟨paired 0 3 id, _, _, [0x02#8, 0x00#8, 0x00#8, 0x00#8, 0x00#8, 0x01#8, 0x02#8, 0x00#8, 0x00#8, 0x00#8, 0x00#8, 0x02#8,
      0x88#8, 0xb5#8, 0x14#8, 0x00#8, 0x00#8, 0x00#8, 0x00#8, 0x00#8, 0x00#8, 0x01#8, 0x00#8, 0x00#8, 0x00#8, 0x00#8,
      0x00#8, 0x03#8, 0x00#8, 0x00#8, 0x00#8, 0x00#8, 0x40#8, 0x00#8, 0x00#8, 0x00#8, 0x00#8, 0x10#8, 0x40#8, 0x00#8,
      0x00#8, 0x00#8, 0x00#8, 0x00#8, 0x00#8, 0x00#8, 0x00#8, 0x01#8, 0x02#8, 0x03#8, 0x04#8, 0x05#8, 0x06#8, 0x07#8,
      0x08#8, 0x09#8, 0x0a#8, 0x0b#8, 0x0c#8, 0x0d#8, 0x0e#8, 0x0f#8, 0x01#8, 0x00#8, 0x00#8, 0x00#8, 0x00#8, 0x00#8,
      0x00#8, 0x00#8, 0x00#8, 0x00#8, 0x00#8, 0x00#8, 0xcd#8, 0xa6#8, 0x2d#8, 0x35#8], _, _, rfl, rfl, rfl, rfl,
      by decide +kernel⟩,
   ⟨paired 1 3 (fun x => { x with listen := 99999, equalAt := some 0 }), _, _, [0x02#8, 0x00#8, 0x00#8, 0x00#8, 0x00#8,
      0x01#8, 0x02#8, 0x00#8, 0x00#8, 0x00#8, 0x00#8, 0x02#8, 0x88#8, 0xb5#8, 0x14#8, 0x00#8, 0x00#8, 0x00#8, 0x00#8,
      0x00#8, 0x00#8, 0x01#8, 0x00#8, 0x00#8, 0x00#8, 0x00#8, 0x00#8, 0x03#8, 0x00#8, 0x00#8, 0x00#8, 0x00#8, 0x40#8,
      0x00#8, 0x00#8, 0x00#8, 0x00#8, 0x10#8, 0x40#8, 0x00#8, 0x00#8, 0x00#8, 0x00#8, 0x00#8, 0x00#8, 0x00#8, 0x00#8,
      0x01#8, 0x02#8, 0x03#8, 0x04#8, 0x05#8, 0x06#8, 0x07#8, 0x08#8, 0x09#8, 0x0a#8, 0x0b#8, 0x0c#8, 0x0d#8, 0x0e#8,
      0x0f#8, 0x01#8, 0x00#8, 0x00#8, 0x00#8, 0x00#8, 0x00#8, 0x00#8, 0x00#8, 0x00#8, 0x00#8, 0x00#8, 0x00#8, 0xcd#8,
      0xa6#8, 0x2d#8, 0x35#8], _, _, rfl, rfl, rfl, rfl, by decide +kernel⟩,
   ⟨paired 1 3 (fun x => { x with listen := 99999, equalAt := some 0 }), _, _, [0x02#8, 0x00#8, 0x00#8, 0x00#8, 0x00#8,
      0x01#8, 0x02#8, 0x00#8, 0x00#8, 0x00#8, 0x00#8, 0x02#8, 0x88#8, 0xb5#8, 0x14#8, 0x00#8, 0x00#8, 0x00#8, 0x00#8,
      0x00#8, 0x00#8, 0x01#8, 0x00#8, 0x00#8, 0x00#8, 0x00#8, 0x00#8, 0x03#8, 0x00#8, 0x00#8, 0x00#8, 0x05#8, 0x40#8,
      0x99#8, 0x00#8, 0x00#8, 0x00#8, 0x10#8, 0x40#8, 0x00#8, 0x00#8, 0x00#8, 0x00#8, 0x00#8, 0x00#8, 0x00#8, 0x00#8,
      0x01#8, 0x02#8, 0x03#8, 0x04#8, 0x05#8, 0x06#8, 0x07#8, 0x08#8, 0x09#8, 0x0a#8, 0x0b#8, 0x0c#8, 0x0d#8, 0x0e#8,
      0x0f#8, 0x01#8, 0x00#8, 0x00#8, 0x00#8, 0x00#8, 0x00#8, 0x00#8, 0x00#8, 0x00#8, 0x00#8, 0x00#8, 0x00#8, 0x2d#8,
      0x73#8, 0x84#8, 0x90#8], _, _, rfl, rfl, rfl, rfl, by decide +kernel⟩,
   ⟨paired 1 3 (fun x => { x with listen := 99999, equalAt := some 0 }), _, _, [0x02#8, 0x00#8, 0x00#8, 0x00#8, 0x00#8,
      0x01#8, 0x02#8, 0x00#8, 0x00#8, 0x00#8, 0x00#8, 0x02#8, 0x88#8, 0xb5#8, 0x14#8, 0x00#8, 0x00#8, 0x00#8, 0x00#8,
      0x00#8, 0x00#8, 0x01#8, 0x00#8, 0x00#8, 0x00#8, 0x00#8, 0x00#8, 0x03#8, 0x00#8, 0x00#8, 0x00#8, 0x00#8, 0x40#8,
      0x00#8, 0x00#8, 0x00#8, 0x00#8, 0x10#8, 0x40#8, 0x00#8, 0x00#8, 0x00#8, 0x00#8, 0x00#8, 0x00#8, 0x00#8, 0x00#8,
      0x01#8, 0x02#8, 0x03#8, 0x04#8, 0x05#8, 0x06#8, 0x07#8, 0x08#8, 0x09#8, 0x0a#8, 0x0b#8, 0x0c#8, 0x0d#8, 0x0e#8,
      0x0f#8, 0x01#8, 0x00#8, 0x00#8, 0x00#8, 0x00#8, 0x00#8, 0x00#8, 0x00#8, 0x00#8, 0x00#8, 0x00#8, 0x00#8, 0xcd#8,
      0xa6#8, 0x2d#8, 0x35#8], _, _, rfl, rfl, rfl, rfl, by decide +kernel⟩,
   ⟨paired 0 3 id, _, _, [0x02#8, 0x00#8, 0x00#8, 0x00#8, 0x00#8, 0x01#8, 0x02#8, 0x00#8, 0x00#8, 0x00#8, 0x00#8, 0x02#8,
      0x88#8, 0xb5#8, 0x15#8, 0x00#8, 0x00#8, 0x00#8, 0x00#8, 0x00#8, 0x00#8, 0x01#8, 0x00#8, 0x00#8, 0x00#8, 0x00#8,
      0x00#8, 0x03#8, 0x00#8, 0x00#8, 0x00#8, 0x05#8, 0x40#8, 0x99#8, 0x00#8, 0x00#8, 0x00#8, 0x20#8, 0x00#8, 0x10#8,
      0x00#8, 0x00#8, 0x00#8, 0x00#8, 0x00#8, 0x00#8, 0x00#8, 0x01#8, 0x02#8, 0x03#8, 0x04#8, 0x05#8, 0x06#8, 0x07#8,
      0x08#8, 0x09#8, 0x0a#8, 0x0b#8, 0x0c#8, 0x0d#8, 0x0e#8, 0x0f#8, 0x10#8, 0x11#8, 0x12#8, 0x13#8, 0x14#8, 0x15#8,
      0x16#8, 0x17#8, 0x18#8, 0x19#8, 0x1a#8, 0x1b#8, 0x1c#8, 0x1d#8, 0x1e#8, 0x1f#8, 0x01#8, 0x00#8, 0x00#8, 0x00#8,
      0x00#8, 0x00#8, 0x00#8, 0x00#8, 0x00#8, 0x00#8, 0x00#8, 0x00#8, 0x5a#8, 0xe2#8, 0x16#8, 0xfd#8], _, _, rfl, rfl,
      rfl, rfl, by decide +kernel⟩,
   ⟨paired 1 3 (fun x => { x with listen := 99999, equalAt := some 0 }), _, _, [0x02#8, 0x00#8, 0x00#8, 0x00#8, 0x00#8,
      0x01#8, 0x02#8, 0x00#8, 0x00#8, 0x00#8, 0x00#8, 0x02#8, 0x88#8, 0xb5#8, 0x15#8, 0x00#8, 0x00#8, 0x09#8, 0x00#8,
      0x00#8, 0x00#8, 0x00#8, 0x00#8, 0x00#8, 0x00#8, 0x00#8, 0x00#8, 0x00#8, 0x00#8, 0x00#8, 0x00#8, 0x00#8, 0x00#8,
      0x05#8, 0x00#8, 0x00#8, 0x00#8, 0x00#8, 0x00#8, 0x00#8, 0x00#8, 0x00#8, 0x00#8, 0x00#8, 0x00#8, 0x00#8, 0x01#8,
      0x00#8, 0x00#8, 0x00#8, 0x00#8, 0x00#8, 0x00#8, 0x00#8, 0x00#8, 0x00#8, 0x00#8, 0x00#8, 0x22#8, 0xa9#8, 0x40#8,
      0xce#8], _, _, rfl, rfl, rfl, rfl, by decide +kernel⟩,
   ⟨paired 1 3 (fun x => { x with listen := 99999, equalAt := some 0 }), _, _, [0x02#8, 0x00#8, 0x00#8, 0x00#8, 0x00#8,
      0x01#8, 0x02#8, 0x00#8, 0x00#8, 0x00#8, 0x00#8, 0x02#8, 0x88#8, 0xb5#8, 0x15#8, 0x00#8, 0x00#8, 0x00#8, 0x00#8,
      0x00#8, 0x00#8, 0x01#8, 0x00#8, 0x00#8, 0x00#8, 0x00#8, 0x00#8, 0x03#8, 0x00#8, 0x00#8, 0x00#8, 0x05#8, 0x40#8,
      0x00#8, 0x00#8, 0x00#8, 0x00#8, 0x20#8, 0x00#8, 0x00#8, 0x00#8, 0x00#8, 0x00#8, 0x00#8, 0x00#8, 0x00#8, 0x00#8,
      0x01#8, 0x02#8, 0x03#8, 0x04#8, 0x05#8, 0x06#8, 0x07#8, 0x08#8, 0x09#8, 0x0a#8, 0x0b#8, 0x0c#8, 0x0d#8, 0x0e#8,
      0x0f#8, 0x10#8, 0x11#8, 0x12#8, 0x13#8, 0x14#8, 0x15#8, 0x16#8, 0x17#8, 0x18#8, 0x19#8, 0x1a#8, 0x1b#8, 0x1c#8,
      0x1d#8, 0x1e#8, 0x1f#8, 0x01#8, 0x00#8, 0x00#8, 0x00#8, 0x00#8, 0x00#8, 0x00#8, 0x00#8, 0x00#8, 0x00#8, 0x00#8,
      0x00#8, 0x2f#8, 0x88#8, 0xb0#8, 0x87#8], _, _, rfl, rfl, rfl, rfl, by decide +kernel⟩,
   ⟨paired 1 3 (fun x => { x with listen := 99999, equalAt := some 0 }), _, _, [0x02#8, 0x00#8, 0x00#8, 0x00#8, 0x00#8,
      0x01#8, 0x02#8, 0x00#8, 0x00#8, 0x00#8, 0x00#8, 0x02#8, 0x88#8, 0xb5#8, 0x15#8, 0x00#8, 0x00#8, 0x00#8, 0x00#8,
      0x00#8, 0x00#8, 0x01#8, 0x00#8, 0x00#8, 0x00#8, 0x00#8, 0x00#8, 0x03#8, 0x00#8, 0x00#8, 0x00#8, 0x00#8, 0x40#8,
      0x00#8, 0x00#8, 0x00#8, 0x00#8, 0x20#8, 0x00#8, 0x00#8, 0x00#8, 0x00#8, 0x00#8, 0x00#8, 0x00#8, 0x00#8, 0x00#8,
      0x01#8, 0x02#8, 0x03#8, 0x04#8, 0x05#8, 0x06#8, 0x07#8, 0x08#8, 0x09#8, 0x0a#8, 0x0b#8, 0x0c#8, 0x0d#8, 0x0e#8,
      0x0f#8, 0x10#8, 0x11#8, 0x12#8, 0x13#8, 0x14#8, 0x15#8, 0x16#8, 0x17#8, 0x18#8, 0x19#8, 0x1a#8, 0x1b#8, 0x1c#8,
      0x1d#8, 0x1e#8, 0x1f#8, 0x01#8, 0x00#8, 0x00#8, 0x00#8, 0x00#8, 0x00#8, 0x00#8, 0x00#8, 0x00#8, 0x00#8, 0x00#8,
      0x00#8, 0x5b#8, 0x9c#8, 0xbd#8, 0x90#8], _, _, rfl, rfl, rfl, rfl, by decide +kernel⟩,
   ⟨paired 1 3 (fun x => { x with listen := 99999, equalAt := some 0 }), _, _, [0x02#8, 0x00#8, 0x00#8, 0x00#8, 0x00#8,
      0x01#8, 0x02#8, 0x00#8, 0x00#8, 0x00#8, 0x00#8, 0x02#8, 0x88#8, 0xb5#8, 0x15#8, 0x00#8, 0x00#8, 0x00#8, 0x00#8,
      0x00#8, 0x00#8, 0x01#8, 0x00#8, 0x00#8, 0x00#8, 0x00#8, 0x00#8, 0x03#8, 0x00#8, 0x00#8, 0x00#8, 0x05#8, 0x40#8,
      0x99#8, 0x00#8, 0x00#8, 0x00#8, 0x20#8, 0x00#8, 0x00#8, 0x00#8, 0x00#8, 0x00#8, 0x00#8, 0x00#8, 0x00#8, 0x00#8,
      0x01#8, 0x02#8, 0x03#8, 0x04#8, 0x05#8, 0x06#8, 0x07#8, 0x08#8, 0x09#8, 0x0a#8, 0x0b#8, 0x0c#8, 0x0d#8, 0x0e#8,
      0x0f#8, 0x10#8, 0x11#8, 0x12#8, 0x13#8, 0x14#8, 0x15#8, 0x16#8, 0x17#8, 0x18#8, 0x19#8, 0x1a#8, 0x1b#8, 0x1c#8,
      0x1d#8, 0x1e#8, 0x1f#8, 0x01#8, 0x00#8, 0x00#8, 0x00#8, 0x00#8, 0x00#8, 0x00#8, 0x00#8, 0x00#8, 0x00#8, 0x00#8,
      0x00#8, 0xa1#8, 0xe3#8, 0xe2#8, 0xe8#8], _, _, rfl, rfl, rfl, rfl, by decide +kernel⟩,
   ⟨paired 2 4 id, _, _, [0x02#8, 0x00#8, 0x00#8, 0x00#8, 0x00#8, 0x01#8, 0x02#8, 0x00#8, 0x00#8, 0x00#8, 0x00#8, 0x02#8,
      0x88#8, 0xb5#8, 0x15#8, 0x00#8, 0x00#8, 0x00#8, 0x00#8, 0x00#8, 0x00#8, 0x01#8, 0x00#8, 0x00#8, 0x00#8, 0x00#8,
      0x00#8, 0x03#8, 0x00#8, 0x00#8, 0x00#8, 0x05#8, 0x40#8, 0x99#8, 0x00#8, 0x00#8, 0x00#8, 0x20#8, 0x00#8, 0x10#8,
      0x00#8, 0x00#8, 0x00#8, 0x00#8, 0x00#8, 0x00#8, 0x00#8, 0x01#8, 0x02#8, 0x03#8, 0x04#8, 0x05#8, 0x06#8, 0x07#8,
      0x08#8, 0x09#8, 0x0a#8, 0x0b#8, 0x0c#8, 0x0d#8, 0x0e#8, 0x0f#8, 0x10#8, 0x11#8, 0x12#8, 0x13#8, 0x14#8, 0x15#8,
      0x16#8, 0x17#8, 0x18#8, 0x19#8, 0x1a#8, 0x1b#8, 0x1c#8, 0x1d#8, 0x1e#8, 0x1f#8, 0x01#8, 0x00#8, 0x00#8, 0x00#8,
      0x00#8, 0x00#8, 0x00#8, 0x00#8, 0x00#8, 0x00#8, 0x00#8, 0x00#8, 0x5a#8, 0xe2#8, 0x16#8, 0xfd#8], _, _, rfl, rfl,
      rfl, rfl, by decide +kernel⟩,
   ⟨base, Master.hif, _, _, rfl, rfl, by decide +kernel⟩,
   ⟨(paired 3 3 id).setF pgRed F.redStatPeerState 2, Master.hif, _, _, rfl, rfl, by decide +kernel⟩,
   ⟨base, Master.hif, _, _, rfl, rfl, by decide +kernel⟩⟩

/-- States and operands that meet the hypotheses of DeviceResetsAndStartUpFollowTheirSteps. -/
theorem witness_DeviceResetsAndStartUpFollowTheirSteps :
  (∃ (s : State), s.dev.phase = .vauxOff) ∧
  (∃ (s : State), s.dev.phase ≠ .vauxOff) ∧
  (∃ (s : State) (rail : Supply), ∃ e, e ∈ [(Instr.supplyOutOfRange rail, 1), (Instr.resetAssert, 2),
      (Instr.localTickBoundary ⟨pgDev, by decide⟩, 6)] ∧ (e.2 = 6 → s.live = true ∧ s.time.ticking = true ∧
      s.arch.began.find pgDev ≠ some s.time.tick ∧ s.resetting pgDev = false ∧ s.is pgDev F.ctrlEn = true ∧
      s.running pgDev = true ∧ s.is pgDev F.ctrlSrst = false ∧ s.is pgDev F.cmtPending = false ∧
      s.arch.force.find pgDev = none ∧ s.dev.swrst = true) ∧ s.dev.phase ≠ .vauxOff ∧ Memory.wf s.mem) ∧
  (∃ (s : State) (m : Master), granted s m = true) ∧
  (∃ (s : State) (m : Master), s.dev.phase = .on ∧ s.dev.frozen = false ∧ s.devState = 4 ∧ m.reachesWindow = true ∧
      s.mx.locks.find 8 = none ∧ s.mx.broken.find (masterNo m * 16 + 8) = none ∧ (s.qport (masterNo m)).stall = none ∧
      memStalled s = false ∧ s.mx.slicing = []) ∧
  (∃ (s : State), s.dev.phase ≠ .held) ∧
  (∃ (s : State), s.dev.phase = .held) ∧
  (∃ (s : State), s.dev.phase ≠ .starting) ∧
  (∃ (s : State), s.dev.phase = .starting) ∧
  (∃ (s : State), s.live = true ∧ s.devState = 1 ∧ startDone s = true) ∧
  (∃ (s : State), (s.live = false ∨ s.devState ≠ 1 ∨ startDone s = false)) ∧
  (∃ (s : State) (m : Master), granted s m = true ∧ s.devState = 2) ∧
  (∃ (s : State) (m : Master), granted s m = true ∧ s.devState = 3) ∧
  (∃ (s : State) (m : Master), granted s m = true ∧ s.devState ≠ 2 ∧ s.devState ≠ 3) :=
  ⟨⟨phased .vauxOff 1, by decide +kernel⟩,
   ⟨base, by decide +kernel⟩,
   ⟨base, Supply.vcore, (Instr.supplyOutOfRange (Supply.vcore), 1), by decide +kernel⟩,
   ⟨base, Master.hif, by decide +kernel⟩,
   ⟨phased .on 4, Master.hif, by decide +kernel⟩,
   ⟨base, by decide +kernel⟩,
   ⟨dv (fun x => {x with cause := 5}) (phased .held 1), by decide +kernel⟩,
   ⟨base, by decide +kernel⟩,
   ⟨phased .starting 1, by decide +kernel⟩,
   ⟨{ filled (phased .on 1) with mx.checked := true }, by decide +kernel⟩,
   ⟨base, by decide +kernel⟩,
   ⟨phased .on 2, Master.hif, by decide +kernel⟩,
   ⟨base, Master.hif, by decide +kernel⟩,
   ⟨filled (phased .on 1), Master.hif, by decide +kernel⟩⟩

/-- States and operands that meet the hypotheses of FreezesHoldTheCoreAndTestAccessReads. -/
theorem witness_FreezesHoldTheCoreAndTestAccessReads :
  (∃ (s : State) (m : Master), ∃ e, e ∈ [(Instr.freezePin, 1), (Instr.freezeRequest m, 2)] ∧ (s.dev.phase = .on ∧
      s.dev.frozen = false ∧ s.dev.freezing = false ∧ s.arch.resetSeq = none ∧ 1 ≤ s.devState ∧ s.devState ≤ 3) ∧
      (e.2 = 2 → granted s m = true)) ∧
  (∃ (s : State), ¬ (s.dev.phase = .on ∧ s.dev.frozen = false ∧ s.dev.freezing = false ∧ s.arch.resetSeq = none ∧
      1 ≤ s.devState ∧ s.devState ≤ 3)) ∧
  (∃ (s : State), s.dev.freezing = true) ∧
  (∃ (s : State), s.dev.freezing = false) ∧
  (∃ (s : State) (m : Master), s.dev.phase = .on ∧ s.dev.frozen = true ∧ s.devState ≠ 4 ∧ m.reachesWindow = true) ∧
  (∃ (s : State) (m : Master), s.dev.phase = .on ∧ s.dev.frozen = true ∧ s.devState ≠ 4 ∧ m.reachesWindow = true ∧
      s.dev.tamperOff = 0) ∧
  (∃ (s : State) (m : Master), granted s m = true) ∧
  (∃ (s : State) (m : Master), granted s m = true ∧ (m = .hif)) ∧
  (∃ (s : State) (m : Master), granted s m = true ∧ (m ≠ .hif)) ∧
  (∃ e, e ∈ [(Instr.extest, 0x00#5), (Instr.samplePreload, 0x01), (Instr.idcode, 0x02), (Instr.bypass, 0x1F),
      (Instr.tapReset, 0x02)]) ∧
  (∃ (s : State) (tap : BitVec 5), tap = (if lcState s = 4 then 0x1F else 0x10) ∧ s.dev.phase = .vauxOff) ∧
  (∃ (s : State) (tap : BitVec 5), tap = (if lcState s = 4 then 0x1F else 0x10) ∧ s.dev.phase ≠ .vauxOff) ∧
  (∃ (s : State) (tap : BitVec 5), tap = (if lcState s = 4 then 0x1F else 0x10) ∧ s.dev.phase ≠ .vauxOff ∧ lcState s = 2) ∧
  (∃ (s : State) (op : BitVec 4) (tap : BitVec 5), op = 0 ∧ tap = (if lcState s = 4 then 0x1F else 0x10) ∧
      s.dev.phase ≠ .vauxOff ∧ (dbgMay s = false ∨ s.dev.dbgRuns = none)) ∧
  (∃ (s : State) (op : BitVec 4) (tap : BitVec 5), tap = (if lcState s = 4 then 0x1F else 0x10) ∧ s.dev.phase ≠ .vauxOff ∧
      op ≠ 0 ∧ (dbgMay s = false ∨ (op ≠ 1 ∧ op ≠ 2))) ∧
  (∃ (s : State) (op : BitVec 4) (addr : Word) (tap : BitVec 5) (b : Nat), tap = (if lcState s = 4 then 0x1F else 0x10) ∧
      b = targetOf s 6 addr.toNat 0xF (op == 2) ∧ s.dev.phase ≠ .vauxOff ∧ dbgMay s = true ∧ s.dev.dbgRuns = none ∧
      b < 8 ∧ mustWait s 6 b = false ∧ s.mx.locks.find b = none ∧ s.mx.broken.find (96 + b) = none ∧ s.live = true ∧
      s.mx.wiping = none ∧ s.mx.dead.contains (addr.toNat / 4 * 4) = false ∧ op = 1) ∧
  (∃ (s : State) (op : BitVec 4) (addr : Word) (tap : BitVec 5) (b : Nat), tap = (if lcState s = 4 then 0x1F else 0x10) ∧
      b = targetOf s 6 addr.toNat 0xF (op == 2) ∧ s.dev.phase ≠ .vauxOff ∧ dbgMay s = true ∧ s.dev.dbgRuns = none ∧
      b < 8 ∧ mustWait s 6 b = false ∧ s.mx.locks.find b = none ∧ s.mx.broken.find (96 + b) = none ∧ s.live = true ∧
      s.mx.wiping = none ∧ s.mx.dead.contains (addr.toNat / 4 * 4) = false ∧ op = 2 ∧ Memory.wf s.mem) :=
  ⟨⟨base, Master.hif, (Instr.freezePin, 1), by decide +kernel⟩,
   ⟨phased .vauxOff 1, by decide +kernel⟩,
   ⟨dv (fun x => { x with freezing := true }) base, by decide +kernel⟩,
   ⟨base, by decide +kernel⟩,
   ⟨dv (fun x => { x with frozen := true, frzCyc := 1600 }) base, Master.hif, by decide +kernel⟩,
   ⟨dv (fun x => { x with frozen := true, frzCyc := 1600 }) base, Master.hif, by decide +kernel⟩,
   ⟨base, Master.hif, by decide +kernel⟩,
   ⟨base, Master.hif, by decide +kernel⟩,
   ⟨base, Master.dbg, by decide +kernel⟩,
   ⟨(Instr.extest, 0x00#5), by decide +kernel⟩,
   ⟨phased .vauxOff 1, _, rfl, by decide +kernel⟩,
   ⟨base, _, rfl, by decide +kernel⟩,
   ⟨owned 2 (base.setF pgDbg F.dbgCfgJtagEn 1), _, rfl, by decide +kernel⟩,
   ⟨base, _, _, rfl, rfl, by decide +kernel⟩,
   ⟨base, 0x3#4, _, rfl, by decide +kernel⟩,
   ⟨filled base, 1, 0x05000000, _, _, rfl, rfl, by decide +kernel⟩,
   ⟨filled base, 2, 0x05000000, _, _, rfl, rfl, by decide +kernel⟩⟩

/-- States and operands that meet the hypotheses of LifeCycleChangesAndTamperWipe. -/
theorem witness_LifeCycleChangesAndTamperWipe :
  (∃ (s : State) (m : Master), granted s m = true) ∧
  (∃ (s : State) (m : Master), ∃ k, granted s m = true ∧ s.dev.lcArmed = some k ∧ s.is pgDev F.devLcVauxLow = false ∧
      (s.devState = 2 ∨ s.devState = 3) ∧ (lcState s, k) ∈ [(0, 1), (0, 4), (1, 2), (1, 3), (1, 4), (2, 3), (2, 4), (3,
      4)] ∧ Memory.wf s.mem) ∧
  (∃ (s : State) (m : Master), granted s m = true ∧ (s.dev.lcArmed = none ∨ s.is pgDev F.devLcVauxLow = true ∨
      (s.devState ≠ 2 ∧ s.devState ≠ 3) ∨ ∃ k, s.dev.lcArmed = some k ∧ (lcState s, k) ∉ [(0, 1), (0, 4), (1, 2), (1, 3),
      (1, 4), (2, 3), (2, 4), (3, 4)])) ∧
  (∃ (s : State), (s.dev.lcNew = none ∨ s.dev.frozen = true)) ∧
  (∃ (s : State), ∃ k, s.dev.lcNew = some k ∧ k < 8 ∧ s.dev.frozen = false) ∧
  (∃ (s : State), s.dev.phase = .vauxOff) ∧
  (∃ (s : State), s.dev.phase ≠ .vauxOff ∧ Memory.wf s.mem) :=
  ⟨⟨base, Master.hif, by decide +kernel⟩,
   ⟨dv (fun x => { x with lcArmed := some 1 }) base, Master.hif, 1, by decide +kernel⟩,
   ⟨base, Master.hif, by decide +kernel⟩,
   ⟨base, by decide +kernel⟩,
   ⟨dv (fun x => { x with lcNew := some 4 }) base, 4, by decide +kernel⟩,
   ⟨phased .vauxOff 1, by decide +kernel⟩,
   ⟨base, by decide +kernel⟩⟩

end Sys2Proof.Tests
end

section
/-! SUPPORT. Register pages (02): which registers a page's map defines, what an access of an offset outside it does, what
PG_CTRL.EN is at reset, and how a write of a class F register is refused; with the statements on enable after reset and on
the outcomes of register writes. -/

namespace Sys2Proof.RegisterPages

open Sys2Proof.Machine Sys2Proof.Safety

-- The commands of a register access.

theorem exec_registerWrite (m : Master) (p ofs : Nat) (v : Word) (s : State) :
    exec (.registerWrite m (regAddr p ofs) v) s = .next (doRegWrite s m p ofs v) := rfl

theorem exec_registerReadClear (m : Master) (p ofs : Nat) (s : State) :
    exec (.registerReadClear m (regAddr p ofs)) s = .next (doRegRead s m p ofs) := rfl

theorem exec_blockEnable (m : Master) (p : Page) (en : Bool) (s : State) :
    exec (.blockEnable m p en) s = .next (doRegWrite s m p 0x008 (ctrlWord s p en (s.is p F.ctrlDrain) false)) := rfl

-- The map of a page.

/-- The table pages have no common header (R44). -/
theorem pageKind_of_isRegPage {p : Nat} (hr : isRegPage p = true) :
    pageKind p ≠ .qdesc ∧ pageKind p ≠ .ing ∧ pageKind p ≠ .egr := by
  refine ⟨?_, ?_, ?_⟩ <;>
  · intro hk
    simp [isRegPage, hk] at hr

/-- Table by table, the block registers of a page with the common header lie from 0x040 to 0x7FF (R45). -/
theorem regsOf_between {k : PageKind} (hk : k ≠ .qdesc ∧ k ≠ .ing ∧ k ≠ .egr) :
    ∀ d ∈ regsOf k, 0x040 ≤ d.base ∧ d.base + d.stride * (d.count - 1) < 0x800 := by
  obtain ⟨hq, hi, he⟩ := hk
  cases k
  case qdesc => exact absurd rfl hq
  case ing => exact absurd rfl hi
  case egr => exact absurd rfl he
  all_goals decide

/-- On a page with the common header, a register is defined where the map of the page's kind has one. -/
theorem descOf_eq_none_iff {s : State} {p ofs : Nat} (hr : isRegPage p = true) :
    descOf s p ofs = none ↔ findReg (regsOf (pageKind p)) ofs = none := by
  obtain ⟨hq, hi, he⟩ := pageKind_of_isRegPage hr
  have hmap : entryRegs s p ofs = regsOf (pageKind p) := by
    unfold entryRegs
    extract_lets k1
    split
    · contradiction
    · contradiction
    · rfl
  have hofs : entryOfs (pageKind p) ofs = ofs := by
    unfold entryOfs
    split
    · contradiction
    · contradiction
    · contradiction
    · rfl
  unfold descOf
  rw [hmap, hofs, Option.map_eq_none_iff]

/-- No map defines a register among the header's offsets. -/
theorem descOf_header {s : State} {p ofs : Nat} (hr : isRegPage p = true) (ho : ofs < 0x40) :
    descOf s p ofs = none := by
  rw [descOf_eq_none_iff hr, findReg, List.find?_eq_none]
  intro d hd hc
  have hb : d.base ≤ ofs := by
    simp only [RegDesc.covers, Bool.and_eq_true, decide_eq_true_eq] at hc
    exact hc.1.1
  have := (regsOf_between (pageKind_of_isRegPage hr) d hd).1
  omega

-- A read outside the map.

/-- The registers of TSU that latch at a read are defined (R114). -/
theorem tsuRead_undefined (s : State) (m : Nat) {ofs : Nat} (h : findReg regsTsu ofs = none) : tsuRead s m ofs = s := by
  unfold tsuRead
  split
  · exact absurd h (by decide)
  · exact absurd h (by decide)
  · exact absurd h (by decide)
  · exact absurd h (by decide)
  · rfl

/-- The register of MCG that latches at a read is defined. -/
theorem mcgRead_undefined (s : State) (m : Nat) {ofs : Nat} (h : findReg regsMcg ofs = none) : mcgRead s m ofs = s := by
  unfold mcgRead
  split
  · subst ofs
    exact absurd h (by decide)
  · rfl

theorem clearRc_undefined {s : State} {p ofs : Nat} (h : descOf s p ofs = none) : readDone.clearRc s p ofs = s := by
  unfold readDone.clearRc
  rw [h]
  split <;> rfl

/-- A read of an offset that no map defines changes nothing: what latches, reloads or clears at a read is a defined
register (R45, R59). -/
theorem readDone_undefined {s : State} (m : Nat) {p ofs : Nat} (hr : isRegPage p = true) (h : descOf s p ofs = none) :
    readDone s m p ofs = s := by
  have hf := (descOf_eq_none_iff hr).mp h
  unfold readDone
  split
  case h_1 hk =>
    rw [hk] at hf
    rw [tsuRead_undefined s m hf, clearRc_undefined h]
  case h_2 hk =>
    rw [hk] at hf
    exact mcgRead_undefined s m hf
  case h_3 hk | h_4 hk | h_5 hk | h_6 hk =>
    rw [hk] at hf
    exact absurd hf (by decide)
  case h_7 => exact clearRc_undefined h

/-- An offset that no map defines reads 0, and so does one of the header from 0x038 (R45). -/
theorem regWord_undefined {s : State} (m : Nat) {p ofs : Nat} (h1 : 0x38 ≤ ofs) (h2 : ofs < 0x800)
    (h : descOf s p ofs = none) : regWord s m p ofs = 0 := by
  have h3 : ¬ 0x800 ≤ ofs := by omega
  have h4 : ofs ≠ 0x00C := by omega
  simp [regWord, headerWord, h, h1, h3, h4]

/-- A read of an offset that no map defines gives 0, and nothing changes (R45). -/
theorem regRead_undefined {s : State} (m : Nat) {p ofs : Nat} (hr : isRegPage p = true)
    (h1 : 0x38 ≤ ofs) (h2 : ofs < 0x800) (h : descOf s p ofs = none) (hp : inPop p ofs = false) :
    regRead s m p ofs = (some 0, s) := by
  have hsnap : ¬ (p = pgDbg ∧ ofs = 0x068) := by
    rintro ⟨rfl, rfl⟩
    exact absurd ((descOf_eq_none_iff hr).mp h) (by decide)
  simp [regRead, hp, hsnap, regWord_undefined m h1 h2 h, readDone_undefined m hr h]

/-- A granted read of an offset that no map defines is answered OK with 0, and nothing else changes (R45). -/
theorem doRegRead_undefined {s : State} {m : Master} {p : Page} {ofs : Nat} (g : granted s m = true)
    (hr : isRegPage p = true) (h4 : ofs % 4 = 0) (h1 : 0x38 ≤ ofs) (h2 : ofs < 0x800) (h : descOf s p ofs = none)
    (hp : inPop p ofs = false) : doRegRead s m p ofs = answered s 0 0 :=
  doRegRead_granted g p.isLt (by omega) h4 (isReg_kind hr) (regRead_undefined _ hr h1 h2 h hp)

-- A write outside the map.

/-- A granted write of a header offset from 0x038 is answered OK and ignored (R45). -/
theorem doRegWrite_header_tail {s : State} {m : Master} {p : Page} {ofs : Nat} (g : granted s m = true)
    (hr : isRegPage p = true) (ho : ofs = 0x038 ∨ ofs = 0x03C) (v : Word) :
    doRegWrite s m p ofs v = answered s 0 0 := by
  rcases ho with rfl | rfl
  · exact doRegWrite_header g hr (by decide) (by decide) v rfl
  · exact doRegWrite_header g hr (by decide) (by decide) v rfl

/-- A granted write of an offset that the block's map does not define is answered OK and ignored (R45). -/
theorem doRegWrite_undefined {s : State} {m : Master} {p : Page} {ofs : Nat} (g : granted s m = true)
    (hr : isRegPage p = true) (h4 : ofs % 4 = 0) (h1 : 0x40 ≤ ofs) (h2 : ofs < 0x800) (h : descOf s p ofs = none)
    (v : Word) : doRegWrite s m p ofs v = answered s 0 0 := by
  have h3 : ¬ 0x800 ≤ ofs := by omega
  have h5 : ¬ ofs < 0x40 := by omega
  have hw : regWrite s (masterNo m) p ofs v = (rOk, s) := by
    simp [regWrite, pageStopped_live (grant_of g).live, h3, h5, h]
  rw [doRegWrite_granted g p.isLt (by omega) h4 (isReg_kind hr), hw]

-- A refused write of class F.

/-- Table 2.12: a register of class F is refused while EN is 1, where the page's own EN governs it. -/
theorem blockWrite_frozen {s : State} (m : Nat) {p ofs : Nat} (v : Word) {d : RegDesc} (hc : d.cls = .frozen)
    (ho : ownEnPage (pageKind p) = false) (hd : p ≠ pgDbg) (he : s.is p F.ctrlEn = true) :
    blockWrite s m p ofs v d = (rFrozen, raise s (ownerPage p) 1 (regAddr p ofs)) := by
  simp [blockWrite, classVeto, refuseWrite, orVeto, hd, hc, ho, he]

/-- A fault sets its flag in PG_FLT (R52). -/
theorem raise_sets_flag (s : State) (p bit : Nat) (ctx : Word) (hb : bit < 32) :
    ((raise s p bit ctx).reg p 0x010).getLsbD bit = true := by
  have h : (raise s p bit ctx).reg p 0x010 = setBits (s.reg p 0x010) bit bit 1 := by
    rw [reg_raise, State.setB, reg_setF]
    exact if_pos rfl
  simp [h, getLsbD_setBits _ _ _ _ _ hb]

/-- A fault writes no register but PG_FLT. -/
theorem raise_keeps_reg (s : State) (p bit : Nat) (ctx : Word) {ofs : Nat} (h1 : ofs ≠ 0x010) (h2 : ofs < 4096) (q : Nat) :
    (raise s p bit ctx).reg q ofs = s.reg q ofs := by
  rw [reg_raise]
  exact reg_setF_apart s p (Fld.bit F.flt.ofs bit) _ q ofs (show (0x010 : Nat) < 4096 by decide) h2 (.inr (Ne.symm h1))

/-- A fault leaves memory and the waiting commands. -/
theorem raise_sameMemory (s : State) (p bit : Nat) (ctx : Word) : sameMemory s (raise s p bit ctx) := by
  have hm : (beside (raise s p bit ctx)).mem = (beside s).mem := by rw [raise_beside]
  have hp : (beside (raise s p bit ctx)).pending = (beside s).pending := by rw [raise_beside]
  exact ⟨hm, hp⟩

-- PG_CTRL.EN.

/-- The pages whose EN resets to 1 (R50). -/
theorem enReset_pageKind : ∀ p : Page, enReset (pageKind p)
    = [0, 1, 2, 3, 4, 5, 6, 7, 8, 9, 10, 11, 12, 0x10, 0x28, 0x2C, 0x2D, 0xF0].contains p.val := by
  decide +kernel

/-- The pages whose EN is fixed at 1 (R50). -/
theorem enFixed_pageKind : ∀ p : Page, enFixed (pageKind p)
    = [0, 1, 2, 3, 4, 5, 6, 7, 8, 9, 10, 11, 12, 0x10].contains p.val := by
  decide +kernel

/-- A page whose EN is fixed has no register of class F (R50). -/
theorem cls_ne_frozen_of_enFixed {k : PageKind} (h : enFixed k = true) : ∀ d ∈ regsOf k, d.cls ≠ .frozen := by
  cases k
  case dev | clk | hif | xbr | mem | sec | flt => decide
  all_goals exact absurd h (by decide)

theorem reg_reset (p ofs : Nat) : State.reset.reg p ofs = resetWord p ofs := rfl

theorem resetWord_header {p ofs : Nat} (hr : isRegPage p = true) (ho : ofs < 0x40) :
    resetWord p ofs = headerReset p (pageKind p) ofs := by
  have h : ofs ≠ 0x44 := by omega
  simp [resetWord, hr, ho, h]

theorem ctrlEn_reset {p : Nat} (hr : isRegPage p = true) : State.reset.is p F.ctrlEn = enReset (pageKind p) := by
  rw [is_of_bit _ _ F.ctrlEn 0 rfl rfl, reg_reset, resetWord_header hr (by decide)]
  simp only [headerReset, F.ctrlEn]
  cases enReset (pageKind p) <;> rfl

theorem running_reset {p : Nat} (hr : isRegPage p = true) : State.reset.running p = enReset (pageKind p) := by
  rw [State.running, is_of_bit _ _ F.statRun 0 rfl rfl, reg_reset, resetWord_header hr (by decide)]
  simp only [headerReset, F.statRun]
  cases enReset (pageKind p) <;> rfl

/-- PG_CTRL written on a page whose EN is fixed reads EN = 1, whatever the word (R50). -/
theorem ctrlEn_ctrlWrite_fixed (s : State) {p : Nat} (v : Word) (h : enFixed (pageKind p) = true) :
    (ctrlWrite s p v).is p F.ctrlEn = true := by
  have hlive : ∃ a b : Bool, ctrlWrite s p v
      = putLive s p 0x008 (w32 ((if a then 4 else 0) + (if b then 2 else 0) + 1)) := by
    refine ⟨v.getLsbD 2, s.is p F.ctrlSrst || v.getLsbD 1, ?_⟩
    unfold ctrlWrite
    cases hk : pageKind p
    case dev | clk | hif | xbr | mem | sec | flt => simp [enFixed]
    all_goals
      rw [hk] at h
      exact absurd h (by decide)
  obtain ⟨a, b, hw⟩ := hlive
  have hk : keyOf p 0x008 = keyOf p F.ctrlEn.ofs := rfl
  rw [hw, is_of_bit _ _ F.ctrlEn 0 rfl rfl, reg_putLive, if_pos hk]
  cases a <;> cases b <;> rfl

/-- On a page whose EN is fixed and reads 1, a granted write of EN = 0 is answered OK and EN still reads 1 (R50). -/
theorem blockEnable_fixed {s : State} {m : Master} {p : Page} (hr : isRegPage p = true)
    (hf : enFixed (pageKind p) = true) (g : granted s m = true) (he : s.is p F.ctrlEn = true) :
    ∃ t, exec (.blockEnable m p false) s = .next t ∧ t.mx.lastReply = 0 ∧ t.is p F.ctrlEn = true := by
  have hv : ∀ v, headerVeto s p 0x008 v = none := fun v => by simp [headerVeto, ctrlVeto, he]
  refine ⟨_, exec_blockEnable m p false s, ?_⟩
  rw [doRegWrite_header g hr (by decide) (by decide) _ (hv _)]
  exact ⟨rfl, ctrlEn_ctrlWrite_fixed s _ hf⟩

end Sys2Proof.RegisterPages

open Sys2Proof Sys2Proof.Machine Sys2Proof.Safety Sys2Proof.RegisterPages

/-- Settles O3: EN and RUN at reset are `enReset` of the page's kind, and where EN is fixed a write of 0 keeps it 1. -/
theorem enableAfterReset : Obligations.EnableAfterReset := by
  unfold Obligations.EnableAfterReset
  intro p hr
  refine ⟨?_, ?_, fun hp => ?_⟩
  · rw [ctrlEn_reset hr, enReset_pageKind]
  · rw [running_reset hr, ctrlEn_reset hr]
  · have hf : enFixed (pageKind p) = true := by rw [enFixed_pageKind, hp]
    exact ⟨fun s m g he => blockEnable_fixed hr hf g he, cls_ne_frozen_of_enFixed hf⟩

/-- Settles O13: the maps lie between header and shadow window, what no map defines reads 0 and ignores writes, and a
register of class F is refused while EN is 1. -/
theorem registerWriteOutcomes : Obligations.RegisterWriteOutcomes := by
  unfold Obligations.RegisterWriteOutcomes
  intro s m p ofs v g hr h4
  refine ⟨regsOf_between (pageKind_of_isRegPage hr), ?shadow, ?header, ?scratch, ?undefined, ?frozen⟩
  case shadow =>
    intro h k
    simp [regWord, hr, h]
  case header =>
    intro h hh
    have ho : h = 0x038 ∨ h = 0x03C := by simpa using hh
    have hpop : inPop p h = false := by
      rcases ho with rfl | rfl <;> simp [inPop]
    rw [exec_registerWrite, exec_registerReadClear, doRegWrite_header_tail g hr ho,
      doRegRead_undefined g hr (by omega) (by omega) (by omega) (descOf_header hr (by omega)) hpop]
    exact ⟨rfl, rfl⟩
  case scratch =>
    rw [exec_registerWrite, doRegWrite_header g hr (by decide) (by decide) v rfl]
    rfl
  case undefined =>
    intro h1 h2 hd hpop
    rw [exec_registerWrite, exec_registerReadClear, doRegWrite_undefined g hr h4 h1 h2 hd,
      doRegRead_undefined g hr h4 (by omega) h2 hd hpop]
    exact ⟨rfl, rfl⟩
  case frozen =>
    intro d h1 h2 hd hc hw ho hdbg he
    refine ⟨_, exec_registerWrite m p ofs v s, ?_⟩
    rw [doRegWrite_granted g p.isLt (by omega) h4 (isReg_kind hr),
      regWrite_block (grant_of g).live _ v (fun _ => ⟨h1, h2⟩) hd hw, blockWrite_frozen _ v hc ho hdbg he,
      isReg_owner hr]
    exact ⟨rfl, raise_keeps_reg s p 1 _ (by omega) (by omega) p, raise_sets_flag s p 1 _ (by decide),
      raise_sameMemory s p 1 _⟩

end

section
/-! SUPPORT. Network time (04): a read of TSU's clock, tick and PPS_IN registers answers the word they show and latches
for the master that reads, and for no other; with the statement on reads of TSU. -/

namespace Sys2Proof.NetworkTime

open Sys2Proof.Machine Sys2Proof.Safety

-- The commands that read a register of TSU.

theorem exec_nowRead (m : Master) (s : State) : exec (.nowRead m) s = .next (doRegRead s m pgTsu 0x048) := rfl

theorem exec_frcRead (m : Master) (s : State) : exec (.frcRead m) s = .next (doRegRead s m pgTsu 0x040) := rfl

theorem exec_tickTimeRead (m : Master) (s : State) :
    exec (.tickTimeRead m) s = .next (doRegRead s m pgTsu 0x0B0) := rfl

theorem exec_ppsinRead (m : Master) (s : State) : exec (.ppsinRead m) s = .next (doRegRead s m pgTsu 0x0C8) := rfl

-- The latches of a master.

/-- What a read latches for one master leaves the latches of the others (R114). -/
theorem latch_setLatch_ne (s : State) {n k : Nat} (f : Latches → Latches) (h : k ≠ n) :
    (s.setLatch n f).latch k = s.latch k := by
  unfold State.latch State.setLatch
  exact SMap.get_put_ne _ _ _ (Ne.symm h)

@[simp] theorem latch_answered (s : State) (r : Nat) (d : Word) (k : Nat) : (answered s r d).latch k = s.latch k := rfl

-- A read of a time register.

/-- The registers of FRC and local time, of the tick and of PPS_IN: those that latch at a read, and those that show what
was latched (R114, R126, R127). -/
def timeRegs : List Nat :=
  [0x040, 0x044, 0x048, 0x04C, 0x050, 0x054,
   0x0B0, 0x0B4, 0x0B8, 0x0BC, 0x0C0, 0x0C4, 0x0C8, 0x0CC, 0x0D0, 0x0D4]

/-- The time registers are defined block registers without a field that clears at a read. -/
theorem timeRegs_defined : ∀ ofs ∈ timeRegs, 0x40 ≤ ofs ∧ ofs < 0x800 ∧ ofs % 4 = 0 ∧
    (findReg regsTsu ofs).map (fun d => (d.rc, d.rcs)) = some (0, 0) := by
  decide

/-- The map of TSU is the same in every state. -/
theorem descOf_tsu (s : State) (ofs : Nat) : descOf s pgTsu ofs = findReg regsTsu ofs :=
  Option.map_id'

/-- A read of a time register clears nothing (R59). -/
theorem clearRc_time (s : State) {ofs : Nat} (h : ofs ∈ timeRegs) : readDone.clearRc s pgTsu ofs = s := by
  obtain ⟨_, _, _, hmap⟩ := timeRegs_defined ofs h
  obtain ⟨d, hd, hz⟩ := Option.map_eq_some_iff.mp hmap
  obtain ⟨hrc, hrcs⟩ := Prod.mk.inj hz
  simp only [readDone.clearRc, descOf_tsu, hd, hrc, hrcs, bne_self_eq_false, Bool.false_and, Bool.false_eq_true,
    BitVec.or_self, if_true, ite_self]

/-- What a read of a time register changes is what it latches. -/
theorem readDone_time (s : State) (m : Nat) {ofs : Nat} (h : ofs ∈ timeRegs) :
    readDone s m pgTsu ofs = tsuRead s m ofs :=
  clearRc_time (tsuRead s m ofs) h

/-- A time register reads as the view that TSU gives the master. -/
theorem regWord_time {s : State} {m ofs : Nat} {w : Word} (h : ofs ∈ timeRegs) (hv : tsuView s m ofs = some w) :
    regWord s m pgTsu ofs = w := by
  obtain ⟨h1, h2, _, hmap⟩ := timeRegs_defined ofs h
  obtain ⟨d, hd, _⟩ := Option.map_eq_some_iff.mp hmap
  have hshadow : ¬ 0x800 ≤ ofs := by omega
  have hheader : ¬ ofs < 0x40 := by omega
  have hview : pageView s m pgTsu ofs = some w := hv
  simp only [regWord, hshadow, hheader, decide_false, Bool.and_false, Bool.false_eq_true, if_false, descOf_tsu, hd,
    hview, Option.getD_some]

/-- A granted read of a time register is answered OK with the register's view, and it latches (R114, R126, R127). -/
theorem doRegRead_time {s : State} {m : Master} {ofs : Nat} {w : Word} (g : granted s m = true) (h : ofs ∈ timeRegs)
    (hv : tsuView s (masterNo m) ofs = some w) :
    doRegRead s m pgTsu ofs = answered (tsuRead s (masterNo m) ofs) 0 w := by
  obtain ⟨_, h2, h4, _⟩ := timeRegs_defined ofs h
  have hlive := (grant_of g).live
  obtain ⟨_, hfrozen, _⟩ := live_on hlive
  have hpop : inPop pgTsu ofs = false := rfl
  have hsnap : ¬ (pgTsu = pgDbg ∧ ofs = 0x068) := fun hp => absurd hp.1 (by decide)
  have hr : regRead s (masterNo m) pgTsu ofs = (some w, tsuRead s (masterNo m) ofs) := by
    simp only [regRead, hpop, Bool.false_eq_true, if_false, if_neg hsnap, hfrozen, pageStopped_live hlive, Bool.or_false,
      regWord_time h hv, readDone_time _ _ h]
  exact doRegRead_granted g (by decide) (by omega) h4 (by decide) hr

/-- A granted read that latches leaves the latches of the other masters. -/
theorem latch_kept {e : Instr} {s : State} {n k r : Nat} {f : Latches → Latches} {d : Word}
    (he : exec e s = .next (answered (s.setLatch n f) r d)) (h : k ≠ n) :
    ∃ t, exec e s = .next t ∧ t.latch k = s.latch k :=
  ⟨_, he, by rw [latch_answered, latch_setLatch_ne s f h]⟩

section
variable {s : State} {m : Master} (g : granted s m = true)
include g

/-- TSU_NOW_NS: the nanoseconds of local time, which is latched whole (R114). -/
theorem nowRead_latches : exec (.nowRead m) s
    = .next (answered (s.setLatch (masterNo m) (fun x => { x with nowT := s.now })) 0 (w32 (nsOf s.now))) := by
  rw [exec_nowRead, doRegRead_time g (by decide) rfl]
  rfl

/-- TSU_FRC_LO: the lower half of FRC; the upper half is latched (R114). -/
theorem frcRead_latches : exec (.frcRead m) s
    = .next (answered (s.setLatch (masterNo m) (fun x => { x with frcHi := w32 (s.time.frc.toNat / 2 ^ 32) })) 0
        (w32 s.time.frc.toNat)) := by
  rw [exec_frcRead, doRegRead_time g (by decide) rfl]
  rfl

/-- TSU_TICK_NUM_LO: the lower part of the tick's number; the number and the tick's time are latched (R126). -/
theorem tickTimeRead_latches : exec (.tickTimeRead m) s
    = .next (answered (s.setLatch (masterNo m) (fun x => { x with tickNum := s.time.tick, tickT := s.time.tickT })) 0
        (w32 s.time.tick)) := by
  rw [exec_tickTimeRead, doRegRead_time g (by decide) rfl]
  rfl

/-- TSU_PPSIN_NS: the nanoseconds of the last edge's time, which is latched whole (R127). -/
theorem ppsinRead_latches : exec (.ppsinRead m) s
    = .next (answered (s.setLatch (masterNo m) (fun x => { x with ppsT := s.time.ppsIn })) 0
        (w32 (nsOf s.time.ppsIn))) := by
  rw [exec_ppsinRead, doRegRead_time g (by decide) rfl]
  rfl

/-- A read of a time register that shows what was latched is answered with it and changes nothing else (R114). -/
theorem readClear_time {ofs : Nat} {w : Word} (h : ofs ∈ timeRegs) (hv : tsuView s (masterNo m) ofs = some w)
    (hk : tsuRead s (masterNo m) ofs = s) :
    exec (.registerReadClear m (regAddr pgTsu ofs)) s = .next (answered s 0 w) := by
  rw [RegisterPages.exec_registerReadClear, doRegRead_time g h hv, hk]

end

end Sys2Proof.NetworkTime

open Sys2Proof Sys2Proof.Machine Sys2Proof.Safety Sys2Proof.NetworkTime

/-- Settles O27: the four reads of TSU that latch are granted reads of time registers, each latches for its own master
only, and the registers beside them then show that master's latches. -/
theorem timeReadsLatchTheirWholeValue : Obligations.TimeReadsLatchTheirWholeValue := by
  unfold Obligations.TimeReadsLatchTheirWholeValue
  intro s m g
  refine ⟨nowRead_latches g, frcRead_latches g, tickTimeRead_latches g, ppsinRead_latches g, ?others, ?latched⟩
  case others =>
    intro e he k hk
    simp only [List.mem_cons, List.not_mem_nil, or_false] at he
    rcases he with rfl | rfl | rfl | rfl
    · exact latch_kept (nowRead_latches g) hk
    · exact latch_kept (frcRead_latches g) hk
    · exact latch_kept (tickTimeRead_latches g) hk
    · exact latch_kept (ppsinRead_latches g) hk
  case latched =>
    rintro l rfl
    exact ⟨readClear_time g (by decide) rfl rfl, readClear_time g (by decide) rfl rfl,
      readClear_time g (by decide) rfl rfl, readClear_time g (by decide) rfl rfl⟩

end

section
/-! SUPPORT. Safe outputs (17, 18, 20): what SAFE_DRV, SAFE_OUT and RELEASING, which a freeze request brings about, leave
alone: memory, the waiting commands, the freeze itself, and the registers that show its source and the unit's state. -/

namespace Sys2Proof.SafeOutputs

open Sys2Proof.Machine Sys2Proof.Safety

/-- What a freeze request is judged by: memory and the waiting commands, the freeze and the level of FREEZE_N, what FLT
holds safe, DBG_STAT, and the state of the unit. -/
structure Watched where
  mem     : List Host.Cell
  pending : List Instr
  frozen  : Bool
  frzPin  : Bool
  safeDrv : BitVec 16
  safeOut : Bool
  dbgStat : Word
  red     : Nat

/-- The watched part of a state. -/
def watch (s : State) : Watched :=
  { mem := s.mem, pending := s.pending, frozen := s.dev.frozen, frzPin := s.dev.frzPin, safeDrv := s.flt.safeDrv,
    safeOut := s.flt.safeOut, dbgStat := s.reg pgDbg F.dbgStatSrc.ofs, red := redState s }

theorem watch_ite (c : Prop) [Decidable c] (s t : State) : watch (if c then s else t) = if c then watch s else watch t := by
  split <;> rfl

/-- What stands beside the registers, SAFE_DRV, SAFE_OUT and two registers make up the watched part. -/
theorem watch_congr {s t : State} (hb : beside t = beside s) (hd : t.flt.safeDrv = s.flt.safeDrv)
    (ho : t.flt.safeOut = s.flt.safeOut) (hs : t.reg pgDbg F.dbgStatSrc.ofs = s.reg pgDbg F.dbgStatSrc.ofs)
    (hr : t.reg pgRed F.redStatState.ofs = s.reg pgRed F.redStatState.ofs) : watch t = watch s := by
  have hm : t.mem = s.mem := (congrArg State.mem hb :)
  have hp : t.pending = s.pending := (congrArg State.pending hb :)
  have hv : t.dev = s.dev := (congrArg State.dev hb :)
  simp only [watch, redState, State.rd, hm, hp, hv, hd, ho, hs, hr]

/-- A field of a page other than DBG, and beside the unit's state, is not watched. -/
theorem watch_setF (s : State) {p : Nat} {f : Fld} (v : Nat) (hp : p ≠ pgDbg) (ho : f.ofs < 4096)
    (hr : p ≠ pgRed ∨ f.ofs ≠ F.redStatState.ofs ∨ f.hi < F.redStatState.lo) : watch (s.setF p f v) = watch s := by
  have hs : (s.setF p f v).reg pgDbg F.dbgStatSrc.ofs = s.reg pgDbg F.dbgStatSrc.ofs :=
    reg_setF_apart s p f v _ _ ho (by decide) (.inl hp)
  have hst : redState (s.setF p f v) = redState s := by
    unfold redState State.rd
    rw [reg_setF]
    split
    case isTrue hk =>
      obtain ⟨rfl, hofs⟩ := keyOf_inj ho (by decide) hk
      have hlo : f.hi < F.redStatState.lo := by simpa [hofs] using hr
      rw [hofs, getBits_setBits_apart _ _ _ _ _ _ (Nat.lt_trans hlo (by decide)) (.inl hlo)]
    case isFalse => rfl
  simp only [watch, State.setF_mem, State.setF_pending, State.setF_dev, State.setF_flt, hs, hst]

theorem watch_setB (s : State) {p : Nat} {f : Fld} (b : Bool) (hp : p ≠ pgDbg) (ho : f.ofs < 4096)
    (hr : p ≠ pgRed ∨ f.ofs ≠ F.redStatState.ofs ∨ f.hi < F.redStatState.lo) : watch (s.setB p f b) = watch s :=
  watch_setF s _ hp ho hr

theorem watch_bump (s : State) {p : Nat} {f : Fld} (hp : p ≠ pgDbg) (ho : f.ofs < 4096)
    (hr : p ≠ pgRed ∨ f.ofs ≠ F.redStatState.ofs ∨ f.hi < F.redStatState.lo) : watch (s.bump p f) = watch s :=
  watch_setF s _ hp ho hr

theorem watch_roll (s : State) {p : Nat} {f : Fld} (hp : p ≠ pgDbg) (ho : f.ofs < 4096)
    (hr : p ≠ pgRed ∨ f.ofs ≠ F.redStatState.ofs ∨ f.hi < F.redStatState.lo) : watch (s.roll p f) = watch s :=
  watch_setF s _ hp ho hr

@[simp] theorem watch_setDiag (s : State) (f : DiagSt → DiagSt) : watch (s.setDiag f) = watch s := rfl

@[simp] theorem watch_setRed (s : State) (f : RedSt → RedSt) : watch (setRed s f) = watch s := rfl

@[simp] theorem watch_ready (s : State) (l : Nat) (f : TxFrame) : watch (ready s l f) = watch s := rfl

-- Events and faults.

theorem flt_ite (c : Prop) [Decidable c] (s t : State) : (if c then s else t).flt = if c then s.flt else t.flt := by
  split <;> rfl

@[simp] theorem seqTrigger_flt (s : State) (c : Nat) : (seqTrigger s c).flt = s.flt := by
  simp only [seqTrigger, seqEnter, flt_ite, State.setCtx_flt, State.bump_flt, State.setF_flt, State.setB_flt, ite_self]

@[simp] theorem seqRelease_flt (s : State) (c : Nat) (b : Bool) : (seqRelease s c b).flt = s.flt := by
  simp only [seqRelease, State.setCtx_flt, State.setF_flt, State.setB_flt]

@[simp] theorem seqOccur_flt (s : State) (page bit : Nat) (en : Bool) : (seqOccur s page bit en).flt = s.flt := by
  have hsees : ∀ (s : State) (c : Nat), (seqSees page bit en s c).flt = s.flt := by
    intro s c
    unfold seqSees
    split <;> simp only [flt_ite, seqTrigger_flt, seqRelease_flt, ite_self]
  unfold seqOccur
  split
  · exact foldl_keeps State.flt _ _ (fun s c _ => hsees s c) s
  · rfl

@[simp] theorem attRaise_flt (s : State) (att page bit sub : Nat) : (attRaise s att page bit sub).flt = s.flt := by
  have hd : ∀ s : State, (attDetail s page bit).flt = s.flt := fun _ => rfl
  simp only [attRaise, flt_ite, hd, State.setB_flt, ite_self]

/-- An event leaves the fault collector (R58, R427, R444). -/
@[simp] theorem event_flt (s : State) (p bit : Nat) : (event s p bit).flt = s.flt := by
  simp only [event, seqOccur_flt, flt_ite, attRaise_flt, State.setB_flt, ite_self]

@[simp] theorem watch_event (s : State) (p bit : Nat) : watch (event s p bit) = watch s :=
  watch_congr (event_beside s p bit) (by rw [event_flt]) (by rw [event_flt])
    (reg_event s p bit _ _ (by decide) (fun h => absurd h.2 (by decide)) (by decide) (by decide))
    (reg_event s p bit _ _ (by decide) (fun h => absurd h.2 (by decide)) (by decide) (by decide))

@[simp] theorem watch_attRaise (s : State) (att page bit sub : Nat) : watch (attRaise s att page bit sub) = watch s :=
  watch_congr (attRaise_beside s att page bit sub) (by rw [attRaise_flt]) (by rw [attRaise_flt])
    (reg_attRaise s att page bit sub _ _ (by decide) (by decide))
    (reg_attRaise s att page bit sub _ _ (by decide) (by decide))

@[simp] theorem watch_eventAlways (s : State) (p bit att : Nat) : watch (eventAlways s p bit att) = watch s := by
  simp only [eventAlways, watch_ite, watch_attRaise, watch_event, ite_self]

/-- A fault's message and level leave what FLT holds safe (R454, R456). -/
@[simp] theorem watch_raise (s : State) (p bit : Nat) (ctx : Word) (hp : p ≠ pgDbg) :
    watch (raise s p bit ctx) = watch s := by
  have hask : ∀ (s : State) (cause : Nat), watch (askReset s p cause) = watch s := fun _ _ => rfl
  have hpost : ∀ (s : State) (m : FltMsg), watch (postRaise s m) = watch s := fun _ _ => rfl
  have hlevel : ∀ (s : State) (v : Level), watch (keepLevel s v) = watch s := fun _ _ => rfl
  have hflag : watch (s.setB p (Fld.bit F.flt.ofs bit) true) = watch s :=
    watch_setB s true hp (show F.flt.ofs < 4096 by decide) (.inr (.inl (show F.flt.ofs ≠ F.redStatState.ofs by decide)))
  simp only [raise, raiseSev, watch_ite, hask, hpost, hlevel, hflag, ite_self]

-- Sweeps and drive channels.

/-- A result field of a channel is not watched. -/
theorem watch_setF_diag (s : State) {f : Fld} {c : Nat} (v : Nat) (hc : c < 16) (hf : f.ofs < 2048) :
    watch (s.setF pgDiag (diagF f c) v) = watch s :=
  watch_setF s v (by decide) (show f.ofs + 0x40 * c < 4096 by omega) (.inl (by decide))

theorem watch_sweepDrop (s : State) {c : Nat} (code : Nat) (hc : c < 16) : watch (sweepDrop s c code) = watch s := by
  unfold sweepDrop
  split
  · simp only [watch_setDiag, watch_setF_diag _ _ hc (show F.diagChResResult.ofs < 2048 by decide),
      watch_setF_diag _ _ hc (show F.diagChResClass.ofs < 2048 by decide)]
  · rfl

theorem watch_diagClass (s : State) (c cls : Nat) : watch (diagClass s c cls) = watch s := by
  unfold diagClass
  split
  · exact watch_raise s pgDiag _ _ (by decide)
  · rfl

theorem mem_bitList_lt {n v i : Nat} (h : i ∈ bitList n v) : i < n := List.mem_range.mp (List.mem_filter.mp h).1

theorem watch_sweepEnd (s : State) : watch (sweepEnd s) = watch s := by
  unfold sweepEnd
  extract_lets chans s1 s2 s3 s4
  have h1 : watch s1 = watch s := watch_setB s _ (by decide) (by decide) (.inl (by decide))
  have h2 : watch s2 = watch s1 := by
    show watch (State.setF (State.setF s1 _ _ _) _ _ _) = _
    rw [watch_setF _ _ (by decide) (by decide) (.inl (by decide)),
      watch_setF _ _ (by decide) (by decide) (.inl (by decide))]
  have h3 : watch s3 = watch s2 := by
    refine foldl_keeps watch _ chans (fun s c hc => ?_) s2
    have hc : c < 16 := mem_bitList_lt hc
    have hroll : ∀ s : State, watch (s.roll pgDiag (diagF F.diagChResSeq c)) = watch s := fun s =>
      watch_setF_diag s _ hc (by decide)
    simp only [hroll, watch_ite, watch_diagClass, watch_setF_diag _ _ hc (show F.diagChResResult.ofs < 2048 by decide),
      watch_setF_diag _ _ hc (show F.diagChResClass.ofs < 2048 by decide), ite_self]
  rw [watch_eventAlways, show watch s4 = watch s3 from rfl, h3, h2, h1]

/-- SAFE_OUT's hold on DIAG leaves what is watched (R360, R361). -/
theorem watch_diagSafeOut (s : State) : watch (diagSafeOut s) = watch s := by
  unfold diagSafeOut sweepAborted
  rw [watch_setDiag]
  split
  · rw [watch_sweepEnd]
    exact foldl_keeps watch _ _ (fun s c hc => watch_sweepDrop s 1 (List.mem_range.mp hc)) s
  · rfl

/-- Forcing the drive channels leaves what is watched (Table 11.2). -/
theorem watch_drvForceAll (s : State) : watch (drvForceAll s) = watch s := by
  refine foldl_keeps watch _ _ (fun s c hc => ?_) s
  have hc : c < 16 := List.mem_range.mp hc
  have hdrv : ∀ (s : State) (f : Fld) (v : Nat), f.ofs < 4096 → watch (s.setF (pgDrv c) f v) = watch s := fun s f v hf =>
    watch_setF s v (show 0xA0 + c ≠ 0xF0 by omega) hf (.inl (show 0xA0 + c ≠ 0x12 by omega))
  have hleft : ∀ s : State, watch (diagLeft s c false) = watch s := fun s => watch_sweepDrop s 4 hc
  split
  · simp only [drvForce, drvSet, watch_ite, hleft, hdrv _ F.drvStatState _ (by decide), hdrv _ F.drvStatCause _ (by decide),
      ite_self]
  · rfl

/-- SAFE_DRV over every channel holds them all (R459). -/
theorem watch_safeDrive (s : State) (gates : BitVec 4) :
    watch (safeDrive s 0xFFFF gates) = { watch s with safeDrv := 0xFFFF } := by
  unfold safeDrive
  rw [watch_drvForceAll]
  have hall : s.flt.safeDrv ||| 0xFFFF = 0xFFFF := BitVec.or_allOnes
  simp only [watch, State.setFlt, hall]
  rfl

/-- SAFE_OUT comes into force (R458). -/
theorem watch_safeOutput (s : State) : watch (safeOutput s) = { watch s with safeOut := true } := by
  unfold safeOutput
  split
  case isTrue h => simp only [watch, h]
  case isFalse => rw [watch_diagSafeOut]; rfl

-- RELEASING.

theorem watch_setOutsel (s : State) (b : Bool) : watch (setOutsel s b) = watch s := by
  have h : watch (setOutsel s b) = watch (s.setB pgRed F.redStatOutsel b) := rfl
  rw [h, watch_setB s b (by decide) (by decide) (.inr (.inr (by decide)))]

/-- The unit's state becomes RELEASING; nothing else that is watched changes (R490). -/
theorem watch_enterRole_releasing (s : State) : watch (enterRole s 4) = { watch s with red := 4 } := by
  have hstate : watch (s.setF pgRed F.redStatState 4) = { watch s with red := 4 } := by
    have hs : (s.setF pgRed F.redStatState 4).reg pgDbg F.dbgStatSrc.ofs = s.reg pgDbg F.dbgStatSrc.ofs :=
      reg_setF_apart s _ _ _ _ _ (by decide) (by decide) (.inl (by decide))
    have hr : redState (s.setF pgRed F.redStatState 4) = 4 := rd_setF_same s _ _ _ (by decide)
    simp only [watch, State.setF_mem, State.setF_pending, State.setF_dev, State.setF_flt, hs, hr]
  have h : watch (enterRole s 4) = watch (setOutsel (s.setF pgRed F.redStatState 4) false) := by
    simp [enterRole, redEvent]
  rw [h, watch_setOutsel, hstate]

theorem watch_count_plk (s : State) : watch (count s 4 6) = watch s := by
  simp only [count, watch_ite, watch_event]
  rw [watch_setB _ _ (by decide) (by decide) (.inl (by decide)), watch_roll _ (by decide) (by decide) (.inl (by decide)),
    watch_bump _ (by decide) (by decide) (.inl (by decide))]
  simp only [ite_self]

theorem watch_sendHeartbeat (s : State) (release : Bool) : watch (sendHeartbeat s release) = watch s := by
  have hplk : ∀ (s : State) (e : Bool) (b : List Byte), watch (plkSend s e b) = watch s := by
    intro s e b
    show watch (if s.fresh.2.fresh.2.running pgPlk then _ else count s.fresh.2.fresh.2 4 6) = watch s
    split
    · rfl
    · exact watch_count_plk s.fresh.2.fresh.2
  simp only [sendHeartbeat, watch_setRed, hplk]

/-- The FAILOVER reaction takes an ACTIVE unit to RELEASING (R490). -/
theorem watch_failover (s : State) :
    watch (failover s) = { watch s with red := if redState s = 3 then 4 else redState s } := by
  unfold failover
  split
  · unfold release
    rw [watch_sendHeartbeat, watch_setRed, watch_enterRole_releasing]
  · rfl

end Sys2Proof.SafeOutputs
end

section
/-! SUPPORT. Freeze (20): a freeze request, the stop, and the accesses of DBG's registers that a frozen core answers: the
thaw and the snapshot; and DBG_CFG, which HIF alone writes. -/

namespace Sys2Proof.Freeze

open Sys2Proof.Machine Sys2Proof.Safety Sys2Proof.SafeOutputs

-- Frames.

theorem otherPages_refl (s : State) (ps : List Nat) : otherPages s s ps := fun _ _ _ _ => rfl

theorem otherPages_setReg {s t : State} {p ofs : Nat} {w : Word} {ps : List Nat} (ho : ofs < 4096) (hp : p ∈ ps)
    (h : otherPages s t ps) : otherPages s (t.setReg p ofs w) ps := by
  intro q r hr hq
  refine (reg_setReg_ne t w fun hk => hq ?_).trans (h q r hr hq)
  rwa [← (keyOf_inj ho hr hk).1]

theorem otherPages_setF {s t : State} {p : Nat} {f : Fld} {v : Nat} {ps : List Nat} (ho : f.ofs < 4096) (hp : p ∈ ps)
    (h : otherPages s t ps) : otherPages s (t.setF p f v) ps := by
  intro q r hr hq
  exact (reg_setF_apart t p f v q r ho hr (.inl fun hpq => hq (hpq ▸ hp))).trans (h q r hr hq)

theorem otherPages_congr {s s' t t' : State} {ps : List Nat} (hs : s'.regs = s.regs) (ht : t'.regs = t.regs)
    (h : otherPages s t ps) : otherPages s' t' ps := by
  simpa only [otherPages, State.reg, hs, ht] using h

theorem rd_congr {s t : State} (h : t.regs = s.regs) (p : Nat) (f : Fld) : t.rd p f = s.rd p f := by
  simp only [State.rd, State.reg, h]

theorem is_congr {s t : State} (h : t.regs = s.regs) (p : Nat) (f : Fld) : t.is p f = s.is p f := by
  rw [State.is, rd_congr h, State.is]

-- A freeze request.

/-- A freeze request is taken: the core works from INIT to RUN, is not about to freeze, and no device reset runs (R523,
R524). -/
abbrev FreezeTaken (s : State) : Prop :=
  s.dev.phase = .on ∧ s.dev.frozen = false ∧ s.dev.freezing = false ∧ s.arch.resetSeq = none ∧
    1 ≤ s.devState ∧ s.devState ≤ 3

/-- DBG_STAT names the source and the master of a request. -/
def namedSource (s : State) (src master : Nat) : State :=
  (s.setF pgDbg F.dbgStatSrc src).setF pgDbg F.dbgStatMaster master

theorem freezeTake_refused {s : State} (h : ¬ FreezeTaken s) (src master : Nat) : freezeTake s src master = s := by
  unfold freezeTake
  refine if_pos (Decidable.byContradiction fun hc => h ?_)
  simp only [Bool.or_eq_true, decide_eq_true_eq, beq_iff_eq, not_or, Nat.not_lt, Bool.not_eq_true, Option.isSome_eq_false_iff,
    Option.isNone_iff_eq_none, ne_eq, Decidable.not_not] at hc
  obtain ⟨⟨⟨⟨⟨hphase, hfrozen⟩, hfreezing⟩, hseq⟩, hlow⟩, hhigh⟩ := hc
  exact ⟨hphase, hfrozen, hfreezing, hseq, Nat.one_le_iff_ne_zero.mpr hlow, hhigh⟩

theorem freezeTake_taken {s : State} (h : FreezeTaken s) (src master : Nat) :
    freezeTake s src master = (failover (safeOutput (safeDrive (namedSource s src master) 0xFFFF 0xF))).setDev
      (fun d => { d with freezing := true }) := by
  obtain ⟨hphase, hfrozen, hfreezing, hseq, hlow, hhigh⟩ := h
  unfold freezeTake
  refine if_neg ?_
  have hstate : ¬ (s.devState = 0 ∨ 3 < s.devState) := by omega
  simpa [hphase, hfrozen, hfreezing, hseq] using hstate

/-- What a taken request leaves: outputs safe, an ACTIVE unit RELEASING (R524). -/
theorem watch_freezeTake {s : State} (h : FreezeTaken s) (src master : Nat) :
    watch (freezeTake s src master) = { watch s with
      safeDrv := 0xFFFF, safeOut := true, red := if redState s = 3 then 4 else redState s,
      dbgStat := (namedSource s src master).reg pgDbg F.dbgStatSrc.ofs } := by
  have hred : redState (namedSource s src master) = redState s := by
    unfold redState namedSource
    rw [rd_setF_apart _ _ _ _ _ _ (by decide) (by decide) (by decide) (.inl (by decide)),
      rd_setF_apart _ _ _ _ _ _ (by decide) (by decide) (by decide) (.inl (by decide))]
  have hnamed : watch (namedSource s src master)
      = { watch s with dbgStat := (namedSource s src master).reg pgDbg F.dbgStatSrc.ofs } := by
    simp only [watch, hred]
    simp only [namedSource, State.setF_mem, State.setF_pending, State.setF_dev, State.setF_flt]
  have hsafe : watch (safeOutput (safeDrive (namedSource s src master) 0xFFFF 0xF))
      = { watch (namedSource s src master) with safeDrv := 0xFFFF, safeOut := true } := by
    rw [watch_safeOutput, watch_safeDrive]
  have hst : redState (safeOutput (safeDrive (namedSource s src master) 0xFFFF 0xF)) = redState s := by
    have := congrArg Watched.red hsafe
    exact this.trans hred
  have hdev : ∀ t : State, watch (t.setDev (fun d => { d with freezing := true })) = watch t := fun _ => rfl
  rw [freezeTake_taken h, hdev, watch_failover, hst, hsafe, hnamed]

/-- A taken freeze request: its source is recorded, the outputs are made safe, and an ACTIVE unit releases (R524). -/
theorem freezeTake_spec {s : State} (h : FreezeTaken s) {src master : Nat} (hsrc : src < 4) (hm : master < 8) :
    ∀ t, freezeTake s src master = t → t.dev.freezing = true ∧ t.dev.frozen = false ∧ t.dev.frzPin = s.dev.frzPin ∧
      t.rd pgDbg F.dbgStatSrc = src ∧ t.rd pgDbg F.dbgStatMaster = master ∧ t.flt.safeDrv = 0xFFFF ∧
      t.flt.safeOut = true ∧ redState t = (if redState s = 3 then 4 else redState s) ∧ sameMemory s t := by
  have hw := watch_freezeTake h src master
  have hreg : (freezeTake s src master).reg pgDbg F.dbgStatSrc.ofs
      = (namedSource s src master).reg pgDbg F.dbgStatSrc.ofs := congrArg Watched.dbgStat hw
  have hrdsrc : (namedSource s src master).rd pgDbg F.dbgStatSrc = src := by
    unfold namedSource
    rw [rd_setF_apart _ _ _ _ _ _ (by decide) (by decide) (by decide) (.inr (.inr (.inr (by decide)))),
      rd_setF_same _ _ _ _ (by decide)]
    exact Nat.mod_eq_of_lt hsrc
  have hrdmaster : (namedSource s src master).rd pgDbg F.dbgStatMaster = master := by
    unfold namedSource
    rw [rd_setF_same _ _ _ _ (by decide)]
    exact Nat.mod_eq_of_lt hm
  rintro _ rfl
  refine ⟨?_, (congrArg Watched.frozen hw).trans h.2.1, congrArg Watched.frzPin hw, ?_, ?_,
    congrArg Watched.safeDrv hw, congrArg Watched.safeOut hw, congrArg Watched.red hw, congrArg Watched.mem hw,
    congrArg Watched.pending hw⟩
  · rw [freezeTake_taken h]
    rfl
  · exact (congrArg (getBits · _ _) hreg).trans hrdsrc
  · exact (congrArg (getBits · _ _) hreg).trans hrdmaster

-- Writes that start something and store nothing.

/-- A write of a block register of a page that works (R45). -/
theorem regWrite_working {s : State} {m p ofs : Nat} (v : Word) {d : RegDesc} (hs : pageStopped s p = false)
    (h1 : 0x40 ≤ ofs) (h2 : ofs < 0x800) (hd : descOf s p ofs = some d) (hw : d.writable = true) :
    regWrite s m p ofs v = blockWrite s m p ofs v d := by
  have h3 : ¬ 0x800 ≤ ofs := by omega
  have h4 : ¬ ofs < 0x40 := by omega
  simp [regWrite, hs, h3, h4, hd, hw]

/-- The map of DBG is the same in every state. -/
theorem descOf_dbg (s : State) (ofs : Nat) : descOf s pgDbg ofs = findReg regsDbg ofs := Option.map_id'

/-- The map of CLK is the same in every state. -/
theorem descOf_clk (s : State) (ofs : Nat) : descOf s pgClk ofs = findReg regsClk ofs := Option.map_id'

/-- CLK_FRZ.REQ stores nothing, and asks for the freeze (R523). -/
theorem regWrite_clkFrz {s : State} (hs : pageStopped s pgClk = false) (m : Nat) :
    regWrite s m pgClk 0x044 1 = (rOk, freezeTake s 2 m) := by
  rw [regWrite_working 1 hs (by decide) (by decide) (descOf_clk s 0x044) rfl,
    blockWrite_ok 1 (fun h => absurd h.1 (by decide)) rfl rfl]
  rfl

/-- DBG_THAW.GO stores nothing, and asks for the thaw (R528). -/
theorem regWrite_dbgThaw {s : State} (hs : pageStopped s pgDbg = false) (m : Nat) :
    regWrite s m pgDbg 0x048 1 = (rOk, thawAct s) := by
  rw [regWrite_working 1 hs (by decide) (by decide) (descOf_dbg s 0x048) rfl,
    blockWrite_ok 1 (fun h => absurd h.2.1 (by decide)) rfl rfl]
  rfl

/-- FREEZE_REQUEST: CLK_FRZ.REQ = 1 of a granted master. -/
theorem exec_freezeRequest {s : State} {m : Master} (g : granted s m = true) :
    exec (.freezeRequest m) s = .next (answered (freezeTake s 2 (masterNo m)) 0 0) := by
  show Host.Outcome.next (doRegWrite s m pgClk 0x044 1) = _
  rw [doRegWrite_granted g (by decide) (by decide) (by decide) (by decide),
    regWrite_clkFrz (pageStopped_live (grant_of g).live _)]

theorem freezeRequest_taken {s : State} {m : Master} (h : FreezeTaken s) (g : granted s m = true) :
    ∃ t, exec (.freezeRequest m) s = .next t ∧ t.dev.freezing = true ∧ t.dev.frozen = false ∧
      t.rd pgDbg F.dbgStatSrc = 2 ∧ (t.rd pgDbg F.dbgStatMaster = masterNo m ∧ t.mx.lastReply = 0) ∧
      t.flt.safeDrv = 0xFFFF ∧ t.flt.safeOut = true ∧ redState t = (if redState s = 3 then 4 else redState s) ∧
      sameMemory s t := by
  have hm : masterNo m < 8 := by cases m <;> decide
  obtain ⟨hfreezing, hfrozen, _, hsrc, hmaster, hsafe⟩ := freezeTake_spec h (src := 2) (by decide) hm _ rfl
  exact ⟨_, exec_freezeRequest g, hfreezing, hfrozen, hsrc, ⟨hmaster, rfl⟩, hsafe⟩

/-- FREEZE_PIN: the level of FREEZE_N is kept, and the freeze is asked for. -/
theorem exec_freezePin (s : State) :
    exec .freezePin s = .next (freezeTake { s with dev := { s.dev with frzPin := true } } 1 0) := rfl

theorem freezePin_taken {s : State} (h : FreezeTaken s) :
    ∃ t, exec .freezePin s = .next t ∧ t.dev.freezing = true ∧ t.dev.frozen = false ∧ t.dev.frzPin = true ∧
      t.rd pgDbg F.dbgStatSrc = 1 ∧ t.flt.safeDrv = 0xFFFF ∧ t.flt.safeOut = true ∧
      redState t = (if redState s = 3 then 4 else redState s) ∧ sameMemory s t := by
  have h' : FreezeTaken { s with dev := { s.dev with frzPin := true } } := h
  obtain ⟨hfreezing, hfrozen, hpin, hsrc, _, hsafe⟩ :=
    freezeTake_spec h' (src := 1) (master := 0) (by decide) (by decide) _ rfl
  exact ⟨_, exec_freezePin s, hfreezing, hfrozen, hpin, hsrc, hsafe⟩

theorem freezePin_refused {s : State} (h : ¬ FreezeTaken s) :
    exec .freezePin s = .next { s with dev := { s.dev with frzPin := true } } := by
  have h' : ¬ FreezeTaken { s with dev := { s.dev with frzPin := true } } := h
  rw [exec_freezePin, freezeTake_refused h']

-- The stop.

/-- DBG shows the freeze, and the tick and FRC of the stop (R525, R526). -/
def stopShown (s : State) : State :=
  let s := s.setF pgDbg F.dbgStatFrozen 1
  let s := s.setReg pgDbg F.dbgFrzTickLoTick.ofs (w32 s.time.tick)
  let s := s.setF pgDbg F.dbgFrzTickHiTick (s.time.tick / 2 ^ 32)
  let s := s.setReg pgDbg F.dbgFrzFrcLoCount.ofs (s.time.frc.extractLsb' 0 32)
  s.setReg pgDbg F.dbgFrzFrcHiCount.ofs (s.time.frc.extractLsb' 32 32)

theorem exec_freezeStop {s : State} (h : s.dev.freezing = true) :
    exec .freezeStop s = .next (stopShown
      { s with dev := { s.dev with freezing := false, frozen := true, frzCyc := 0 } }) := by
  show Host.Outcome.next (freezeHold s) = _
  simp only [freezeHold, h, Bool.not_true, Bool.false_eq_true, if_false]
  rfl

theorem exec_freezeStop_idle {s : State} (h : s.dev.freezing = false) : exec .freezeStop s = .next s := by
  show Host.Outcome.next (freezeHold s) = _
  simp only [freezeHold, h, Bool.not_false, if_true]

/-- Neither the tick nor FRC moves as the stop is shown, and nothing beside DBG's registers does. -/
theorem stopShown_keeps (s : State) : (stopShown s).dev = s.dev ∧ (stopShown s).time = s.time ∧
    otherPages s (stopShown s) [pgDbg] ∧ sameMemory s (stopShown s) := by
  refine ⟨?_, ?_, ?_, ?_, ?_⟩
  case refine_3 =>
    exact otherPages_setReg (by decide) (by decide) <| otherPages_setReg (by decide) (by decide) <|
      otherPages_setF (by decide) (by decide) <| otherPages_setReg (by decide) (by decide) <|
      otherPages_setF (by decide) (by decide) <| otherPages_refl s _
  all_goals simp [stopShown]

/-- What DBG's registers show of the stop. -/
theorem stopShown_shows (s : State) : (stopShown s).is pgDbg F.dbgStatFrozen = true ∧
    (stopShown s).reg pgDbg F.dbgFrzTickLoTick.ofs = w32 s.time.tick ∧
    (stopShown s).rd pgDbg F.dbgFrzTickHiTick = s.time.tick / 2 ^ 32 % 65536 ∧
    (stopShown s).reg pgDbg F.dbgFrzFrcLoCount.ofs = s.time.frc.extractLsb' 0 32 ∧
    (stopShown s).reg pgDbg F.dbgFrzFrcHiCount.ofs = s.time.frc.extractLsb' 32 32 := by
  have hset : ∀ (t : State) (o : Nat) (w : Word) (g : Fld), o < 4096 → g.ofs < 4096 → o ≠ g.ofs →
      (t.setReg pgDbg o w).rd pgDbg g = t.rd pgDbg g := fun t o w g h1 h2 h3 =>
    rd_setReg_apart t _ o w _ g h1 h2 (.inr h3)
  have hput : ∀ (t : State) (o : Nat) (w : Word) (r : Nat), o < 4096 → r < 4096 → o ≠ r →
      (t.setReg pgDbg o w).reg pgDbg r = t.reg pgDbg r := fun t o w r h1 h2 h3 =>
    reg_setReg_ne t w fun hk => h3 (keyOf_inj h1 h2 hk).2
  simp only [stopShown]
  refine ⟨?_, ?_, ?_, ?_, ?_⟩
  · rw [State.is, hset _ _ _ _ (by decide) (by decide) (by decide), hset _ _ _ _ (by decide) (by decide) (by decide),
      rd_setF_apart _ _ _ _ _ _ (by decide) (by decide) (by decide) (.inr (.inl (by decide))),
      hset _ _ _ _ (by decide) (by decide) (by decide), rd_setF_same _ _ _ _ (by decide)]
    rfl
  · rw [hput _ _ _ _ (by decide) (by decide) (by decide), hput _ _ _ _ (by decide) (by decide) (by decide),
      reg_setF_apart _ _ _ _ _ _ (by decide) (by decide) (.inr (by decide)), reg_setReg_same, State.setF_time]
  · rw [hset _ _ _ _ (by decide) (by decide) (by decide), hset _ _ _ _ (by decide) (by decide) (by decide),
      rd_setF_same _ _ _ _ (by decide), State.setReg_time, State.setF_time]
    rfl
  · rw [hput _ _ _ _ (by decide) (by decide) (by decide), reg_setReg_same, State.setF_time, State.setReg_time,
      State.setF_time]
  · rw [reg_setReg_same, State.setReg_time, State.setF_time, State.setReg_time, State.setF_time]

/-- The stop freezes the core, and DBG keeps the time (R524 to R526). -/
theorem freezeStop_stops {s : State} (h : s.dev.freezing = true) :
    ∃ t, exec .freezeStop s = .next t ∧ t.dev.frozen = true ∧ t.dev.freezing = false ∧ t.live = false ∧
      t.is pgDbg F.dbgStatFrozen = true ∧ t.reg pgDbg F.dbgFrzTickLoTick.ofs = w32 s.time.tick ∧
      t.rd pgDbg F.dbgFrzTickHiTick = s.time.tick / 2 ^ 32 % 65536 ∧
      t.reg pgDbg F.dbgFrzFrcLoCount.ofs = s.time.frc.extractLsb' 0 32 ∧
      t.reg pgDbg F.dbgFrzFrcHiCount.ofs = s.time.frc.extractLsb' 32 32 ∧ t.time = s.time ∧
      otherPages s t [pgDbg] ∧ sameMemory s t := by
  generalize hu : ({ s with dev := { s.dev with freezing := false, frozen := true, frzCyc := 0 } } : State) = u
  obtain ⟨hdev, htime, hother, hmem, hpending⟩ := stopShown_keeps u
  obtain ⟨hfrozen, hticklo, htickhi, hfrclo, hfrchi⟩ := stopShown_shows u
  have hutime : u.time = s.time := by rw [← hu]
  have huregs : u.regs = s.regs := by rw [← hu]
  have hstop : (stopShown u).dev.frozen = true := by rw [hdev, ← hu]
  rw [hutime] at hticklo htickhi hfrclo hfrchi htime
  refine ⟨stopShown u, by rw [exec_freezeStop h, hu], hstop, by rw [hdev, ← hu], by simp [State.live, hstop], hfrozen,
    hticklo, htickhi, hfrclo, hfrchi, htime, otherPages_congr huregs.symm rfl hother, ?_, ?_⟩
  · rw [hmem, ← hu]
  · rw [hpending, ← hu]

-- Accesses of a frozen core.

/-- The states differ in the bus matrix at most. -/
def BusOnly (s t : State) : Prop := ∃ x, t = { s with mx := x }

theorem BusOnly.trans {s t u : State} (h : BusOnly s t) (h' : BusOnly t u) : BusOnly s u := by
  obtain ⟨x, rfl⟩ := h
  obtain ⟨y, rfl⟩ := h'
  exact ⟨y, rfl⟩

/-- A granted access switches paths whose slice changed, and nothing else (R405). -/
theorem pathsSwitch_slicing (s : State) (m tgt : Nat) :
    ∃ l, pathsSwitch s m tgt = { s with mx := { s.mx with slicing := l } } := by
  unfold pathsSwitch
  split
  · exact ⟨s.mx.slicing, rfl⟩
  · exact ⟨_, rfl⟩

theorem busOnly_pathsSwitch (s : State) (m tgt : Nat) : BusOnly s (pathsSwitch s m tgt) := by
  obtain ⟨l, hl⟩ := pathsSwitch_slicing s m tgt
  exact ⟨_, hl⟩

theorem busOnly_lockDone (s : State) (m tgt : Nat) :
    BusOnly s (lockDone s m tgt) ∧ (lockDone s m tgt).mx.lastReply = s.mx.lastReply := by
  unfold lockDone
  split
  · exact ⟨⟨_, rfl⟩, rfl⟩
  · exact ⟨⟨s.mx, rfl⟩, rfl⟩

/-- A frozen core that is not HALTED, and a master that reaches the register window (R68, R527). -/
structure FrozenAccess (s : State) (m : Master) : Prop where
  on     : s.dev.phase = .on
  frozen : s.dev.frozen = true
  alive  : s.devState ≠ 4
  reach  : m.reachesWindow = true

theorem FrozenAccess.pageStopped {s : State} {m : Master} (h : FrozenAccess s m) : pageStopped s pgDbg = false := by
  simp [Machine.pageStopped, h.alive]

/-- In a freeze an access of the register window meets no lock and does not wait (R68). -/
theorem busAccess_frozen {s : State} {m : Master} (h : FrozenAccess s m) {p ofs : Nat} (hp : p < 1024) (ho : ofs < 4096)
    (h4 : ofs % 4 = 0) (hk : pageKind p ≠ .reserved) (wr : Option Word) :
    ∃ s', BusOnly s s' ∧ ∀ r d t,
      serve s' (masterNo m) 8 (0x40000000 + p * 4096 + ofs) wr 0xF = (some (r, d), t) →
      BusOnly t (busAccess s (masterNo m) (0x40000000 + p * 4096 + ofs) wr 0xF false).2 ∧
      (busAccess s (masterNo m) (0x40000000 + p * 4096 + ofs) wr 0xF false).2.mx.lastReply = r := by
  refine ⟨pathsSwitch s (masterNo m) 8, busOnly_pathsSwitch s _ 8, fun r d t hs => ?_⟩
  have hf : (pathsSwitch s (masterNo m) 8).dev.frozen = true := by
    obtain ⟨x, hx⟩ := busOnly_pathsSwitch s (masterNo m) 8
    rw [hx]
    exact h.frozen
  have hends : ∀ (c : Bool) (u : State), BusOnly t u → u.mx.lastReply = r →
      BusOnly t (if c then lockDone u (masterNo m) 8 else u) ∧
        (if c then lockDone u (masterNo m) 8 else u).mx.lastReply = r := by
    intro c u hu hr
    obtain ⟨hd, hl⟩ := busOnly_lockDone u (masterNo m) 8
    cases c
    · exact ⟨hu, hr⟩
    · exact ⟨hu.trans hd, hl.trans hr⟩
  unfold busAccess
  rw [targetOf_reg h.reach hp ho h4 hk]
  simp only [mustWait, h.frozen, if_true, Bool.false_eq_true, if_false, lockless, hf, Bool.or_true, Bool.true_or, serveAs,
    hs]
  exact hends _ _ ⟨_, rfl⟩ rfl

/-- A write of DBG in a freeze is that write, and its reply. -/
theorem doRegWrite_frozen {s : State} {m : Master} (h : FrozenAccess s m) {ofs : Nat} (ho : ofs < 4096) (h4 : ofs % 4 = 0)
    (v : Word) : ∃ s', BusOnly s s' ∧ BusOnly (regWrite s' (masterNo m) pgDbg ofs v).2 (doRegWrite s m pgDbg ofs v) ∧
      (doRegWrite s m pgDbg ofs v).mx.lastReply = (regWrite s' (masterNo m) pgDbg ofs v).1 := by
  obtain ⟨s', hs, hb⟩ := busAccess_frozen h (p := pgDbg) (by decide) ho h4 (by decide) (some v)
  have hdo : doRegWrite s m pgDbg ofs v
      = (busAccess s (masterNo m) (0x40000000 + pgDbg * 4096 + ofs) (some v) 0xF false).2 := by
    unfold doRegWrite doWrite busWrite
    rw [regAddr_toNat (by decide) ho, if_pos (show s.answers = true by simp [State.answers, h.on])]
  rw [hdo]
  refine ⟨s', hs, hb _ 0 _ ?_⟩
  simp only [serve, windowOf_regAddr (show pgDbg < 1024 by decide) ho]
  rfl

/-- A read of DBG in a freeze is that read, and reply OK. -/
theorem doRegRead_frozen {s : State} {m : Master} (h : FrozenAccess s m) {ofs : Nat} (ho : ofs < 4096) (h4 : ofs % 4 = 0) :
    ∃ s', BusOnly s s' ∧ ∀ w t, regRead s' (masterNo m) pgDbg ofs = (some w, t) →
      BusOnly t (doRegRead s m pgDbg ofs) ∧ (doRegRead s m pgDbg ofs).mx.lastReply = 0 := by
  obtain ⟨s', hs, hb⟩ := busAccess_frozen h (p := pgDbg) (by decide) ho h4 (by decide) none
  have hdo : doRegRead s m pgDbg ofs
      = (busAccess s (masterNo m) (0x40000000 + pgDbg * 4096 + ofs) none 0xF false).2 := by
    unfold doRegRead doRead busRead
    rw [regAddr_toNat (by decide) ho, if_pos (show s.answers = true by simp [State.answers, h.on])]
  rw [hdo]
  refine ⟨s', hs, fun w t hr => hb _ w t ?_⟩
  simp only [serve, windowOf_regAddr (show pgDbg < 1024 by decide) ho, hr]
  rfl

-- The thaw.

theorem exec_thaw {s : State} (h : s.dev.phase = .on) (m : Master) (pin : Bool) : exec (.thaw m pin) s
    = .next (doRegWrite { s with dev := { s.dev with frzPin := pin } } m pgDbg 0x048 1) := by
  show Host.Outcome.next (if s.dev.phase = .vauxOff then s else _) = _
  rw [h]
  rfl

/-- A frozen core's DBG_THAW.GO does what R528 says of the state with FREEZE_N's level, and answers OK. -/
theorem thaw_frozen {s : State} {m : Master} (h : FrozenAccess s m) (pin : Bool) :
    ∃ s' t, BusOnly { s with dev := { s.dev with frzPin := pin } } s' ∧ exec (.thaw m pin) s = .next t ∧
      BusOnly (thawAct s') t ∧ t.mx.lastReply = 0 := by
  have h' : FrozenAccess { s with dev := { s.dev with frzPin := pin } } m := ⟨h.on, h.frozen, h.alive, h.reach⟩
  obtain ⟨s', hs, hb, hr⟩ := doRegWrite_frozen h' (ofs := 0x048) (by decide) (by decide) 1
  have hw : regWrite s' (masterNo m) pgDbg 0x048 1 = (rOk, thawAct s') := by
    refine regWrite_dbgThaw ?_ _
    obtain ⟨x, rfl⟩ := hs
    exact h.pageStopped
  rw [hw] at hb hr
  exact ⟨s', _, hs, exec_thaw h.on m pin, hb, hr⟩

/-- A thaw with FREEZE_N low is blocked (R528). -/
theorem thaw_blocked {s : State} {m : Master} (h : FrozenAccess s m) :
    ∃ t, exec (.thaw m true) s = .next t ∧ t.dev = { s.dev with frzPin := true } ∧ t.mx.lastReply = 0 ∧
      t.is pgDbg F.dbgStatThawBlocked = true ∧ otherPages s t [pgDbg] ∧ sameMemory s t := by
  obtain ⟨s', t, ⟨x, rfl⟩, he, ⟨y, ht⟩, hr⟩ := thaw_frozen h true
  have hact : thawAct { s with dev := { s.dev with frzPin := true }, mx := x }
      = State.setF { s with dev := { s.dev with frzPin := true }, mx := x } pgDbg F.dbgStatThawBlocked 1 := by
    simp [thawAct, h.frozen]
  rw [hact] at ht
  refine ⟨t, he, ?_, hr, ?_, ?_, ?_, ?_⟩ <;> rw [ht]
  · exact State.setF_dev ..
  · have hrd := rd_setF_same { s with dev := { s.dev with frzPin := true }, mx := x } pgDbg F.dbgStatThawBlocked 1
      (by decide)
    exact bne_iff_ne.mpr fun h0 => absurd (hrd.symm.trans h0) (by decide)
  · exact otherPages_setF (s := s) (by decide) (by decide) (otherPages_refl s _)
  · exact State.setF_mem ..
  · exact State.setF_pending ..

/-- What DBG shows after the thaw: no freeze, and its length (R528, Table 20.10). -/
def thawShown (s : State) : State :=
  ((s.setF pgDbg F.dbgStatFrozen 0).setF pgDbg F.dbgStatThawBlocked 0).setF pgDbg F.dbgFrzUsUs
    (min 0xFFFFFFFF (s.dev.frzCyc / 800))

theorem thawShown_shows (s : State) : (thawShown s).is pgDbg F.dbgStatFrozen = false ∧
    (thawShown s).is pgDbg F.dbgStatThawBlocked = false ∧
    (thawShown s).rd pgDbg F.dbgFrzUsUs = min 0xFFFFFFFF (s.dev.frzCyc / 800) := by
  refine ⟨?_, ?_, ?_⟩
  · rw [State.is, thawShown, rd_setF_apart _ _ _ _ _ _ (by decide) (by decide) (by decide) (.inr (.inl (by decide))),
      rd_setF_apart _ _ _ _ _ _ (by decide) (by decide) (by decide) (.inr (.inr (.inr (by decide)))),
      rd_setF_same _ _ _ _ (by decide)]
    rfl
  · rw [State.is, thawShown, rd_setF_apart _ _ _ _ _ _ (by decide) (by decide) (by decide) (.inr (.inl (by decide))),
      rd_setF_same _ _ _ _ (by decide)]
    rfl
  · rw [thawShown, rd_setF_same _ _ _ _ (by decide)]
    exact Nat.mod_eq_of_lt (Nat.lt_of_le_of_lt (Nat.min_le_left ..) (by decide))

/-- Nothing beside DBG's registers changes as the end of the freeze is shown. -/
theorem thawShown_keeps (s : State) : (thawShown s).dev = s.dev ∧ otherPages s (thawShown s) [pgDbg] ∧
    sameMemory s (thawShown s) := by
  refine ⟨by simp [thawShown], ?_, by simp [thawShown], by simp [thawShown]⟩
  unfold thawShown
  exact otherPages_setF (by decide) (by decide) <| otherPages_setF (by decide) (by decide) <|
    otherPages_setF (by decide) (by decide) <| otherPages_refl s _

/-- The thaw of a core on which no tamper waits restarts it (R528). -/
theorem thawAct_restarts {s : State} (hf : s.dev.frozen = true) (hp : s.dev.frzPin = false) (ht : s.dev.tamperOff = 0) :
    thawAct s = (thawShown s).setDev (fun d => { d with frozen := false, tamperOff := 0 }) := by
  simp only [thawAct, hf, hp, Bool.not_true, Bool.false_eq_true, if_false, State.setF_dev, ht, if_true]
  rfl

theorem thaw_restarts {s : State} {m : Master} (h : FrozenAccess s m) (htamper : s.dev.tamperOff = 0) :
    ∃ t, exec (.thaw m false) s = .next t ∧ t.live = true ∧ t.dev.frzPin = false ∧ t.mx.lastReply = 0 ∧
      t.is pgDbg F.dbgStatFrozen = false ∧ t.is pgDbg F.dbgStatThawBlocked = false ∧
      t.rd pgDbg F.dbgFrzUsUs = min 0xFFFFFFFF (s.dev.frzCyc / 800) ∧ otherPages s t [pgDbg] ∧ sameMemory s t := by
  obtain ⟨s', t, ⟨x, rfl⟩, he, ⟨y, ht⟩, hr⟩ := thaw_frozen h false
  rw [thawAct_restarts (by exact h.frozen) rfl (by exact htamper)] at ht
  generalize hu : ({ s with dev := { s.dev with frzPin := false }, mx := x } : State) = u at ht
  have hudev : u.dev = { s.dev with frzPin := false } := by rw [← hu]
  have huregs : u.regs = s.regs := by rw [← hu]
  have humem : sameMemory s u := by rw [← hu]; exact ⟨rfl, rfl⟩
  obtain ⟨hfrozen, hblocked, hus⟩ := thawShown_shows u
  obtain ⟨hdev, hother, hmem, hpending⟩ := thawShown_keeps u
  have htdev : t.dev = { u.dev with frozen := false, tamperOff := 0 } := by rw [ht, ← hdev]; rfl
  have htregs : t.regs = (thawShown u).regs := by rw [ht]; rfl
  have hpages : otherPages s t [pgDbg] := otherPages_congr huregs.symm htregs hother
  have hstate : t.devState = s.devState := congrArg (getBits · _ _) (hpages pgDev _ (by decide) (by decide))
  refine ⟨t, he, ?_, ?_, hr, ?_, ?_, ?_, hpages, ?_, ?_⟩
  · simp [State.live, htdev, hudev, hstate, h.on, h.alive]
  · rw [htdev, hudev]
  · rw [is_congr htregs, hfrozen]
  · rw [is_congr htregs, hblocked]
  · rw [rd_congr htregs, hus, hudev]
  · rw [ht]
    exact hmem.trans humem.1
  · rw [ht]
    exact hpending.trans humem.2

-- The snapshot.

/-- Not frozen, DBG_SNAP_DATA gives 0 (R527). -/
theorem snapWord_thawed {s : State} (h : s.dev.frozen = false) : snapWord s = (0, s) := by
  simp only [snapWord, h, Bool.not_false, if_true]

/-- In a freeze a read of DBG_SNAP_DATA advances OFS by 4 and draws at most a free value (R527; log 3). -/
theorem snapWord_frozen {s : State} (h : s.dev.frozen = true) :
    ∃ w n, snapWord s = (w, { snapWord.roll4 s with freeCtr := n }) := by
  simp only [snapWord, h, Bool.not_true, Bool.false_eq_true, if_false]
  split
  · exact ⟨_, _, rfl⟩
  · split
    · exact ⟨_, _, rfl⟩
    · exact ⟨_, _, rfl⟩

theorem regRead_snapData (s : State) (m : Nat) : regRead s m pgDbg 0x068 = (some (snapWord s).1, (snapWord s).2) := rfl

theorem exec_snapDataRead (m : Master) (s : State) :
    exec (.snapDataRead m) s = .next (doRegRead s m pgDbg 0x068) := rfl

theorem snapDataRead_frozen {s : State} {m : Master} (h : FrozenAccess s m) :
    ∃ t, exec (.snapDataRead m) s = .next t ∧ t.mx.lastReply = 0 ∧ t.dev = s.dev ∧
      t.rd pgDbg F.dbgSnapOfsOfs = (s.rd pgDbg F.dbgSnapOfsOfs + 4) % 2 ^ 18 ∧ otherPages s t [pgDbg] ∧
      sameMemory s t := by
  obtain ⟨s', ⟨x, rfl⟩, hread⟩ := doRegRead_frozen h (ofs := 0x068) (by decide) (by decide)
  obtain ⟨w, n, hw⟩ := snapWord_frozen (s := { s with mx := x }) h.frozen
  obtain ⟨⟨y, ht⟩, hr⟩ := hread w _ (by rw [regRead_snapData, hw])
  refine ⟨_, exec_snapDataRead m s, hr, ?_⟩
  rw [ht]
  refine ⟨State.setF_dev .., ?_, ?_, State.setF_mem .., State.setF_pending ..⟩
  · have hrd := rd_setF_same { s with mx := x } pgDbg F.dbgSnapOfsOfs ((s.rd pgDbg F.dbgSnapOfsOfs + 4) % 2 ^ 18) (by decide)
    exact hrd.trans (Nat.mod_mod ..)
  · exact otherPages_setF (s := s) (by decide) (by decide) (otherPages_refl s _)

theorem snapDataRead_thawed {s : State} {m : Master} (g : granted s m = true) :
    exec (.snapDataRead m) s = .next (answered s 0 0) := by
  obtain ⟨_, hfrozen, _⟩ := live_on (grant_of g).live
  rw [exec_snapDataRead, doRegRead_granted g (by decide) (by decide) (by decide) (by decide) (w := 0) (t := s)
    (by rw [regRead_snapData, snapWord_thawed hfrozen])]

/-- A thaw of a core that is not frozen does nothing (R528). -/
theorem thaw_thawed {s : State} {m : Master} (g : granted s m = true) :
    exec (.thaw m s.dev.frzPin) s = .next (answered s 0 0) := by
  obtain ⟨hon, hfrozen, _⟩ := live_on (grant_of g).live
  have hact : thawAct s = s := by simp only [thawAct, hfrozen, Bool.not_false, if_true]
  rw [exec_thaw hon]
  show Host.Outcome.next (doRegWrite s m pgDbg 0x048 1) = _
  rw [doRegWrite_granted g (by decide) (by decide) (by decide) (by decide),
    regWrite_dbgThaw (pageStopped_live (grant_of g).live _), hact]

-- DBG_CFG.

theorem masterNo_ne_zero {m : Master} (h : m ≠ .hif) : masterNo m ≠ 0 := by
  cases m
  case hif => exact absurd rfl h
  all_goals decide

/-- A write of DBG_CFG by another master than HIF is ignored (R534, R540). -/
theorem dbgCfg_ignored {s : State} {m : Master} (g : granted s m = true) (h : m ≠ .hif) (v : Word) :
    exec (.registerWrite m (regAddr pgDbg 0x040) v) s = .next (answered s 0 0) := by
  rw [RegisterPages.exec_registerWrite, doRegWrite_granted g (by decide) (by decide) (by decide) (by decide),
    regWrite_working v (pageStopped_live (grant_of g).live _) (by decide) (by decide) (descOf_dbg s 0x040) rfl, blockWrite,
    if_pos ⟨rfl, rfl, masterNo_ne_zero h⟩]

/-- A register without an operation starts none. -/
theorem opWrote_none (s : State) {p ofs : Nat} (v : Word) (h : opBits p ofs = 0) : opWrote s p ofs v = s := by
  simp [opWrote, h]

/-- A write of DBG_CFG by HIF stores JTAG_EN (R534, R540). -/
theorem dbgCfg_stored {s : State} (g : granted s .hif = true) (v : Word) :
    exec (.registerWrite .hif (regAddr pgDbg 0x040) v) s
      = .next (answered (putLive s pgDbg 0x040 (mixWord (s.reg pgDbg 0x040) v 1)) 0 0) := by
  rw [RegisterPages.exec_registerWrite, doRegWrite_granted g (by decide) (by decide) (by decide) (by decide),
    regWrite_working v (pageStopped_live (grant_of g).live _) (by decide) (by decide) (descOf_dbg s 0x040) rfl,
    blockWrite_ok v (m := masterNo .hif) (fun h => h.2.2 rfl) rfl rfl, opWrote_none _ v rfl]
  have hdbg : ∀ (t : State) (old : Word), blockWrote t (masterNo .hif) pgDbg 0x040 v old = t := fun t old => by
    show dbgWrote t 0x040 v = t
    exact if_neg fun h => absurd h.1 (by decide)
  rw [hdbg]
  rfl

theorem dbgCfg_hif {s : State} (g : granted s .hif = true) (v : Word) :
    ∃ t, exec (.registerWrite .hif (regAddr pgDbg 0x040) v) s = .next t ∧ t.mx.lastReply = 0 ∧
      t.is pgDbg F.dbgCfgJtagEn = v.getLsbD 0 ∧ otherPages s t [pgDbg] ∧ sameMemory s t := by
  refine ⟨_, dbgCfg_stored g v, rfl, ?_, ?_, ?_⟩
  · rw [is_answered, is_of_bit _ _ _ 0 rfl rfl, reg_putLive,
      if_pos (show keyOf pgDbg 0x040 = keyOf pgDbg F.dbgCfgJtagEn.ofs from rfl)]
    simp [mixWord]
  · intro q r hr hq
    rw [reg_answered, reg_putLive, if_neg]
    exact fun hk => hq (List.mem_singleton.mpr (keyOf_inj (by decide) hr hk).1.symm)
  · unfold putLive
    simp only []
    split <;> exact ⟨rfl, rfl⟩

end Sys2Proof.Freeze
end

section
/-! SUPPORT. Test access (20): the instructions of the TAP, and the accesses of DBG_ACC as master M6; with the statement on
freezes and test access. -/

namespace Sys2Proof.TestAccess

open Sys2Proof.Machine Sys2Proof.Safety Sys2Proof.Freeze

-- The TAP.

/-- Table 20.6: an instruction is selected while VAUX is on, and EXTEST drives the pins in EXTEST only (R530, R531). -/
theorem tapSelect_spec (s : State) (code : BitVec 5) : tapSelect s code = if s.dev.phase = .vauxOff then s
    else { s with dev := { s.dev with tap := code, extest := decide (code = 0 ∧ s.dev.phase = .extest) } } := by
  have hb : (code == 0 && s.dev.phase == .extest) = decide (code = 0 ∧ s.dev.phase = .extest) := by
    rw [Bool.decide_and]
    rfl
  unfold tapSelect
  split
  case isTrue => rfl
  case isFalse =>
    show { s with dev := { s.dev with tap := code, extest := code == 0 && s.dev.phase == Phase.extest } } = _
    rw [hb]

-- DBG_ACC.

/-- DBG_ACC makes accesses in a released core whose DBG runs, not when SCRAPPED, and in DEPLOYED where JTAG_EN is 1 (R533,
R534). -/
theorem dbgMay_iff (s : State) : dbgMay s = true ↔ s.dev.phase = .on ∧ s.running pgDbg = true ∧ lcState s ≠ 4 ∧
    (lcState s = 2 → s.actIs pgDbg F.dbgCfgJtagEn = true) := by
  unfold dbgMay State.answers
  rw [Bool.and_eq_true, Bool.and_eq_true, beq_iff_eq, and_assoc]
  refine and_congr_right fun _ => and_congr_right fun _ => ?_
  split
  case h_1 h => simp [h]
  case h_2 h => simp [h]
  case h_3 h2 h4 => exact iff_of_true rfl ⟨h4, fun h => absurd h h2⟩

/-- The state in which DBG_ACC is selected; BYPASS takes its place when SCRAPPED (R534). -/
def selected (s : State) : State :=
  { s with dev := { s.dev with tap := if lcState s = 4 then 0x1F else 0x10, extest := false } }

theorem dbgMay_selected (s : State) : dbgMay (selected s) = dbgMay s := rfl

/-- Without VAUX the TAP does nothing. -/
theorem exec_dbgAccess_off {s : State} {op : BitVec 4} (addr data : Word) (h : s.dev.phase = .vauxOff) :
    exec (.dbgAccess op addr data) s = .next s := congrArg Host.Outcome.next (if_pos h)

/-- Where no access still runs, none goes on. -/
theorem dbgGoOn_idle {s : State} (h : s.dev.dbgRuns = none) : dbgGoOn s = s := by
  simp only [dbgGoOn, h]

section
variable {s : State} (hv : s.dev.phase ≠ .vauxOff) (addr data : Word)
include hv

/-- Update-DR under DBG_ACC, by OP (R532). -/
theorem exec_dbgAccess (op : BitVec 4) : exec (.dbgAccess op addr data) s = .next (
    if op = 0 then (if dbgMay s then dbgGoOn (selected s) else selected s)
    else if !dbgMay s || !(op == 1 || op == 2) then
      { selected s with dev := { (selected s).dev with dbgRuns := none, dbgAcc := (rDecode, addr, 0) } }
    else if (dbgGoOn (selected s)).dev.dbgRuns.isSome then dbgGoOn (selected s)
    else dbgTry (dbgGoOn (selected s)) addr (if op = 2 then some data else none)) :=
  congrArg Host.Outcome.next (if_neg hv)

/-- OP 0 makes no access (R532). -/
theorem exec_dbgAccess_noop (h : dbgMay s = false ∨ s.dev.dbgRuns = none) :
    exec (.dbgAccess 0 addr data) s = .next (selected s) := by
  rw [exec_dbgAccess hv, if_pos rfl]
  rcases h with hmay | hruns
  · rw [hmay]
    rfl
  · rw [dbgGoOn_idle (show (selected s).dev.dbgRuns = none from hruns), ite_self]

/-- An access that may not be made, or of a reserved OP, captures DECODE_ERR (R532, R534). -/
theorem exec_dbgAccess_refused {op : BitVec 4} (hop : op ≠ 0) (h : dbgMay s = false ∨ (op ≠ 1 ∧ op ≠ 2)) :
    exec (.dbgAccess op addr data) s = .next { selected s with
      dev := { (selected s).dev with dbgRuns := none, dbgAcc := (rDecode, addr, 0) } } := by
  have hc : (!dbgMay s || !(op == 1 || op == 2)) = true := by
    rcases h with hmay | ⟨h1, h2⟩
    · rw [hmay]
      rfl
    · rw [beq_eq_false_iff_ne.mpr h1, beq_eq_false_iff_ne.mpr h2, Bool.or_false, Bool.not_false, Bool.or_true]
  rw [exec_dbgAccess hv, if_neg hop, if_pos hc]

/-- A read or a write is made at once where none still runs. -/
theorem exec_dbgAccess_made {op : BitVec 4} (hop : op = 1 ∨ op = 2) (hmay : dbgMay s = true) (hruns : s.dev.dbgRuns = none) :
    exec (.dbgAccess op addr data) s = .next (dbgTry (selected s) addr (if op = 2 then some data else none)) := by
  have h0 : op ≠ 0 := by rcases hop with rfl | rfl <;> decide
  have hc : ¬ (!dbgMay s || !(op == 1 || op == 2)) = true := by
    rcases hop with rfl | rfl <;> simp [hmay]
  have hidle : ¬ (selected s).dev.dbgRuns.isSome = true := by
    rw [show (selected s).dev.dbgRuns = none from hruns]
    decide
  rw [exec_dbgAccess hv, if_neg h0, if_neg hc, dbgGoOn_idle (show (selected s).dev.dbgRuns = none from hruns), if_neg hidle]

end

-- An access of a bank by master M6.

/-- M6 meets a bank that serves it at once: the bank is the target, it is filled and unlocked, the core works, B7 is not
being wiped and the word is not in error (R392 to R394, R401, R402, R407). -/
structure BankServes (s : State) (addr : Word) (wr : Bool) (b : Nat) : Prop where
  target : targetOf s 6 addr.toNat 0xF wr = b
  bank   : b < 8
  ready  : mustWait s 6 b = false
  lock   : s.mx.locks.find b = none
  whole  : s.mx.broken.find (96 + b) = none
  live   : s.live = true
  wipe   : s.mx.wiping = none
  sound  : s.mx.dead.contains (addr.toNat / 4 * 4) = false

theorem BankServes.selected {s : State} {addr : Word} {wr : Bool} {b : Nat} (h : BankServes s addr wr b) :
    BankServes (selected s) addr wr b :=
  ⟨h.target, h.bank, h.ready, h.lock, h.whole, h.live, h.wipe, h.sound⟩

/-- Switched paths do not touch what the access meets. -/
theorem BankServes.switched {s : State} {addr : Word} {wr : Bool} {b : Nat} (h : BankServes s addr wr b) :
    (pathsSwitch s 6 b).live = true ∧ (pathsSwitch s 6 b).mx.locks.find b = none ∧
    (pathsSwitch s 6 b).mx.broken.find (96 + b) = none ∧ (pathsSwitch s 6 b).mx.wiping = none ∧
    (pathsSwitch s 6 b).mx.dead.contains (addr.toNat / 4 * 4) = false := by
  obtain ⟨l, hl⟩ := pathsSwitch_slicing s 6 b
  rw [hl]
  exact ⟨h.live, h.lock, h.whole, h.wipe, h.sound⟩

/-- The access is the bank's, and its answer is captured. -/
theorem dbgTry_bank {s : State} {addr : Word} {wr : Option Word} {b : Nat} (h : BankServes s addr wr.isSome b)
    {d : Word} {t : State} (ha : bankAccess (pathsSwitch s 6 b) b (addr.toNat / 4 * 4) wr 0xF = ((rOk, d), t)) :
    ∃ x, dbgTry s addr wr
      = { t with mx := x, dev := { t.dev with dbgRuns := none, dbgAcc := (rOk, addr, d) } } := by
  obtain ⟨_, hlock, hwhole, _, _⟩ := h.switched
  have h15 : b ≠ 15 := Nat.ne_of_lt (Nat.lt_trans h.bank (by decide))
  have h8 : b ≠ 8 := Nat.ne_of_lt h.bank
  have huse : lockUse (pathsSwitch s 6 b) 6 b false false = (false, pathsSwitch s 6 b) := by
    simp [lockUse, hwhole, hlock]
  have hends : lockEnds (pathsSwitch s 6 b) 6 b = false := by
    simp [lockEnds, hlock]
  unfold dbgTry busAccess
  simp only [h.target, h.ready, Bool.false_eq_true, if_false, huse, ite_self, hends, Bool.false_and, serveAs, serve, h15, h8,
    ha, if_true]
  exact ⟨_, rfl⟩

/-- A correction is told on the bank's page alone (R393). -/
theorem eccCorrected_frame (s : State) (b a : Nat) : (eccCorrected s b a).dev = s.dev ∧
    otherPages s (eccCorrected s b a) [pgMem b] ∧ sameMemory s (eccCorrected s b a) := by
  generalize hcount : (s.bump (pgMem b) F.memEccCorr).setReg (pgMem b) F.memLastErrAddr.ofs (w32 a) = u
  have hcorr : ∃ r, eccCorrected s b a = raise { u with red := r } (pgMem b) F.memFltEccCorr.lo (w32 a) := by
    rw [← hcount]
    exact ⟨_, rfl⟩
  obtain ⟨r, hcorr⟩ := hcorr
  have hpages : otherPages s { u with red := r } [pgMem b] := by
    refine otherPages_congr (t := u) rfl rfl ?_
    rw [← hcount]
    exact otherPages_setReg (by decide) (List.mem_singleton_self _) <|
      otherPages_setF (by decide) (List.mem_singleton_self _) <| otherPages_refl s _
  have hbeside := raise_beside { u with red := r } (pgMem b) F.memFltEccCorr.lo (w32 a)
  rw [hcorr]
  refine ⟨?_, ?_, ?_, ?_⟩
  · refine (congrArg State.dev hbeside :).trans ?_
    simp [beside, ← hcount]
  · intro q o ho hq
    rw [reg_raise]
    exact otherPages_setF (f := Fld.bit F.flt.ofs F.memFltEccCorr.lo) (by decide) (List.mem_singleton_self _) hpages q o ho hq
  · refine (congrArg State.mem hbeside :).trans ?_
    simp [beside, ← hcount]
  · refine (congrArg State.pending hbeside :).trans ?_
    simp [beside, ← hcount]

/-- A read of a bank gives its word; one corrected bit is counted and told (R390, R393). -/
theorem bankAccess_read {s : State} {b a : Nat} {be : BitVec 4} (hl : s.live = true) (hw : s.mx.wiping = none)
    (hd : s.mx.dead.contains a = false) : ∃ t, bankAccess s b a none be = ((rOk, s.memWord a), t) ∧ t.dev = s.dev ∧
      otherPages s t [pgMem b] ∧ sameMemory s t := by
  obtain ⟨_, hfrozen, hstate⟩ := live_on hl
  have hread : bankRead s b a = (s.memWord a, 0) := by
    simp only [bankRead, hw, hd, Option.isSome_none, Bool.false_eq_true, and_false, if_false]
  have haccess : bankAccess s b a none be
      = ((rOk, s.memWord a), if s.mx.wback.contains a then eccCorrected s b a else s) := by
    simp [bankAccess, hread, hfrozen, hstate, hw]
  refine ⟨_, haccess, ?_⟩
  split
  · exact eccCorrected_frame s b a
  · exact ⟨rfl, otherPages_refl s _, rfl, rfl⟩

/-- A word merged with every byte enabled is the new word (R390). -/
theorem mergeWord_whole (old new : Word) : mergeWord old new 0xF = new := by
  have hm : mergeWord old new 0xF = (old &&& ~~~(BitVec.allOnes 32)) ||| (new &&& BitVec.allOnes 32) := rfl
  rw [hm, BitVec.and_allOnes, BitVec.not_allOnes, BitVec.and_zero, BitVec.zero_or]

/-- What a word written whole to a bank leaves: what R263 remembers of it, and no seal where it is a key's (R390, R400). -/
def wordWritten (s : State) (b a : Nat) (v : Word) : State :=
  let t := noteCleared (s.setMemWord a v) a (s.memWord a) v
  if b = 7 ∧ a < 0x0A008000 then (t.setF pgSec F.secStatSealOk 0).setF pgSec F.secStatKeysUsable 0 else t

theorem bankAccess_write {s : State} {b a : Nat} (v : Word) (hl : s.live = true) (hw : s.mx.wiping = none) :
    bankAccess s b a (some v) 0xF = ((rOk, 0), wordWritten s b a v) := by
  obtain ⟨_, hfrozen, hstate⟩ := live_on hl
  have hbe : (0xF : BitVec 4) ≠ 0 := by decide
  have hwrite : bankWrite s b a v 0xF = (0, wordWritten s b a v) := by
    simp only [bankWrite, hw, Option.isSome_none, Bool.false_eq_true, and_false, if_false, hbe, ne_eq, not_true_eq_false,
      mergeWord_whole, wordWritten]
  simp only [bankAccess, hfrozen, beq_eq_false_iff_ne.mpr hstate, Bool.or_self, Bool.false_eq_true, if_false, hwrite]
  rfl

/-- What R263 remembers is LATG's alone. -/
theorem noteCleared_frame (s : State) (a : Nat) (old new : Word) : (noteCleared s a old new).dev = s.dev ∧
    (noteCleared s a old new).pending = s.pending ∧ (noteCleared s a old new).mem = s.mem ∧
    (noteCleared s a old new).regs = s.regs := by
  unfold noteCleared
  split <;> exact ⟨rfl, rfl, rfl, rfl⟩

theorem wordWritten_frame (s : State) (b a : Nat) (v : Word) : (wordWritten s b a v).dev = s.dev ∧
    (wordWritten s b a v).pending = s.pending ∧ (wordWritten s b a v).mem = (s.setMemWord a v).mem ∧
    otherPages s (wordWritten s b a v) [pgSec] := by
  obtain ⟨hdev, hpending, hmem, hregs⟩ := noteCleared_frame (s.setMemWord a v) a (s.memWord a) v
  have hpages := otherPages_congr (s := s) (s' := s) (ps := [pgSec]) rfl hregs (otherPages_refl s _)
  simp only [wordWritten]
  split
  · refine ⟨by simp [hdev], by simp [hpending], by simp [hmem], ?_⟩
    exact otherPages_setF (by decide) (by decide) <| otherPages_setF (by decide) (by decide) hpages
  · exact ⟨hdev, hpending, hmem, hpages⟩

/-- DBG_ACC makes accesses only where it can be selected (R534). -/
theorem tap_selected {s : State} (h : dbgMay s = true) : (selected s).dev.tap = 0x10 :=
  if_neg ((dbgMay_iff s).mp h).2.2.1

section
variable {s : State} (hv : s.dev.phase ≠ .vauxOff) (addr data : Word) (hmay : dbgMay s = true)
  (hruns : s.dev.dbgRuns = none) {b : Nat}
include hv hmay hruns

/-- A read of a bank by DBG_ACC captures the word (R532). -/
theorem dbgAccess_reads (h : BankServes s addr false b) :
    ∃ t, exec (.dbgAccess 1 addr data) s = .next t ∧ t.dev.tap = 0x10 ∧ t.dev.dbgRuns = none ∧
      t.dev.dbgAcc = (0, addr, s.memWord (addr.toNat / 4 * 4)) ∧ otherPages s t [pgMem b] ∧ sameMemory s t := by
  obtain ⟨l, hl⟩ := pathsSwitch_slicing (selected s) 6 b
  obtain ⟨hlive, _, _, hwipe, hsound⟩ := h.selected.switched
  obtain ⟨u, hread, hdev, hpages, hmem, hpending⟩ := bankAccess_read (b := b) (be := 0xF) hlive hwipe hsound
  obtain ⟨x, ht⟩ := dbgTry_bank (wr := none) h.selected hread
  rw [hl] at hdev hpages hmem hpending ht
  refine ⟨_, exec_dbgAccess_made hv addr data (.inl rfl) hmay hruns, ?_⟩
  rw [if_neg (by decide), ht]
  exact ⟨(congrArg DevSt.tap hdev).trans (tap_selected hmay), rfl, rfl, hpages, hmem, hpending⟩

/-- A write of a bank by DBG_ACC stores the word (R532). -/
theorem dbgAccess_writes (h : BankServes s addr true b) :
    ∃ t, exec (.dbgAccess 2 addr data) s = .next t ∧ t.dev.tap = 0x10 ∧ t.dev.dbgRuns = none ∧
      t.dev.dbgAcc = (0, addr, 0) ∧ t.memWord (addr.toNat / 4 * 4) = data ∧
      (∀ a, (a < addr.toNat / 4 * 4 ∨ addr.toNat / 4 * 4 + 4 ≤ a) → Memory.read t.mem a = Memory.read s.mem a) ∧
      otherPages s t [pgSec] ∧ t.pending = s.pending := by
  obtain ⟨l, hl⟩ := pathsSwitch_slicing (selected s) 6 b
  obtain ⟨hlive, _, _, hwipe, _⟩ := h.selected.switched
  have hwrite := bankAccess_write (b := b) (a := addr.toNat / 4 * 4) data hlive hwipe
  obtain ⟨x, ht⟩ := dbgTry_bank (wr := some data) h.selected hwrite
  rw [hl] at ht
  obtain ⟨hdev, hpending, hmem, hpages⟩ := wordWritten_frame
    { selected s with mx := { (selected s).mx with slicing := l } } b (addr.toNat / 4 * 4) data
  refine ⟨_, exec_dbgAccess_made hv addr data (.inr rfl) hmay hruns, ?_⟩
  rw [if_pos rfl, ht]
  refine ⟨(congrArg DevSt.tap hdev).trans (tap_selected hmay), rfl, rfl, ?_, ?_, hpages, hpending⟩
  · simp only [State.memWord, hmem]
    exact memWord_setMemWord s _ data
  · intro a ha
    simp only [hmem]
    exact Memory.read_writes_outside s.mem _ _ a ha

end

end Sys2Proof.TestAccess

open Sys2Proof Sys2Proof.Machine Sys2Proof.Safety Sys2Proof.Freeze Sys2Proof.TestAccess

/-- Settles O59: a taken freeze request leaves the outputs safe, the stop and the thaw show their times in DBG, DBG_CFG is
HIF's, and DBG_ACC is a bank access of M6 where it may be made. -/
theorem freezesHoldTheCoreAndTestAccessReads : Obligations.FreezesHoldTheCoreAndTestAccessReads := by
  unfold Obligations.FreezesHoldTheCoreAndTestAccessReads
  intro s m
  refine ⟨⟨?request, ?refused⟩, freezeStop_stops, exec_freezeStop_idle, ?frozen, ?thawed, ⟨by decide, ?cfg⟩, ?tap, ?access⟩
  case request =>
    intro e he htaken g
    simp only [List.mem_cons, List.not_mem_nil, or_false] at he
    rcases he with rfl | rfl
    · obtain ⟨t, ht, hfreezing, hfrozen, hpin, hsrc, hsafe⟩ := freezePin_taken htaken
      exact ⟨t, ht, hfreezing, hfrozen, hsrc, fun _ => hpin, fun h => absurd h (by decide), hsafe⟩
    · obtain ⟨t, ht, hfreezing, hfrozen, hsrc, hnamed, hsafe⟩ := freezeRequest_taken htaken (g rfl)
      exact ⟨t, ht, hfreezing, hfrozen, hsrc, fun h => absurd h (show (2 : Nat) ≠ 1 by decide), fun _ => hnamed, hsafe⟩
  case refused => exact freezePin_refused
  case frozen =>
    intro hon hfrozen hstate hreach
    have h : FrozenAccess s m := ⟨hon, hfrozen, hstate, hreach⟩
    exact ⟨thaw_blocked h, thaw_restarts h, snapDataRead_frozen h⟩
  case thawed => exact fun g => ⟨snapDataRead_thawed g, thaw_thawed g⟩
  case cfg =>
    intro g v
    exact ⟨fun h => by subst h; exact dbgCfg_hif g v, fun h => dbgCfg_ignored g h v⟩
  case tap =>
    intro e he
    simp only [List.mem_cons, List.not_mem_nil, or_false] at he
    rcases he with rfl | rfl | rfl | rfl | rfl <;> exact congrArg Host.Outcome.next (tapSelect_spec s _)
  case access =>
    intro op addr data tap htap
    subst htap
    refine ⟨exec_dbgAccess_off addr data, fun hv => ⟨dbgMay_iff s, ?noop, exec_dbgAccess_refused hv addr data, ?bank⟩⟩
    case noop =>
      rintro rfl h
      exact exec_dbgAccess_noop hv addr data h
    case bank =>
      intro b hmay hruns htarget hbank hready hlock hwhole hlive hwipe hsound
      have h : BankServes s addr (op == 2) b := ⟨htarget, hbank, hready, hlock, hwhole, hlive, hwipe, hsound⟩
      refine ⟨?_, ?_⟩
      · rintro rfl
        exact dbgAccess_reads hv addr data hmay hruns h
      · rintro rfl _
        exact dbgAccess_writes hv addr data hmay hruns h
end
